-- ==== Sys2Proof/Word.lean ====
section
/-! DEFINITION. The word types of the device and their plainest arithmetic (R4: stored values are little-endian). -/
namespace Sys2Proof

/-- One byte. -/
abbrev Byte := BitVec 8
/-- A 16-bit field. -/
abbrev W16 := BitVec 16
/-- A 32-bit register or field. -/
abbrev W32 := BitVec 32
/-- A 64-bit register or field. -/
abbrev W64 := BitVec 64

/-- Two's-complement wrap of an integer to `w` bits. -/
def wrapI (w : Nat) (x : Int) : BitVec w := BitVec.ofInt w x

/-- The larger of two naturals, cut to a maximum: a saturating addition. -/
def satAdd (max a b : Nat) : Nat := if a + b ≤ max then a + b else max

/-- Saturating increment of a `w`-bit counter (the saturating counters of the spec stay at all ones). -/
def satInc {w : Nat} (x : BitVec w) : BitVec w := if x = BitVec.allOnes w then x else x + 1#w

/-- Saturating addition to a `w`-bit counter. -/
def satPlus {w : Nat} (x : BitVec w) (n : Nat) : BitVec w :=
  if x.toNat + n < 2 ^ w then x + BitVec.ofNat w n else BitVec.allOnes w

/-- `⌈a / b⌉` for naturals (`0` when `b = 0`). -/
def ceilDiv (a b : Nat) : Nat := (a + b - 1) / b

end Sys2Proof
end

