-- ==== Sys2Proof/Syntax.lean ====
section
/-! DEFINITION. The commands and events of the block: one constructor of `Instr` per row of the opcode table, and the
operand records they carry. A master command carries the descriptor of Table 18-4 without its opcode; an event
carries what the outside world, a detector or an open computation delivers with it (log entry 5). -/
namespace Sys2Proof

/-- The path a master access takes (R407): the PCIe link or mailbox frames of the management port. -/
inductive Agent where
  | pcie | mgmt
deriving DecidableEq, Repr, Inhabited

/-- A master command's descriptor (Table 18-4) with the opcode left to the row. -/
structure CmdIn where
  /-- path (AGENT of Table 18-5) -/
  agent : Agent := .pcie
  /-- ring slot (INDEX of Table 18-5); a frame-borne command's completion always carries 0xFFFF -/
  index : W16 := 0
  /-- FLAGS without PHASE: [0] IRQ, [1] FENCE, [14:2] reserved -/
  flags : BitVec 15 := 0
  /-- SEQ -/
  seq : W32 := 0
  /-- PROBLEM -/
  problem : W16 := 0xFFFF
  /-- the reserved bytes at 0x0A -/
  rsvd : W16 := 0
  /-- LENGTH -/
  length : W32 := 0
  /-- ADDR -/
  addr : W64 := 0
  /-- ADDR2 -/
  addr2 : W64 := 0
  /-- ARGS: byte i is A[i] -/
  args : BitVec 256 := 0
deriving DecidableEq, Repr, Inhabited

/-- Transports of a frame (R347). -/
inductive Transport where
  | ipv4 | ipv6 | raw
deriving DecidableEq, Repr, Inhabited

/-- The partner of a frame on the network: where a received one came from, where a sent one goes (R348, R352). -/
structure NetSrc where
  /-- ingress or egress port -/
  port : Fin 16 := 0
  /-- the partner's MAC -/
  mac : BitVec 48 := 0
  /-- transport -/
  transport : Transport := .ipv4
  /-- the partner's IP address; IPv4 in the low 32 bits -/
  ip : BitVec 128 := 0
  /-- the partner's UDP port -/
  udp : W16 := 0
  /-- PCP of the VLAN tag -/
  pcp : Byte := 0
  /-- R-TAG sequence number (R346) -/
  rtag : Option W16 := none
  /-- of a sent frame: VID of its tag (R352) -/
  vid : BitVec 12 := 0
  /-- of a sent UDP frame: its source port (R348) -/
  sport : W16 := 0
deriving DecidableEq, Repr, Inhabited

/-- A YSP or mailbox frame addressed to the device (Table 15-7): its header with TYPE left to the row, and the payload
bytes received. -/
structure FrameIn where
  /-- source -/
  src : NetSrc := {}
  /-- bytes of the whole Ethernet frame, FCS included (R338, R345) -/
  size : Nat := 64
  /-- fewer than 16 bytes of YSP arrived (first row of Table 15-10) -/
  runt : Bool := false
  /-- MAGIC -/
  magic : W16 := 0x5359
  /-- VERSION -/
  version : Byte := 1
  /-- CLIENT -/
  client : Byte := 0
  /-- FLAGS -/
  flags : Byte := 0
  /-- LENGTH -/
  length : W16 := 0
  /-- SEQ -/
  seq : W32 := 0
  /-- reserved bytes of the header -/
  rsvd : W32 := 0
  /-- payload bytes received (raw padding already apart: at most LENGTH bytes beyond are ignored) -/
  payload : List Byte := []
deriving DecidableEq, Repr, Inhabited

/-- The PTP event message in a transit frame (R324, R325). -/
structure PtpTransit where
  /-- its header can be parsed -/
  parsed : Bool := true
  /-- 0 Sync, 1 Delay_Req, 2 Pdelay_Req, 3 Pdelay_Resp -/
  kind : Fin 4 := 0
  /-- domain -/
  domain : Byte := 0
  /-- correctionField, 2^-16 ns -/
  corr : Int := 0
deriving DecidableEq, Repr, Inhabited

/-- An Ethernet frame in transit (R338, R345, R346). -/
structure EthIn where
  /-- ingress port -/
  port : Fin 16 := 0
  /-- destination MAC -/
  dst : BitVec 48 := 0
  /-- source MAC -/
  src : BitVec 48 := 0
  /-- VLAN tag VID; 0 for untagged or priority-tagged -/
  vid : BitVec 12 := 0
  /-- PCP -/
  pcp : Fin 8 := 0
  /-- EtherType after tags -/
  etherType : W16 := 0
  /-- frame bytes, FCS included -/
  size : Nat := 64
  /-- FCS error -/
  fcsBad : Bool := false
  /-- FEC codewords that the port has corrected since its last frame -/
  fecCorr : Nat := 0
  /-- uncorrectable FEC codewords since its last frame -/
  fecUncorr : Nat := 0
  /-- R-TAG sequence number -/
  rtag : Option W16 := none
  /-- DEI -/
  dei : Bool := false
  /-- a PTP event message -/
  ptp : Option PtpTransit := none
  /-- addressed to the device (R339) and admitted by no other row: UDP or EtherType 0x88B5 -/
  toDevice : Bool := false
  /-- residence in the switch, ns · 2^16, before transmission (R324) -/
  residence : Nat := 0
deriving DecidableEq, Repr, Inhabited

/-- A PTP message received by the time-base unit. -/
structure PtpIn where
  /-- versionPTP major -/
  version : Byte := 2
  /-- messageLength is shorter than its type needs -/
  short : Bool := false
  /-- ingress port -/
  port : Fin 16 := 0
  /-- domain -/
  domain : Byte := 0
  /-- sourcePortIdentity: clock identity -/
  clock : W64 := 0
  /-- sourcePortIdentity: port number -/
  portNo : W16 := 0
  /-- sequenceId -/
  seqId : W16 := 0
  /-- majorSdoId 1: gPTP -/
  gptp : Bool := false
  /-- twoStepFlag -/
  twoStep : Bool := false
  /-- the message's timestamp, 2^-16 ns: originTimestamp, preciseOriginTimestamp, receiveTimestamp or requestReceiptTimestamp -/
  stamp : Nat := 0
  /-- correctionField, 2^-16 ns -/
  corr : Int := 0
  /-- LT at ingress, 2^-16 ns -/
  ingress : Nat := 0
  /-- logMessageInterval -/
  logInterval : Int := 0
  /-- requestingPortIdentity names this device's port -/
  forUs : Bool := true
deriving DecidableEq, Repr, Inhabited

/-- An Announce (R327, R329): the data set the best-master comparison reads. -/
structure AnnounceIn where
  /-- common part -/
  msg : PtpIn := {}
  /-- grandmasterIdentity -/
  gm : W64 := 0
  /-- grandmasterPriority1 -/
  prio1 : Byte := 128
  /-- clockClass -/
  cls : Byte := 248
  /-- clockAccuracy -/
  acc : Byte := 0xFE
  /-- offsetScaledLogVariance -/
  var : W16 := 0
  /-- grandmasterPriority2 -/
  prio2 : Byte := 128
  /-- stepsRemoved -/
  steps : W16 := 0
deriving DecidableEq, Repr, Inhabited

/-- A twin's barrier message (Table 16-2) with PROBLEM left to the row. -/
structure BarrierIn where
  /-- FORM -/
  form : Bool := false
  /-- STEEP -/
  steep : W64 := 0
  /-- PAIR_SEQ -/
  pairSeq : W64 := 0
  /-- CHAIN -/
  chain : W64 := 0
  /-- CONFIG_DIGEST -/
  config : W64 := 0
  /-- ROUNDS, MODEL 0 first -/
  rounds : List W32 := []
deriving DecidableEq, Repr, Inhabited

/-- Measurements the warden takes every 100 µs (R480). -/
structure CoolantIn where
  /-- flow, mL/min -/
  flow : Nat := 2000
  /-- coolant inlet temperature, °C -/
  inlet : Int := 25
  /-- hottest main-die junction, °C -/
  junction : Int := 40
  /-- edge-die junction, °C -/
  edge : Int := 40
deriving DecidableEq, Repr, Inhabited

/-- What the caddy builder delivers, which its plan decides (R72, R103, R378; log entry 5). -/
structure LoadIn where
  /-- bytes of the caddy -/
  caddy : W64 := 0
  /-- bytes the iterate region must reserve -/
  iter : W64 := 0
  /-- LC and W go to the iterate region -/
  lcInPool : Bool := false
  /-- HBM has room for the weights, and for the caddy where the caddy region has none -/
  hbmRoom : Bool := true
deriving DecidableEq, Repr, Inhabited

/-- Register windows of a mailbox frame (R411). -/
inductive Window where
  | mailbox | direct
deriving DecidableEq, Repr, Inhabited

/-- Field I/O kinds, in the order of ARG of FIO_CONDITION. -/
inductive FioKind where
  | ain | pin | aout | dout | vio
deriving DecidableEq, Repr, Inhabited

/-- Wake sources (R466). -/
inductive WakeSource where
  | wakeIn | timer | fieldIo
deriving DecidableEq, Repr, Inhabited

/-- What a lost memory line held (Table 17-5). -/
inductive LineHeld where
  /-- nothing that the spec names, or no line was lost -/
  | nothing
  /-- a caddy, its parameters, pending store or sample store, or a learned model's weights -/
  | caddy (p : Fin 1024)
  /-- an iterate store entry -/
  | iterate (p : Fin 1024)
  /-- an open group -/
  | group (p : Fin 1024) (lease : Fin 512)
  /-- a twin queue entry, by its place in the queue -/
  | twinGroup (p : Fin 1024) (place : Nat)
  /-- a training ring, masters or optimiser state -/
  | training (p : Fin 1024) (model : Fin 16)
  /-- a staging partial -/
  | staging (p : Fin 1024)
  /-- Rankoaz data -/
  | rankoaz
deriving DecidableEq, Repr, Inhabited

/-- What a memory fault hits, and what it removes and loses if it lasts (R382, Tables 17-4 and 17-5). -/
structure MemFaultIn where
  /-- in HBM: 0 a row with a spare, 1 a row of a bank with no spare left, 2 a lane with a spare, 3 a lane with none -/
  removed : Fin 4 := 0
  /-- the line of the access; `nothing` for a line that no work in progress reads and that holds nothing -/
  line : LineHeld := .nothing
deriving DecidableEq, Repr, Inhabited

/-- Instructions of a TAP (R507, R509); `relock` stands for the debug port's relock (R459), whose code the spec does not give. -/
inductive JtagIr where
  | bypass | sample | extest | idcode | highz | clamp | relock
deriving DecidableEq, Repr, Inhabited

/-- What a TAP is given: its instruction, then the bits shifted through the register that the instruction selects (R507 to R509). -/
structure JtagIn where
  /-- instruction -/
  ir : JtagIr := .bypass
  /-- bits at TDI, first bit first -/
  tdi : List Bool := []
deriving DecidableEq, Repr, Inhabited

/-- A refresh of one pseudo-channel (R376). -/
structure RefreshIn where
  /-- pseudo-channel -/
  pseudo : Fin 2 := 0
  /-- its stack is above 85 °C -/
  hot : Bool := false
deriving DecidableEq, Repr, Inhabited

/-- One command or event of the block. -/
inductive Instr where
  | deviceInfo (c : CmdIn)
  | nop (c : CmdIn)
  | memStatusRead (c : CmdIn)
  | leaseTableRead (c : CmdIn)
  | leaseRevoke (c : CmdIn)
  | clientReset (c : CmdIn)
  | imageLoad (c : CmdIn)
  | imageLoadComplete (r : LoadIn)
  | imageUnload (c : CmdIn)
  | infuse (c : CmdIn)
  | imageInfo (c : CmdIn)
  | warmSourceSet (c : CmdIn)
  | problemEnable (c : CmdIn)
  | problemRetire (c : CmdIn)
  | solveRequest (c : CmdIn)
  | steepStatsRead (c : CmdIn)
  | iterateRead (c : CmdIn)
  | jduQuery (c : CmdIn)
  | estimatorSet (c : CmdIn)
  | measurePut (c : CmdIn)
  | estimatorRead (c : CmdIn)
  | trapRead (c : CmdIn)
  | scalarFlagsRead (c : CmdIn)
  | orderModeSet (c : CmdIn)
  | checkpointSave (c : CmdIn)
  | checkpointWritten (p : Fin 1024)
  | checkpointResume (c : CmdIn)
  | orderStatusRead (c : CmdIn)
  | orderDigestSet (c : CmdIn)
  | placeConstrain (c : CmdIn)
  | placeRead (c : CmdIn)
  | pourRingSet (c : CmdIn)
  | trainSet (c : CmdIn)
  | trainStop (c : CmdIn)
  | trainRollback (c : CmdIn)
  | trainStatusRead (c : CmdIn)
  | tensorFlagsRead (c : CmdIn)
  | tbEnable (c : CmdIn)
  | tbDisable (c : CmdIn)
  | tbDisableComplete (tb : Fin 4)
  | tbStep (c : CmdIn)
  | tbPair (c : CmdIn)
  | portSet (c : CmdIn)
  | portEnable (c : CmdIn)
  | portDisable (c : CmdIn)
  | portShutdownComplete (port : Fin 16)
  | clientSet (c : CmdIn)
  | gateSet (c : CmdIn)
  | streamSet (c : CmdIn)
  | pourStreamSet (c : CmdIn)
  | plkEnable (c : CmdIn)
  | plkDisable (c : CmdIn)
  | plkShutdownComplete (link : Fin 8)
  | peerGroupSet (c : CmdIn)
  | twinSet (c : CmdIn)
  | twinStatusRead (c : CmdIn)
  | loopStart (c : CmdIn)
  | loopStop (c : CmdIn)
  | slotMapSet (c : CmdIn)
  | profileWrite (c : CmdIn)
  | profileLoad (c : CmdIn)
  | profileBootSet (c : CmdIn)
  | fioConfigWrite (c : CmdIn)
  | fioConfigRead (c : CmdIn)
  | fioClearLatch (c : CmdIn)
  | powerStateSet (c : CmdIn)
  | powerCapSet (c : CmdIn)
  | powerStatusRead (c : CmdIn)
  | kettleSet (c : CmdIn)
  | keySlotWrite (c : CmdIn)
  | imageSignRequire (c : CmdIn)
  | firmwareStage (c : CmdIn)
  | selfTest (c : CmdIn)
  | unitFence (c : CmdIn)
  | unitUnfence (c : CmdIn)
  | faultLogRead (c : CmdIn)
  | recoveryEnter (c : CmdIn)
  | recoveryExit (c : CmdIn)
  | testSessionBegin (c : CmdIn)
  | testSessionEnd (c : CmdIn)
  | commandDoorbell (value : W32)
  | descriptorFetch (path : Agent)
  | commandStart (acceptNo : W64)
  | ringEnable
  | ringDisable
  | ringShutdownComplete
  | functionLevelReset
  | perstAsserted
  | pourTailWrite (ring : Fin 32) (value : W32)
  | evtTailWrite (value : W32)
  | ltLatchRead
  | loLatchRead (accept : Bool)
  | registerReadClear (win : Window) (off : W32)
  | registerWrite (win : Window) (off value : W32) (enables : BitVec 4)
  | arbFreezeWrite (arb : Fin 202) (freeze : Bool)
  | mbxFrameRead (f : FrameIn)
  | mbxFrameWrite (f : FrameIn)
  | mbxFrameCommand (f : FrameIn)
  | bufWrite (f : FrameIn)
  | bufRead (f : FrameIn)
  | yspInfuse (f : FrameIn)
  | yspSolve (f : FrameIn)
  | yspMeasure (f : FrameIn)
  | leaseAcquire (f : FrameIn)
  | leaseRenew (f : FrameIn)
  | leaseRelease (f : FrameIn)
  | yspUnknownType (type : Byte) (f : FrameIn)
  | leaseExpiry (lease : Fin 512)
  | leaseWaiterGrant (lease : Fin 512)
  | leaseCycleSnapshot
  | transitFrame (e : EthIn)
  | ptpSyncReceived (m : PtpIn)
  | ptpAnnounceReceived (a : AnnounceIn)
  | ptpDelayRespReceived (m : PtpIn)
  | ptpPdelayReqReceived (m : PtpIn)
  | ptpSyncTx (tb : Fin 4) (port : Fin 16)
  | masterLost (tb : Fin 4)
  | fdbAgeing (mac : BitVec 48) (vid : BitVec 12)
  | gateCycleStart (port : Fin 16)
  | gateIntervalEnd (port : Fin 16)
  | portUp (port : Fin 16)
  | portLinkLost (port : Fin 16)
  | preemptVerifyDone (port : Fin 16) (ok : Bool)
  | plkLinkUp (link : Fin 8) (lanes : BitVec 4) (group rank : Byte)
  | plkLinkLost (link : Fin 8)
  | flitCrcError (link : Fin 8) (replayFails : Bool) (lane : Fin 4)
  | barrierMessageReceived (p : Fin 1024) (b : BarrierIn)
  | barrierTimeout (p : Fin 1024)
  | digestMessageReceived (p : Fin 1024) (mismatch : Bool) (steep : W64) (status : W32) (digest : W64)
  | digestTimeout (p : Fin 1024)
  | prewarmStart (p : Fin 1024)
  | periodicRelease (p : Fin 1024)
  | heldRequestRelease (p : Fin 1024)
  | commitComplete (p : Fin 1024)
  | jduStageComplete (p : Fin 1024) (pipe : Fin 8)
  | modelEvaluationComplete (p : Fin 1024) (model : Fin 16) (quadrant : Fin 4)
  | tileReclaim (tile : Fin 128)
  | weightStagingComplete (quadrant : Fin 4)
  | iterationComplete (p : Fin 1024) (corrected : Nat × Nat × Nat)
  | factorisationBreakdown (p : Fin 1024)
  | iterationTrap (p : Fin 1024) (corrected : Nat × Nat × Nat)
  | deadlineReached (p : Fin 1024)
  | budgetEnd (p : Fin 1024)
  | priorUpdateComplete (p : Fin 1024) (shared : Nat × Nat) (units : Nat)
  | retirementComplete (p : Fin 1024)
  | overloadLower (set : Fin 64)
  | shedIntervalEnd
  | slotWrite (p : Fin 1024)
  | roundStart (p : Fin 1024) (model : Fin 16)
  | trainStep (p : Fin 1024) (model : Fin 16)
  | roundValidate (p : Fin 1024) (model : Fin 16)
  | sampleBoundary (loop : Fin 32)
  | loopOutputApply (loop : Fin 32)
  | leRunWrite (loop : Fin 32) (run : Bool)
  | leHoldWrite (loop : Fin 32) (hold : Bool)
  | clearSafe (loop : Fin 32)
  | leCfgWrite (loop : Fin 32) (reg : Fin 4) (value : W32)
  | leSelWrite (sel : Fin 8) (cfg : Bool) (value : W32)
  | slotStale (p : Fin 1024)
  | bootProfileStart
  | fioConfigApply
  | ainConversion (ch : Fin 8) (raw : BitVec 16)
  | ainOpenWireTest (ch : Fin 8) (fails : Bool)
  | aoutLoadTest (ch : Fin 8) (fails : Bool)
  | pulseEdge (ch : Fin 8) (a b : Bool)
  | fioCondition (kind : FioKind) (ch : Fin 8) (cond : Fin 4) (present : Bool)
  | doutShortRetry (ch : Fin 8)
  | pwmPeriodStart (ch : Fin 8)
  | fioSetWrite (aout : Bool) (ch : Fin 8) (value : W32)
  | powerGood (refSel ref25 : Bool)
  | powerFail (cause : Fin 3)
  | holdUpExhausted
  | wardenVerified (ok : Bool)
  | mainDiePowerOn
  | switchCoreStart
  | bootSelfTestComplete (failed : List (Nat × Nat)) (mainPart : Bool)
  | hbmTrained
  | rankoazReady
  | readyTimeout
  | fullService
  | domainWakeComplete (pd : Fin 64)
  | kettleHoldExpiry (pd : Fin 64)
  | domainOffComplete (pd : Fin 64)
  | governorStep (meanMw : Nat) (inputMv : Nat)
  | thermalLimitStep (junction : Int)
  | sleepEntryComplete
  | wakeEvent (source : WakeSource)
  | wakeComplete
  | coolantSample (m : CoolantIn)
  | limpEntryComplete
  | faultDetected (kind index : Nat) (detector : Fin 7) (retryOk : Bool) (m : MemFaultIn)
  | unresolvedTestDone (kind index : Nat) (pass : Bool)
  | watchdogExpiry (core : Fin 16) (retryOk : Bool)
  | mainDieLoss (part : Option (Nat × Nat)) (detector : Fin 7)
  | hbmRefresh (stack : Fin 4) (channel : Fin 16) (r : RefreshIn)
  | patrolScrub (pool : Bool) (corrected : Bool)
  | arbiterGrant (arb : Fin 202) (arrived : List (Fin 8 × Fin 4)) (withdrawn : Bool)
  | emergencyRequest (arb : Fin 202)
  | debugResponse (valid : Bool)
  | debugLockoutExpiry
  | jtagInstruction (edge : Bool) (x : JtagIn)
  | ref25Lost
  | jduQueryComplete
  | selfTestComplete (failed : List (Nat × Nat))
  | firmwareStageComplete
  | trainStopComplete (p : Fin 1024) (model : Fin 16)
  | nonvolatileWriteComplete
  | perstReleased
  | pcieConfigRequest
  | msixTableWrite (off value : W32)
  | ainReconnectTest (ch : Fin 8) (currentOk : Bool)
  | preemptionHold (port : Fin 16)
  | sequenceRecoveryReset (entry : Fin 256)
  | ptpFollowUpReceived (m : PtpIn)
  | ptpPdelayRespReceived (m : PtpIn)
  | ptpDelayReqReceived (m : PtpIn)
  | ptpDelayReqTx (tb : Fin 4) (port : Fin 16)
  | ptpPdelayReqTx (port : Fin 16)
  | ptpAnnounceTx (tb : Fin 4) (port : Fin 16)
  | ptpSignalingReceived (m : PtpIn) (logSync logAnnounce logPdelay : Int)
deriving DecidableEq, Repr

end Sys2Proof
end

