-- ==== Sys2Proof/Machine/Bytes.lean ====
section
/-! DEFINITION. Little-endian fields in byte lists (R4): the helpers every record layout of the spec uses. -/
namespace Sys2Proof.Machine

/-- Byte `i` of a list, 0 beyond its end. -/
def byteAt (bs : List Byte) (i : Nat) : Byte := bs.getD i 0#8

/-- The little-endian number of a byte list. -/
def leNat : List Byte → Nat
  | [] => 0
  | b :: bs => b.toNat + 256 * leNat bs

/-- The little-endian field of `n` bytes at offset `off` (R4). -/
def fieldN (bs : List Byte) (off n : Nat) : Nat := leNat ((bs.drop off).take n)

/-- One byte as a number. -/
def u8 (bs : List Byte) (off : Nat) : Nat := fieldN bs off 1
/-- Two bytes as a number. -/
def u16 (bs : List Byte) (off : Nat) : Nat := fieldN bs off 2
/-- Four bytes as a number. -/
def u32 (bs : List Byte) (off : Nat) : Nat := fieldN bs off 4
/-- Eight bytes as a number. -/
def u64 (bs : List Byte) (off : Nat) : Nat := fieldN bs off 8
/-- Eight bytes as a word. -/
def w64At (bs : List Byte) (off : Nat) : W64 := BitVec.ofNat 64 (u64 bs off)
/-- A signed 32-bit field. -/
def s32 (bs : List Byte) (off : Nat) : Int := (BitVec.ofNat 32 (u32 bs off)).toInt
/-- A signed 16-bit field. -/
def s16 (bs : List Byte) (off : Nat) : Int := (BitVec.ofNat 16 (u16 bs off)).toInt
/-- A signed 64-bit field. -/
def s64 (bs : List Byte) (off : Nat) : Int := (BitVec.ofNat 64 (u64 bs off)).toInt

/-- `n` as `k` little-endian bytes (R4). -/
def leBytes : Nat → Nat → List Byte
  | 0, _ => []
  | k + 1, n => BitVec.ofNat 8 n :: leBytes k (n / 256)

/-- A word as little-endian bytes. -/
def wBytes {w : Nat} (k : Nat) (x : BitVec w) : List Byte := leBytes k x.toNat

/-- `n` zero bytes: a reserved field. -/
def zeros (n : Nat) : List Byte := List.replicate n 0#8

/-- The whole list is zero: the test a reserved field must pass (R9). -/
def allZero (bs : List Byte) : Bool := bs.all (· == 0#8)

/-- `n` bytes at `off` are all zero. -/
def zeroAt (bs : List Byte) (off n : Nat) : Bool := allZero ((bs.drop off).take n)

/-- Bytes cut or padded with zeros to exactly `n`. -/
def padTo (n : Nat) (bs : List Byte) : List Byte := (bs ++ zeros (n - bs.length)).take n

/-- The 16-byte-style chunks of a list: `count` records of `size` bytes. -/
def chunks (size : Nat) : Nat → List Byte → List (List Byte)
  | 0, _ => []
  | n + 1, bs => bs.take size :: chunks size n (bs.drop size)

/-- Bits `[hi:lo]` of a number. -/
def bitsN (n hi lo : Nat) : Nat := (n / 2 ^ lo) % 2 ^ (hi + 1 - lo)

/-- Bit `i` of a number. -/
def bitN (n i : Nat) : Bool := n.testBit i

/-- A flag as 0 or 1. -/
def b2n (b : Bool) : Nat := if b then 1 else 0

/-- The set bits of a mask below `n`, ascending. -/
def bitsOf (mask n : Nat) : List Nat := (List.range n).filter (fun i => mask.testBit i)

/-- The number of set bits below `n`. -/
def popCount (mask n : Nat) : Nat := (bitsOf mask n).length

end Sys2Proof.Machine
end

