-- ==== Sys2Proof/Machine/Fp.lean ====
section
/-! DEFINITION. IEEE 754-2019 binary64 and binary32 as chapter 09 decides (R208 to R214, R222): every operation forms
its exact result and rounds it once. Values are encodings; flags are the TRAP_MASK bits plus INT_DIVZERO and INT_OVERFLOW. -/
namespace Sys2Proof.Machine

/-- Rounding modes (ROUND of Table 3-2). -/
inductive Rnd where
  | rne | rtz | rup | rdn
deriving DecidableEq, Repr, Inhabited

/-- The mode a ROUND field names. -/
def rndOf : Nat → Rnd
  | 1 => .rtz
  | 2 => .rup
  | 3 => .rdn
  | _ => .rne

/-- A binary format: precision, exponent width (Table 9-1). -/
structure Fmt where
  /-- significand precision, the hidden bit included -/
  p : Nat
  /-- exponent field width -/
  ew : Nat
deriving DecidableEq, Repr, Inhabited

/-- binary64 (Table 9-1). -/
def f64 : Fmt := ⟨53, 11⟩
/-- binary32 (Table 9-1). -/
def f32 : Fmt := ⟨24, 8⟩

namespace Fmt
/-- Exponent bias. -/
def bias (f : Fmt) : Nat := 2 ^ (f.ew - 1) - 1
/-- Exponent of the unit in the last place of a subnormal. -/
def qmin (f : Fmt) : Int := 2 - (f.bias : Int) - f.p
/-- Exponent of the unit in the last place of the largest binade. -/
def qmax (f : Fmt) : Int := (f.bias : Int) - f.p + 1
/-- Encoding of infinity without sign. -/
def infBits (f : Fmt) : Nat := (2 ^ f.ew - 1) * 2 ^ (f.p - 1)
/-- Canonical NaN (R209). -/
def nanBits (f : Fmt) : Nat := f.infBits + 2 ^ (f.p - 2)
/-- Largest finite value, without sign. -/
def maxBits (f : Fmt) : Nat := f.infBits - 1
/-- The sign bit's weight. -/
def signBit (f : Fmt) : Nat := 2 ^ (f.p + f.ew - 1)
end Fmt

/-- A decoded operand: a finite value is `(-1)^neg · m · 2^e`. -/
inductive Num where
  | nan (signalling : Bool)
  | inf (neg : Bool)
  | fin (neg : Bool) (m : Nat) (e : Int)
deriving DecidableEq, Repr, Inhabited

/-- Decode an encoding (R208). -/
def decodeF (f : Fmt) (x : Nat) : Num :=
  let neg := x.testBit (f.p + f.ew - 1)
  let ex := (x / 2 ^ (f.p - 1)) % 2 ^ f.ew
  let fr := x % 2 ^ (f.p - 1)
  if ex = 2 ^ f.ew - 1 then
    if fr = 0 then .inf neg else .nan (!fr.testBit (f.p - 2))
  else if ex = 0 then .fin neg fr f.qmin
  else .fin neg (fr + 2 ^ (f.p - 1)) (f.qmin + ex - 1)

/-- A rounded result: encoding, flags in TRAP_MASK order, and whether the result was tiny (R211: an enabled underflow
trap is taken for every tiny result). -/
structure FRes where
  /-- encoding -/
  v : Nat
  /-- flags: [0] invalid [1] divide-by-zero [2] overflow [3] underflow [4] inexact [5] INT_DIVZERO [6] INT_OVERFLOW -/
  fl : BitVec 7 := 0#7
  /-- tiny after rounding (R211) -/
  tiny : Bool := false
deriving DecidableEq, Repr, Inhabited

/-- The invalid flag. -/
def flInvalid : BitVec 7 := 1#7
/-- The divide-by-zero flag. -/
def flDivZero : BitVec 7 := 2#7
/-- The overflow flag. -/
def flOverflow : BitVec 7 := 4#7
/-- The underflow flag. -/
def flUnderflow : BitVec 7 := 8#7
/-- The inexact flag. -/
def flInexact : BitVec 7 := 16#7
/-- INT_DIVZERO (R227). -/
def flIntDivZero : BitVec 7 := 32#7
/-- INT_OVERFLOW (R227). -/
def flIntOverflow : BitVec 7 := 64#7

/-- Number of bits of `m`. -/
def bitLen (m : Nat) : Nat := if m = 0 then 0 else Nat.log2 m + 1

/-- `m · 2^k` for a possibly negative `k`, truncated; the flag says that something was cut. -/
def shiftI (m : Nat) (k : Int) : Nat × Bool :=
  match k with
  | .ofNat n => (m * 2 ^ n, false)
  | .negSucc n => (m / 2 ^ (n + 1), m % 2 ^ (n + 1) != 0)

/-- Round `m·2^e` (plus a positive amount below `2^e` when `sticky`) to an integer multiple of `2^q`.
Answers the multiple and whether it is inexact. -/
def roundTo (r : Rnd) (neg : Bool) (m : Nat) (e : Int) (sticky : Bool) (q : Int) : Nat × Bool :=
  let m2 := 4 * m + (if sticky then 1 else 0)
  let sh := shiftI m2 (e - q)
  let t := if sh.2 then sh.1 / 4 * 4 + (if sh.1 % 4 = 0 then 1 else if sh.1 % 4 = 2 then 3 else sh.1 % 4) else sh.1
  let n := t / 4
  let rem := t % 4
  let up := match r with
    | .rne => decide (2 < rem) || (rem == 2 && n % 2 == 1)
    | .rtz => false
    | .rup => !neg && rem != 0
    | .rdn => neg && rem != 0
  (if up then n + 1 else n, rem != 0)

/-- The overflowed result of R212. -/
def overflowBits (f : Fmt) (r : Rnd) (neg : Bool) : Nat :=
  let s := if neg then f.signBit else 0
  match r with
  | .rne => s + f.infBits
  | .rtz => s + f.maxBits
  | .rup => if neg then s + f.maxBits else f.infBits
  | .rdn => if neg then s + f.infBits else f.maxBits

/-- Round an exact finite magnitude once to the format (R210 to R212); zero keeps the given sign. -/
def roundF (f : Fmt) (r : Rnd) (neg : Bool) (m : Nat) (e : Int) (sticky : Bool := false) : FRes :=
  let s := if neg then f.signBit else 0
  if m = 0 && !sticky then ⟨s, 0, false⟩
  else
    let len := bitLen m
    let qfree : Int := (len : Int) + e - f.p
    let q := if qfree < f.qmin then f.qmin else qfree
    let d := roundTo r neg m e sticky q
    let n := if d.1 = 2 ^ f.p then 2 ^ (f.p - 1) else d.1
    let q' := if d.1 = 2 ^ f.p then q + 1 else q
    -- tininess after rounding with an unbounded exponent
    let u := roundTo r neg m e sticky qfree
    let tiny := if m = 0 then true else
      let top := if u.1 = 2 ^ f.p then qfree + 1 else qfree
      decide (top < f.qmin)
    if f.qmax < q' then
      ⟨overflowBits f r neg, flOverflow ||| flInexact, false⟩
    else
      let bits := n + (q' - f.qmin).toNat * 2 ^ (f.p - 1)
      ⟨s + bits, (if d.2 then flInexact else 0) ||| (if tiny && d.2 then flUnderflow else 0), tiny⟩

/-- The canonical NaN, invalid when an operand signals or the operation is invalid. -/
def nanRes (f : Fmt) (inv : Bool) : FRes := ⟨f.nanBits, if inv then flInvalid else 0, false⟩

/-- Encoding of an infinity. -/
def infOf (f : Fmt) (neg : Bool) : Nat := (if neg then f.signBit else 0) + f.infBits
/-- Encoding of a zero. -/
def zeroOf (f : Fmt) (neg : Bool) : Nat := if neg then f.signBit else 0

/-- An operand is a signalling NaN. -/
def Num.isSnan : Num → Bool
  | .nan s => s
  | _ => false
/-- An operand is a NaN. -/
def Num.isNan : Num → Bool
  | .nan _ => true
  | _ => false
/-- Not a NaN and not an infinity. -/
def Num.isFin : Num → Bool
  | .fin .. => true
  | _ => false
/-- The sign. -/
def Num.neg : Num → Bool
  | .nan _ => false
  | .inf s => s
  | .fin s _ _ => s

/-- Exact signed sum of two finite values, as sign, magnitude, exponent; `none` for an exact zero. -/
def sumExact (s1 : Bool) (m1 : Nat) (e1 : Int) (s2 : Bool) (m2 : Nat) (e2 : Int) : Int × Int :=
  let e := if e1 ≤ e2 then e1 else e2
  let a : Int := (m1 * 2 ^ (e1 - e).toNat : Nat)
  let b : Int := (m2 * 2 ^ (e2 - e).toNat : Nat)
  ((if s1 then -a else a) + (if s2 then -b else b), e)

/-- Round an exact signed value, with R212's sign of an exact zero: `s1`, `s2` are the signs of the terms. -/
def roundSum (f : Fmt) (r : Rnd) (s1 s2 : Bool) (x : Int) (e : Int) : FRes :=
  if x = 0 then ⟨zeroOf f (if s1 = s2 then s1 else r == .rdn), 0, false⟩
  else roundF f r (decide (x < 0)) x.natAbs e

/-- ADD (R210). -/
def fadd (f : Fmt) (r : Rnd) (a b : Nat) : FRes :=
  match decodeF f a, decodeF f b with
  | .nan s, y => nanRes f (s || y.isSnan)
  | x, .nan s => nanRes f (s || x.isSnan)
  | .inf s, .inf t => if s = t then ⟨infOf f s, 0, false⟩ else nanRes f true
  | .inf s, _ => ⟨infOf f s, 0, false⟩
  | _, .inf t => ⟨infOf f t, 0, false⟩
  | .fin s m e, .fin t n d =>
    let x := sumExact s m e t n d
    roundSum f r s t x.1 x.2

/-- Flip the sign bit of an encoding. -/
def flipSign (f : Fmt) (a : Nat) : Nat := if a.testBit (f.p + f.ew - 1) then a - f.signBit else a + f.signBit

/-- SUB (R210). -/
def fsub (f : Fmt) (r : Rnd) (a b : Nat) : FRes := fadd f r a (flipSign f b)

/-- MUL (R210). -/
def fmul (f : Fmt) (r : Rnd) (a b : Nat) : FRes :=
  match decodeF f a, decodeF f b with
  | .nan s, y => nanRes f (s || y.isSnan)
  | x, .nan s => nanRes f (s || x.isSnan)
  | .inf s, .inf t => ⟨infOf f (s != t), 0, false⟩
  | .inf s, .fin t n _ => if n = 0 then nanRes f true else ⟨infOf f (s != t), 0, false⟩
  | .fin s m _, .inf t => if m = 0 then nanRes f true else ⟨infOf f (s != t), 0, false⟩
  | .fin s m e, .fin t n d => roundF f r (s != t) (m * n) (e + d)

/-- FMA (R210): invalid for 0 × ∞ whatever C is. -/
def ffma (f : Fmt) (r : Rnd) (a b c : Nat) : FRes :=
  let x := decodeF f a
  let y := decodeF f b
  let z := decodeF f c
  let zeroInf := match x, y with
    | .inf _, .fin _ n _ => n == 0
    | .fin _ m _, .inf _ => m == 0
    | _, _ => false
  if x.isNan || y.isNan || z.isNan then nanRes f (x.isSnan || y.isSnan || z.isSnan || zeroInf)
  else if zeroInf then nanRes f true
  else match x, y, z with
    | .fin s m e, .fin t n d, .fin u k g =>
      let v := sumExact (s != t) (m * n) (e + d) u k g
      roundSum f r (s != t) u v.1 v.2
    | .fin .., .fin .., .inf u => ⟨infOf f u, 0, false⟩
    | x, y, .inf u => if (x.neg != y.neg) = u then ⟨infOf f u, 0, false⟩ else nanRes f true
    | x, y, _ => ⟨infOf f (x.neg != y.neg), 0, false⟩

/-- DIV (R210, R222). -/
def fdiv (f : Fmt) (r : Rnd) (a b : Nat) : FRes :=
  match decodeF f a, decodeF f b with
  | .nan s, y => nanRes f (s || y.isSnan)
  | x, .nan s => nanRes f (s || x.isSnan)
  | .inf _, .inf _ => nanRes f true
  | .inf s, .fin t _ _ => ⟨infOf f (s != t), 0, false⟩
  | .fin s _ _, .inf t => ⟨zeroOf f (s != t), 0, false⟩
  | .fin s m e, .fin t n d =>
    if n = 0 then
      if m = 0 then nanRes f true else ⟨infOf f (s != t), flDivZero, false⟩
    else if m = 0 then ⟨zeroOf f (s != t), 0, false⟩
    else
      let k := 2 * f.p + 4
      let q := m * 2 ^ k / n
      roundF f r (s != t) q (e - d - k) (m * 2 ^ k % n != 0)

/-- The integer square root, built bit by bit from bit `k` down. -/
def isqrtAux (n : Nat) : Nat → Nat → Nat
  | 0, acc => if (acc + 1) * (acc + 1) ≤ n then acc + 1 else acc
  | k + 1, acc =>
    let t := acc + 2 ^ (k + 1)
    isqrtAux n k (if t * t ≤ n then t else acc)

/-- `⌊√n⌋`. -/
def isqrt (n : Nat) : Nat := isqrtAux n (Nat.log2 n / 2 + 1) 0

/-- SQRT (R210, R222). -/
def fsqrt (f : Fmt) (r : Rnd) (a : Nat) : FRes :=
  match decodeF f a with
  | .nan s => nanRes f s
  | .inf s => if s then nanRes f true else ⟨infOf f false, 0, false⟩
  | .fin s m e =>
    if m = 0 then ⟨zeroOf f s, 0, false⟩
    else if s then nanRes f true
    else
      let k : Nat := 2 * f.p + 4 + (if (e % 2 = 0) then 0 else 1)
      let n := m * 2 ^ k
      let q := isqrt n
      roundF f r false q ((e - k) / 2) (q * q != n)

/-- Numeric comparison of two non-NaN encodings: negative, zero or positive difference. -/
def fcmp (f : Fmt) (a b : Nat) : Ordering :=
  match decodeF f a, decodeF f b with
  | .fin s m e, .fin t n d => let x := (sumExact s m e (!t) n d).1; compare x 0
  | .inf s, .inf t => if s = t then .eq else if s then .lt else .gt
  | .inf s, _ => if s then .lt else .gt
  | _, .inf t => if t then .gt else .lt
  | _, _ => .eq

/-- An encoding is a NaN. -/
def isNanF (f : Fmt) (a : Nat) : Bool := (decodeF f a).isNan
/-- An encoding is finite. -/
def isFinF (f : Fmt) (a : Nat) : Bool := (decodeF f a).isFin
/-- `a < b`, false on NaN. -/
def fltF (f : Fmt) (a b : Nat) : Bool := !isNanF f a && !isNanF f b && fcmp f a b == .lt
/-- `a ≤ b`, false on NaN. -/
def fleF (f : Fmt) (a b : Nat) : Bool := !isNanF f a && !isNanF f b && fcmp f a b != .gt

/-- Canonicalise a NaN, else pass (R209). -/
def canon (f : Fmt) (a : Nat) : Nat := if isNanF f a then f.nanBits else a

/-- COPY (R213). -/
def fcopy (f : Fmt) (a : Nat) : FRes := ⟨canon f a, 0, false⟩
/-- NEG (R213). -/
def fneg (f : Fmt) (a : Nat) : FRes := ⟨if isNanF f a then f.nanBits else flipSign f a, 0, false⟩
/-- ABS (R213). -/
def fabs (f : Fmt) (a : Nat) : FRes := ⟨if isNanF f a then f.nanBits else a % f.signBit, 0, false⟩
/-- MIN (R213): A on a tie; the canonical NaN if either is a NaN. -/
def fmin (f : Fmt) (a b : Nat) : FRes :=
  let x := decodeF f a
  let y := decodeF f b
  if x.isNan || y.isNan then nanRes f (x.isSnan || y.isSnan)
  else ⟨if fcmp f a b == .gt then b else a, 0, false⟩
/-- MAX (R213). -/
def fmax (f : Fmt) (a b : Nat) : FRes :=
  let x := decodeF f a
  let y := decodeF f b
  if x.isNan || y.isNan then nanRes f (x.isSnan || y.isSnan)
  else ⟨if fcmp f a b == .lt then b else a, 0, false⟩
/-- SELECT chooses B exactly when A > 0 (R213). -/
def selectsB (f : Fmt) (a : Nat) : Bool := fltF f 0 a
/-- SELECT (R213): invalid only for a signalling A. -/
def fselect (f : Fmt) (a b c : Nat) : FRes :=
  ⟨canon f (if selectsB f a then b else c), if (decodeF f a).isSnan then flInvalid else 0, false⟩

/-- Convert between formats with one rounding (R216). -/
def fconv (src dst : Fmt) (r : Rnd) (a : Nat) : FRes :=
  match decodeF src a with
  | .nan s => nanRes dst s
  | .inf s => ⟨infOf dst s, 0, false⟩
  | .fin s m e => if m = 0 then ⟨zeroOf dst s, 0, false⟩ else roundF dst r s m e

/-- An exact integer as a value of the format, rounded (R228: 0 is +0). -/
def ofIntF (f : Fmt) (r : Rnd) (x : Int) : FRes := if x = 0 then ⟨0, 0, false⟩ else roundF f r (decide (x < 0)) x.natAbs 0

/-- R224's conversion: truncation toward zero to a 64-bit integer, with its exceptions. -/
def toInt64 (a : Nat) : Option Int × BitVec 7 :=
  match decodeF f64 a with
  | .fin s m e =>
    let t := shiftI m e
    let x : Int := if s then -(t.1 : Int) else t.1
    if x < -(2 ^ 63) ∨ 2 ^ 63 - 1 < x then (none, flInvalid)
    else (some x, if t.2 then flInexact else 0)
  | _ => (none, flInvalid)

/-- The integer part of IDIV and IREM: quotient, remainder and integer flags (R225 to R227). -/
def intDivRem (heritage : Bool) (a b : Int) : Int × Int × BitVec 7 :=
  if b = 0 then (-1, a, flDivZero ||| flIntDivZero)
  else if a = -(2 ^ 63) ∧ b = -1 then (-(2 ^ 63), 0, flOverflow ||| flIntOverflow)
  else (Int.tdiv a b, if heritage then Int.tmod a b else Int.fmod a b, 0)

/-- IDIV and IREM on binary64 operands (R224 to R228). -/
def fidivrem (wantRem heritage : Bool) (r : Rnd) (a b : Nat) : FRes :=
  let x := toInt64 a
  let y := toInt64 b
  match x.1, y.1 with
  | some i, some j =>
    let q := intDivRem heritage i j
    let z := ofIntF f64 r (if wantRem then q.2.1 else q.1)
    ⟨z.v, x.2 ||| y.2 ||| q.2.2 ||| z.fl, false⟩
  | _, _ => ⟨f64.nanBits, x.2 ||| y.2, false⟩

/-- IDIV. -/
def fidiv (r : Rnd) (a b : Nat) : FRes := fidivrem false false r a b
/-- IREM in normal service or Heritage mode. -/
def firem (heritage : Bool) (r : Rnd) (a b : Nat) : FRes := fidivrem true heritage r a b

/-- `⌊u⌋` of a finite non-negative binary64 value, as a number. -/
def floorNat (a : Nat) : Nat :=
  match decodeF f64 a with
  | .fin false m e => (shiftI m e).1
  | _ => 0

end Sys2Proof.Machine
end

