-- ==== Sys2Proof/Machine/Crypto.lean ====
section
/-! DEFINITION. SHA-384 and ECDSA P-384 verification (R69, R452, R457, R459). Keys and signature values are big-endian 48-byte numbers (Table 3-12). -/
namespace Sys2Proof.Machine

/-- Big-endian number of a byte list. -/
def beNat (bs : List Byte) : Nat := bs.foldl (fun n b => n * 256 + b.toNat) 0
/-- `n` as `k` big-endian bytes. -/
def beBytes (k n : Nat) : List Byte := (leBytes k n).reverse

/-- `⌊n^(1/3)⌋` built from bit `k` down. -/
def icbrtAux (n : Nat) : Nat → Nat → Nat
  | 0, acc => if (acc + 1) * (acc + 1) * (acc + 1) ≤ n then acc + 1 else acc
  | k + 1, acc =>
    let t := acc + 2 ^ (k + 1)
    icbrtAux n k (if t * t * t ≤ n then t else acc)

/-- The first 80 primes. -/
def shaPrimes : List Nat :=
  [2, 3, 5, 7, 11, 13, 17, 19, 23, 29, 31, 37, 41, 43, 47, 53, 59, 61, 67, 71, 73, 79, 83, 89, 97, 101, 103, 107, 109, 113]
  ++ [127, 131, 137, 139, 149, 151, 157, 163, 167, 173, 179, 181, 191, 193, 197, 199, 211, 223, 227, 229, 233, 239, 241]
  ++ [251, 257, 263, 269, 271, 277, 281, 283, 293, 307, 311, 313, 317, 331, 337, 347, 349, 353, 359, 367, 373, 379, 383]
  ++ [389, 397, 401, 409]

/-- Round constants: the fraction bits of the cube roots of the primes. -/
def shaK : List W64 := shaPrimes.map (fun p => BitVec.ofNat 64 (icbrtAux (p * 2 ^ 192) 68 0))
/-- SHA-384 initial state: the fraction bits of the square roots of the ninth to sixteenth primes. -/
def sha384Init : List W64 := ((shaPrimes.drop 8).take 8).map (fun p => BitVec.ofNat 64 (isqrt (p * 2 ^ 128)))

/-- Rotate right. -/
def ror (x : W64) (n : Nat) : W64 := (x >>> n) ||| (x <<< (64 - n))

/-- The message schedule, `n` more words from a window of the last 16 (newest first in `rev`). -/
def shaSched : Nat → List W64 → List W64
  | 0, rev => rev
  | n + 1, rev =>
    let g (i : Nat) : W64 := rev.getD (i - 1) 0
    let s0 := ror (g 15) 1 ^^^ ror (g 15) 8 ^^^ (g 15 >>> 7)
    let s1 := ror (g 2) 19 ^^^ ror (g 2) 61 ^^^ (g 2 >>> 6)
    shaSched n ((s1 + g 7 + s0 + g 16) :: rev)

/-- One SHA-512 round. -/
def shaRound (st : List W64) (kw : W64) : List W64 :=
  match st with
  | [a, b, c, d, e, f, g, h] =>
    let t1 := h + (ror e 14 ^^^ ror e 18 ^^^ ror e 41) + ((e &&& f) ^^^ (~~~e &&& g)) + kw
    let t2 := (ror a 28 ^^^ ror a 34 ^^^ ror a 39) + ((a &&& b) ^^^ (a &&& c) ^^^ (b &&& c))
    [t1 + t2, a, b, c, d + t1, e, f, g]
  | l => l

/-- Compress one 128-byte block. -/
def shaBlock (st : List W64) (blk : List Byte) : List W64 :=
  let w := ((chunks 8 16 blk).map (fun c => BitVec.ofNat 64 (beNat c))).reverse
  let ws := (shaSched 64 w).reverse
  let out := (ws.zip shaK).foldl (fun s (x, k) => shaRound s (x + k)) st
  (st.zip out).map (fun (a, b) => a + b)

/-- SHA-384 digest as a number. -/
def sha384 (msg : List Byte) : Nat :=
  let len := msg.length
  let pad := (239 - len % 128) % 128
  let m := msg ++ [0x80#8] ++ zeros pad ++ beBytes 16 (8 * len)
  let st := (chunks 128 (m.length / 128) m).foldl shaBlock sha384Init
  (st.take 6).foldl (fun n w => n * 2 ^ 64 + w.toNat) 0

/-- The field prime of P-384. -/
def p384P : Nat := 2 ^ 384 - 2 ^ 128 - 2 ^ 96 + 2 ^ 32 - 1
/-- The group order of P-384. -/
def p384N : Nat := 0xFFFFFFFFFFFFFFFFFFFFFFFFFFFFFFFFFFFFFFFFFFFFFFFFC7634D81F4372DDF581A0DB248B0A77AECEC196ACCC52973
/-- The curve's b. -/
def p384B : Nat := 0xB3312FA7E23EE7E4988E056BE3F82D19181D9C6EFE8141120314088F5013875AC656398D8A2ED19D2A85C8EDD3EC2AEF
/-- Generator x. -/
def p384Gx : Nat := 0xAA87CA22BE8B05378EB1C71EF320AD746E1D3B628BA79B9859F741E082542A385502F25DBF55296C3A545E3872760AB7
/-- Generator y. -/
def p384Gy : Nat := 0x3617DE4A96262C6F5D9E98BF9292DC29F8F41DBD289A147CE9DA3113B5F0B8C00A60B1CE1D7E819D7A431D7C90EA0E5F

/-- `b^e mod m` over `k` bits of the exponent. -/
def powMod (m : Nat) : Nat → Nat → Nat → Nat → Nat
  | 0, _, _, acc => acc
  | k + 1, b, e, acc => powMod m k (b * b % m) (e / 2) (if e % 2 = 1 then acc * b % m else acc)
/-- Inverse modulo a prime, by Fermat. -/
def invMod (m a : Nat) : Nat := powMod m 400 (a % m) (m - 2) 1
/-- `a - b` modulo `m`. -/
def subMod (m a b : Nat) : Nat := (a + m - b % m) % m

/-- An affine point of P-384, `none` at infinity. -/
abbrev EcPoint := Option (Nat × Nat)

/-- Point addition. -/
def ecAdd : EcPoint → EcPoint → EcPoint
  | none, q => q
  | p, none => p
  | some (x1, y1), some (x2, y2) =>
    if x1 = x2 ∧ (y1 + y2) % p384P = 0 then none
    else
      let l := if x1 = x2 then 3 * (x1 * x1 + p384P - 1) % p384P * invMod p384P (2 * y1) % p384P
        else subMod p384P y2 y1 * invMod p384P (subMod p384P x2 x1) % p384P
      let x3 := subMod p384P (l * l % p384P) (x1 + x2)
      some (x3, subMod p384P (l * subMod p384P x1 x3 % p384P) y1)

/-- Scalar multiple over `k` bits. -/
def ecMul : Nat → Nat → EcPoint → EcPoint → EcPoint
  | 0, _, _, acc => acc
  | k + 1, e, p, acc => ecMul k (e / 2) (ecAdd p p) (if e % 2 = 1 then ecAdd acc p else acc)

/-- The point lies on the curve. -/
def ecOn (x y : Nat) : Bool :=
  decide (x < p384P ∧ y < p384P) && y * y % p384P == subMod p384P (x * x % p384P * x + p384B) (3 * x)

/-- ECDSA P-384 verification of a digest with the 96-byte key (x, y) (R69, R455). -/
def ecdsaVerify (key : List Byte) (digest r s : Nat) : Bool :=
  let x := beNat (key.take 48)
  let y := beNat ((key.drop 48).take 48)
  if key.length = 96 ∧ ecOn x y ∧ 0 < r ∧ r < p384N ∧ 0 < s ∧ s < p384N then
    let w := invMod p384N s
    let g := ecMul 384 (digest * w % p384N) (some (p384Gx, p384Gy)) none
    let q := ecMul 384 (r * w % p384N) (some (x, y)) none
    match ecAdd g q with
    | none => false
    | some (a, _) => a % p384N == r
  else false

end Sys2Proof.Machine
end

