-- ==== Sys2Proof/Machine/Status.lean ====
section
/-! DEFINITION. The completion statuses of Table 18-9 and of the tables it names. -/
namespace Sys2Proof.Machine

/-- A completion status. -/
abbrev Status := W16

/-- OK. -/
def stOk : Status := 0x0000
/-- R422. -/
def stBadOpcode : Status := 0x0001
/-- R422. -/
def stDescReserved : Status := 0x0002
/-- R422. -/
def stBadAddress : Status := 0x0003
/-- R416. -/
def stRingPhase : Status := 0x0004
/-- R410. -/
def stNotReady : Status := 0x0005
/-- R422. -/
def stBadLength : Status := 0x0006
/-- R425. -/
def stRingRange : Status := 0x0007
/-- R422. -/
def stProblemMismatch : Status := 0x0008
/-- Table 3-15. -/
def stImageFormat : Status := 0x0021
/-- Table 3-15. -/
def stImageReserved : Status := 0x0022
/-- Table 3-15. -/
def stImageRange : Status := 0x0023
/-- Table 3-15. -/
def stImageRef : Status := 0x0024
/-- Table 3-15. -/
def stPatternMismatch : Status := 0x0025
/-- Table 3-15. -/
def stTreeInvalid : Status := 0x0026
/-- Table 3-15. -/
def stImageSig : Status := 0x0027
/-- Table 3-15. -/
def stImageAuth : Status := 0x0028
/-- Table 3-15. -/
def stCaddySpace : Status := 0x0029
/-- Table 3-15. -/
def stNotEmpty : Status := 0x002A
/-- Table 3-15. -/
def stProblemBusy : Status := 0x002B
/-- Table 3-15. -/
def stInfuseIndex : Status := 0x002C
/-- Table 3-15. -/
def stInfuseSize : Status := 0x002D
/-- Table 3-15. -/
def stInfuseFull : Status := 0x002E
/-- Table 3-15. -/
def stInfuseMalformed : Status := 0x002F
/-- Table 3-15. -/
def stSourceRange : Status := 0x0030
/-- Table 2-16. -/
def stAdmitRefused : Status := 0x0031
/-- Table 2-16. -/
def stSchedRange : Status := 0x0032
/-- Table 2-16. -/
def stNotLoaded : Status := 0x0033
/-- Table 2-16. -/
def stAlreadyEnabled : Status := 0x0034
/-- Table 2-16. -/
def stNotEnabled : Status := 0x0035
/-- Table 2-16. -/
def stNotRequested : Status := 0x0036
/-- R121. -/
def stNoIterate : Status := 0x0037
/-- R138. -/
def stJduBusy : Status := 0x0038
/-- R140. -/
def stJduArg : Status := 0x0039
/-- R144. -/
def stEstRange : Status := 0x003A
/-- R144. -/
def stNotEstimator : Status := 0x003B
/-- R220. -/
def stNoTrap : Status := 0x003C
/-- Table 10-4. -/
def stTrainRange : Status := 0x0040
/-- Table 10-4. -/
def stTrainTooLate : Status := 0x0041
/-- Table 10-4. -/
def stTrainNoJob : Status := 0x0042
/-- Table 10-4. -/
def stTrainFull : Status := 0x0043
/-- Table 10-4. -/
def stTrainSpace : Status := 0x0044
/-- Table 11-6. -/
def stOrderNotBuilt : Status := 0x0045
/-- Table 11-6. -/
def stOrderTooLate : Status := 0x0046
/-- Table 11-6. -/
def stCkptSpace : Status := 0x0047
/-- Table 11-6. -/
def stCkptBusy : Status := 0x0048
/-- Table 11-6. -/
def stCkptAbandoned : Status := 0x0049
/-- Table 11-6. -/
def stCkptMismatch : Status := 0x004A
/-- Table 11-6. -/
def stCkptFormat : Status := 0x004B
/-- Table 12-10. -/
def stLoopRunning : Status := 0x0050
/-- Table 12-10. -/
def stLoopConfig : Status := 0x0051
/-- Table 12-10. -/
def stSlotRange : Status := 0x0052
/-- Table 12-10. -/
def stSlotConflict : Status := 0x0053
/-- Table 12-10. -/
def stProfileBad : Status := 0x0054
/-- Table 12-10. -/
def stProfileEmpty : Status := 0x0055
/-- Table 13-7. -/
def stFioBad : Status := 0x0056
/-- Table 13-7. -/
def stFioInUse : Status := 0x0057
/-- Table 14-7. -/
def stTbRange : Status := 0x0060
/-- Table 14-7. -/
def stTbState : Status := 0x0061
/-- Table 14-7. -/
def stPairInvalid : Status := 0x0062
/-- Table 15-13. -/
def stYspType : Status := 0x0070
/-- Table 15-13. -/
def stYspLength : Status := 0x0071
/-- Table 15-13. -/
def stYspReserved : Status := 0x0072
/-- Table 15-13. -/
def stLeaseInvalid : Status := 0x0073
/-- Table 15-13. -/
def stPortRange : Status := 0x0074
/-- Table 15-13. -/
def stPortLanes : Status := 0x0075
/-- Table 15-13. -/
def stTsnRange : Status := 0x0076
/-- Table 15-13. -/
def stTsnFull : Status := 0x0077
/-- Table 15-13. -/
def stClientRange : Status := 0x0078
/-- Table 16-6. -/
def stPlkRange : Status := 0x0080
/-- Table 16-6. -/
def stGroupInvalid : Status := 0x0081
/-- Table 16-6. -/
def stTwinConfig : Status := 0x0082
/-- Table 16-6. -/
def stTwinTooLate : Status := 0x0083
/-- R387. -/
def stPlaceRange : Status := 0x0090
/-- Table 18-12. -/
def stLeaseWaiting : Status := 0x00A0
/-- Table 18-12. -/
def stLeaseFull : Status := 0x00A1
/-- Table 18-12. -/
def stLeaseRange : Status := 0x00A2
/-- Table 18-12. -/
def stLeaseCycle : Status := 0x00A3
/-- Table 18-12. -/
def stLeaseBusy : Status := 0x00A4
/-- Table 18-12. -/
def stLeaseRevoked : Status := 0x00A5
/-- Table 18-12. -/
def stLeaseExpired : Status := 0x00A6
/-- Table 19-12. -/
def stPwrRange : Status := 0x00B0
/-- Table 19-12. -/
def stPwrBusy : Status := 0x00B1
/-- Table 19-12. -/
def stKeyLocked : Status := 0x00B2
/-- Table 19-12. -/
def stFwAuth : Status := 0x00B3
/-- Table 19-12. -/
def stFwRollback : Status := 0x00B4
/-- Table 19-12. -/
def stFwBusy : Status := 0x00B5
/-- Table 20-9 of the fault chapter. -/
def stFltRange : Status := 0x00C0
/-- Table 20-9 of the fault chapter. -/
def stFltBusy : Status := 0x00C1
/-- Table 20-9 of the fault chapter. -/
def stFltMode : Status := 0x00C2
/-- Table 20-9 of the fault chapter. -/
def stFltTestFailed : Status := 0x00C3
/-- Table 20-9 of the fault chapter. -/
def stFltNotFenced : Status := 0x00C4
/-- Table 20-9 of the fault chapter. -/
def stFltRecovery : Status := 0x00C5
/-- Table 20-9 of the fault chapter. -/
def stFltLimp : Status := 0x00C6

end Sys2Proof.Machine
end

