-- ==== Sys2Proof/Machine/Image.lean ====
section
/-! DEFINITION. Problem images (chapter 03): the records of Tables 3-2 to 3-12, their parsing, and the questions the
rest of the model asks of an image (variables, sides, equalities, result bytes, kinematic trees, stage queries). -/
namespace Sys2Proof.Machine

/-- The all-ones 32-bit reference: none (Table 3-4). -/
def noneRef : Nat := 0xFFFFFFFF

/-- Stage record (Table 3-5). -/
structure StageRec where
  /-- STAGE -/
  stage : Nat
  /-- TERMINAL -/
  terminal : Bool
  /-- NODE_FIRST -/
  nodeFirst : Nat
  /-- NODE_COUNT -/
  nodeCount : Nat
  /-- TREE_ROOT -/
  treeRoot : Nat
deriving DecidableEq, Repr, Inhabited

/-- Block record (Table 3-6). KIND: 0 STATE, 1 INPUT, 2 ALGEBRAIC, 3 ESTIMATED_PARAM. -/
structure BlockRec where
  /-- STAGE -/
  stage : Nat
  /-- KIND -/
  kind : Nat
  /-- POUR -/
  pour : Bool
  /-- SIZE -/
  size : Nat
  /-- VAR_FIRST -/
  varFirst : Nat
  /-- LO_PARAM -/
  lo : Nat
  /-- HI_PARAM -/
  hi : Nat
  /-- INIT_POOL -/
  init : Nat
deriving DecidableEq, Repr, Inhabited

/-- Sparsity record (Table 3-6). -/
structure SparseRec where
  /-- ROW_BLOCK -/
  row : Nat
  /-- COL_BLOCK -/
  col : Nat
  /-- PATTERN: 0 DENSE, 1 DIAG, 2 BAND, 3 LIST -/
  pattern : Nat
  /-- BAND -/
  band : Nat
  /-- LIST_POOL -/
  list : Nat
deriving DecidableEq, Repr, Inhabited

/-- Node record (Table 3-7). ROLE: 0 INTERNAL, 1 NEXT_STATE, 2 CONSTRAINT, 3 COST, 4 MEASUREMENT. -/
structure NodeRec where
  /-- OPCODE -/
  op : Nat
  /-- ROLE -/
  role : Nat
  /-- operand A -/
  a : Nat
  /-- operand B -/
  b : Nat
  /-- operand C -/
  c : Nat
  /-- IMM -/
  imm : Nat
  /-- ROLE_INDEX -/
  roleIndex : Nat
  /-- BOUND -/
  bound : Nat
deriving DecidableEq, Repr, Inhabited

/-- Body record (Table 3-9). -/
structure BodyRec where
  /-- BODY -/
  body : Nat
  /-- PARENT_JOINT -/
  parentJoint : Nat
  /-- MASS_PARAM -/
  mass : Nat
  /-- COM_PARAM -/
  com : Nat
  /-- INERTIA_PARAM -/
  inertia : Nat
deriving DecidableEq, Repr, Inhabited

/-- Joint record (Table 3-9). JTYPE: 0 REVOLUTE, 1 PRISMATIC, 2 FIXED, 3 SPHERICAL, 4 FREE. -/
structure JointRec where
  /-- JOINT -/
  joint : Nat
  /-- JTYPE -/
  jtype : Nat
  /-- PARENT_BODY -/
  parent : Nat
  /-- CHILD_BODY -/
  child : Nat
  /-- Q_VAR -/
  q : Nat
  /-- QD_VAR -/
  qd : Nat
  /-- TAU_VAR -/
  tau : Nat
  /-- AXIS_PARAM -/
  axis : Nat
  /-- ORIGIN_PARAM -/
  origin : Nat
deriving DecidableEq, Repr, Inhabited

/-- Learned-model record (Table 3-10). -/
structure ModelRec where
  /-- MODEL -/
  model : Nat
  /-- FORMAT -/
  fmt : Nat
  /-- PASSES -/
  passes : Nat
  /-- CONTEXT -/
  ctx : Nat
  /-- N_IN -/
  nIn : Nat
  /-- N_OUT -/
  nOut : Nat
  /-- N_LAYERS -/
  nLayers : Nat
  /-- TANGENTS -/
  tangents : Nat
  /-- IN_NODE_FIRST -/
  inFirst : Nat
  /-- LAYER_OFFSET -/
  layerOff : Nat
  /-- WEIGHT_OFFSET -/
  weightOff : Nat
  /-- WEIGHT_BYTES -/
  weightBytes : Nat
  /-- MODEL_KEY -/
  key : Nat
deriving DecidableEq, Repr, Inhabited

/-- Layer descriptor (Table 7-4). -/
structure LayerRec where
  /-- KIND -/
  kind : Nat
  /-- ACT -/
  act : Nat
  /-- NORM -/
  norm : Nat
  /-- OUT_FMT -/
  outFmt : Nat
  /-- ROUND -/
  round : Nat
  /-- OVF -/
  ovf : Nat
  /-- DIFF -/
  diff : Nat
  /-- WIDTH -/
  width : Nat
  /-- SKIP -/
  skip : Nat
  /-- W_OFF -/
  wOff : Nat
  /-- B_OFF -/
  bOff : Nat
  /-- S_OFF -/
  sOff : Nat
  /-- G_OFF -/
  gOff : Nat
  /-- H_OFF -/
  hOff : Nat
  /-- CLIP_LO -/
  clipLo : Nat
  /-- CLIP_HI -/
  clipHi : Nat
deriving DecidableEq, Repr, Inhabited

/-- Tag record (Table 3-11). -/
structure TagRec where
  /-- BLOCK -/
  block : Nat
  /-- TAG -/
  tag : Nat
deriving DecidableEq, Repr, Inhabited

/-- A parsed image: what the caddy keeps of it. -/
structure Image where
  /-- IMAGE_SIZE -/
  size : Nat := 0
  /-- CLASS -/
  cls : Nat := 0
  /-- METHOD -/
  method : Nat := 0
  /-- QP_METHOD -/
  qpMethod : Nat := 0
  /-- FLAGS -/
  flags : Nat := 0
  /-- N_PARAMS -/
  nParams : Nat := 0
  /-- ROUND -/
  round : Nat := 0
  /-- TRAP_MASK -/
  trapMask : Nat := 0
  /-- TOL_PRIMAL -/
  tolP : Nat := 0
  /-- TOL_DUAL -/
  tolD : Nat := 0
  /-- TOL_COMPL -/
  tolC : Nat := 0
  /-- stage table -/
  stages : List StageRec := []
  /-- block table -/
  blocks : List BlockRec := []
  /-- sparsity table -/
  sparse : List SparseRec := []
  /-- node table -/
  nodes : List NodeRec := []
  /-- body table -/
  bodies : List BodyRec := []
  /-- joint table -/
  joints : List JointRec := []
  /-- learned-model table -/
  models : List ModelRec := []
  /-- tag table -/
  tags : List TagRec := []
  /-- value pool -/
  pool : List W64 := []
  /-- byte offset of the opaque data area -/
  opaqueOff : Nat := 0
  /-- opaque data area -/
  opq : List Byte := []
  /-- SIG_OFFSET -/
  sigOff : Nat := 0
  /-- STRUCT_SIG -/
  structSig : W64 := 0
  /-- CONTENT_SIG of R261: FNV-1a over the bytes before the signature record -/
  contentSig : W64 := 0
  /-- KEY_SLOT -/
  keySlot : Nat := 0
deriving DecidableEq, Repr, Inhabited

/-- 64-bit FNV-1a with the basis and prime of R68, continued from `h`. -/
def fnv (h : W64) (bs : List Byte) : W64 :=
  bs.foldl (fun h b => (h ^^^ b.setWidth 64) * 0x00000100000001B3#64) h
/-- The offset basis of R68. -/
def fnvBasis : W64 := 0xCBF29CE484222325#64

/-- Directory entry `i` of the header: offset and count. -/
def dirEntry (bs : List Byte) (i : Nat) : Nat × Nat := (u32 bs (0x30 + 8 * i), u32 bs (0x34 + 8 * i))

/-- Record sizes in directory order (Table 3-1); the pool's words last. -/
def recSizes : List Nat := [32, 32, 16, 32, 24, 32, 64, 16, 8]
/-- Record types in directory order; nodes and the pool carry none. -/
def recTypes : List Nat := [2, 3, 4, 0, 6, 7, 8, 9, 0]

/-- The raw records of table `i`. -/
def tableRecs (bs : List Byte) (i : Nat) : List (List Byte) :=
  let d := dirEntry bs i
  chunks (recSizes.getD i 8) d.2 (bs.drop d.1)

/-- Parse a stage record. -/
def parseStage (r : List Byte) : StageRec := ⟨u16 r 4, (u16 r 6).testBit 0, u32 r 8, u32 r 0xC, u16 r 0x10⟩
/-- Parse a block record. -/
def parseBlock (r : List Byte) : BlockRec :=
  ⟨u16 r 4, u8 r 6, (u8 r 7).testBit 0, u16 r 8, u32 r 0xC, u32 r 0x10, u32 r 0x14, u32 r 0x18⟩
/-- Parse a sparsity record. -/
def parseSparse (r : List Byte) : SparseRec := ⟨u16 r 4, u16 r 6, u8 r 8, u8 r 9, u32 r 0xC⟩
/-- Parse a node record. -/
def parseNode (r : List Byte) : NodeRec :=
  ⟨u16 r 0, u8 r 2, u32 r 4, u32 r 8, u32 r 0xC, u64 r 0x10, u32 r 0x18, u32 r 0x1C⟩
/-- Parse a body record. -/
def parseBody (r : List Byte) : BodyRec := ⟨u16 r 4, u16 r 6, u32 r 8, u32 r 0xC, u32 r 0x10⟩
/-- Parse a joint record. -/
def parseJoint (r : List Byte) : JointRec :=
  ⟨u16 r 4, u8 r 6, u16 r 8, u16 r 0xA, u32 r 0xC, u32 r 0x10, u32 r 0x14, u32 r 0x18, u32 r 0x1C⟩
/-- Parse a learned-model record. -/
def parseModel (r : List Byte) : ModelRec :=
  ⟨u8 r 4, u8 r 5, u8 r 6, u8 r 7, u16 r 8, u16 r 0xA, u16 r 0xC, u16 r 0xE, u32 r 0x10, u32 r 0x14,
    u64 r 0x18, u64 r 0x20, u64 r 0x28⟩
/-- Parse a tag record. -/
def parseTag (r : List Byte) : TagRec := ⟨u16 r 4, u32 r 8⟩
/-- Parse a layer descriptor. -/
def parseLayer (r : List Byte) : LayerRec :=
  ⟨u8 r 0, u8 r 1, u8 r 2, u8 r 3, u8 r 4, u8 r 5, u8 r 6, u16 r 8, u16 r 0xA, u64 r 0x10, u64 r 0x18, u64 r 0x20,
    u64 r 0x28, u64 r 0x30, u32 r 0x38, u32 r 0x3C⟩

/-- End of the value pool: where the opaque data area begins (R54). -/
def poolEnd (bs : List Byte) : Nat :=
  let d := dirEntry bs 8
  let ends := (List.range 9).map (fun i => let e := dirEntry bs i; if e.2 = 0 then 128 else e.1 + e.2 * recSizes.getD i 8)
  if d.2 = 0 then ends.foldl Nat.max 128 else d.1 + 8 * d.2

/-- Parse a whole image; the checks of `ImageCheck` say whether the bytes form one. -/
def parseImage (bs : List Byte) : Image :=
  let sig := u32 bs 0x78
  let po := poolEnd bs
  { size := u32 bs 8, cls := u8 bs 0xC, method := u8 bs 0xD, qpMethod := u8 bs 0xE, flags := u8 bs 0xF,
    nParams := u32 bs 0x10, round := u8 bs 0x14, trapMask := u8 bs 0x15,
    tolP := u64 bs 0x18, tolD := u64 bs 0x20, tolC := u64 bs 0x28,
    stages := (tableRecs bs 0).map parseStage, blocks := (tableRecs bs 1).map parseBlock,
    sparse := (tableRecs bs 2).map parseSparse, nodes := (tableRecs bs 3).map parseNode,
    bodies := (tableRecs bs 4).map parseBody, joints := (tableRecs bs 5).map parseJoint,
    models := (tableRecs bs 6).map parseModel, tags := (tableRecs bs 7).map parseTag,
    pool := (tableRecs bs 8).map (fun r => w64At r 0),
    opaqueOff := po, opq := (bs.drop po).take (sig - po), sigOff := sig,
    structSig := w64At bs (sig + 8), contentSig := fnv fnvBasis (bs.take sig), keySlot := u8 bs (sig + 0x10) }

namespace Image

/-- FIXED_ORDER_BUILT. -/
def fixedOrderBuilt (im : Image) : Bool := im.flags.testBit 0
/-- HORIZON_SHIFT. -/
def horizonShift (im : Image) : Bool := im.flags.testBit 1
/-- SIGNED. -/
def signed (im : Image) : Bool := im.flags.testBit 2
/-- Rounding mode of the problem. -/
def rnd (im : Image) : Rnd := rndOf im.round
/-- Number of variables. -/
def nVars (im : Image) : Nat := im.blocks.foldl (fun n b => n + b.size) 0
/-- Number of stages. -/
def nStages (im : Image) : Nat := im.stages.length
/-- The layer descriptors of a model. -/
def layersOf (im : Image) (m : ModelRec) : List LayerRec :=
  (chunks 64 m.nLayers (im.opq.drop (m.layerOff - im.opaqueOff))).map parseLayer
/-- The weight bytes of a model as the image holds them. -/
def weightsOf (im : Image) (m : ModelRec) : List Byte := (im.opq.drop (m.weightOff - im.opaqueOff)).take m.weightBytes
/-- The record of model `k`. -/
def findModel (im : Image) (k : Nat) : Option ModelRec := im.models.find? (fun m => m.model == k)
/-- The record of body `k`. -/
def findBody (im : Image) (k : Nat) : Option BodyRec := im.bodies.find? (fun b => b.body == k)
/-- The record of joint `k`. -/
def findJoint (im : Image) (k : Nat) : Option JointRec := im.joints.find? (fun j => j.joint == k)
/-- Blocks of a stage in table order. -/
def stageBlocks (im : Image) (k : Nat) : List BlockRec := im.blocks.filter (fun b => b.stage == k)
/-- The STATE variables of a stage, in block order: the components NEXT_STATE nodes of the stage before set. -/
def stateVars (im : Image) (k : Nat) : List Nat :=
  ((im.stageBlocks k).filter (fun b => b.kind == 0)).flatMap (fun b => (List.range b.size).map (· + b.varFirst))
/-- A block is pinned: LO_PARAM and HI_PARAM name the same parameters. -/
def pinnedBlock (b : BlockRec) : Bool := b.lo == b.hi && b.lo != noneRef
/-- First variable of a stage and the number of its variables. -/
def stageSpan (im : Image) (k : Nat) : Nat × Nat :=
  match im.stageBlocks k with
  | [] => (0, 0)
  | b :: t => (b.varFirst, (b :: t).foldl (fun n x => n + x.size) 0)
/-- The block index of a variable. -/
def blockOf (im : Image) (v : Nat) : Nat := im.blocks.findIdx (fun b => decide (b.varFirst ≤ v ∧ v < b.varFirst + b.size))
/-- The stage of a variable. -/
def varStage (im : Image) (v : Nat) : Nat := ((im.blocks[im.blockOf v]?).map BlockRec.stage).getD 0
/-- The variable belongs to a pinned block. -/
def pinnedVar (im : Image) (v : Nat) : Bool := ((im.blocks[im.blockOf v]?).map pinnedBlock).getD false
/-- Nodes of a stage with their indices. -/
def stageNodes (im : Image) (s : StageRec) : List (NodeRec × Nat) :=
  ((im.nodes.drop s.nodeFirst).take s.nodeCount).zipIdx s.nodeFirst
/-- Insert by ascending key, stable. -/
def insBy (key : α → Nat) (x : α) : List α → List α
  | [] => [x]
  | y :: t => if key x < key y then x :: y :: t else y :: insBy key x t
/-- Nodes of a stage with a role, in ROLE_INDEX order. -/
def roleNodes (im : Image) (s : StageRec) (role : Nat) : List (NodeRec × Nat) :=
  ((im.stageNodes s).filter (fun n => n.1.role == role)).foldl (fun l n => insBy (fun x => x.1.roleIndex) n l) []
/-- One bound side of R95: the kind of its source, upper or lower, and the parameter that bounds it. -/
structure Side where
  /-- variable (block bound) or node index (constraint) -/
  what : Nat
  /-- the side belongs to a CONSTRAINT node -/
  isNode : Bool
  /-- upper side -/
  upper : Bool
  /-- bound parameter -/
  param : Nat
deriving DecidableEq, Repr, Inhabited

/-- The inequality sides in the order of R95. -/
def sides (im : Image) : List Side :=
  im.blocks.flatMap (fun b => if pinnedBlock b then [] else
    (List.range b.size).flatMap (fun i =>
      (if b.lo != noneRef then [⟨b.varFirst + i, false, false, b.lo + i⟩] else []) ++
      (if b.hi != noneRef then [⟨b.varFirst + i, false, true, b.hi + i⟩] else [])))
  ++ im.stages.flatMap (fun s => (im.roleNodes s 2).flatMap (fun n =>
      [⟨n.2, true, false, n.1.bound⟩, ⟨n.2, true, true, n.1.bound + 1⟩]))
/-- N_INEQ (R95). -/
def nIneq (im : Image) : Nat := im.sides.length
/-- The equalities in order: NEXT_STATE node and the next-stage variable it sets. -/
def equalities (im : Image) : List (Nat × Nat) :=
  im.stages.flatMap (fun s => (im.roleNodes s 1).map (fun n => (n.2, (im.stateVars (s.stage + 1)).getD n.1.roleIndex 0)))
/-- N_EQ. -/
def nEq (im : Image) : Nat := im.equalities.length
/-- The variables of the result bytes in order: the POUR blocks. -/
def pourVars (im : Image) : List Nat :=
  (im.blocks.filter BlockRec.pour).flatMap (fun b => (List.range b.size).map (· + b.varFirst))
/-- Result bytes of a pour. -/
def resultBytes (im : Image) : Nat := 8 * im.pourVars.length
/-- The tag of a block, 0 for none. -/
def tagOf (im : Image) (i : Nat) : Nat := ((im.tags.find? (fun t => t.block == i)).map TagRec.tag).getD 0
/-- The INIT_POOL value of element `i` of a block. -/
def initValue (im : Image) (b : BlockRec) (i : Nat) : W64 := if b.init = noneRef then 0 else im.pool.getD (b.init + i) 0
/-- Position and velocity coordinates of a joint type (Table 5-2). -/
def jointCoords : Nat → Nat × Nat
  | 0 => (1, 1)
  | 1 => (1, 1)
  | 3 => (4, 3)
  | 4 => (7, 6)
  | _ => (0, 0)
/-- The root body above a body, within `n` joints. -/
def rootBody (im : Image) : Nat → Nat → Option Nat
  | 0, _ => none
  | n + 1, b => match im.findBody b with
    | none => none
    | some br => match im.findJoint br.parentJoint with
      | none => none
      | some j => if j.parent = 0xFFFF then some b else im.rootBody n j.parent
/-- The joints of the tree of a root body, ascending. -/
def treeJoints (im : Image) (root : Nat) : List JointRec := im.joints.filter (fun j => im.rootBody 129 j.child == some root)
/-- The bodies of a tree, ascending. -/
def treeBodies (im : Image) (root : Nat) : List BodyRec := im.bodies.filter (fun b => im.rootBody 129 b.body == some root)
/-- Position and velocity coordinates of a tree (R128). -/
def treeCoords (im : Image) (root : Nat) : Nat × Nat :=
  (im.treeJoints root).foldl (fun n j => let c := jointCoords j.jtype; (n.1 + c.1, n.2 + c.2)) (0, 0)
/-- The variables a JDU_OUT node of a stage reads (R129, R132). -/
def jduVars (im : Image) (s : StageRec) : List Nat :=
  let sp := im.stageSpan s.stage
  (im.treeJoints s.treeRoot).flatMap (fun j =>
    let c := jointCoords j.jtype
    (List.range c.1).map (fun i => sp.1 + j.q + i) ++ (List.range c.2).map (fun i => sp.1 + j.qd + i)
      ++ (if j.tau = noneRef then [] else
        ((List.range c.2).map (fun i => j.tau + i)).filterMap (fun o => if o < sp.2 then some (sp.1 + o) else none)))
/-- The stages whose graph holds a MODEL_OUT node of model `m`. -/
def modelStages (im : Image) (m : Nat) : List Nat :=
  (im.stages.filter (fun s => (im.stageNodes s).any (fun n => n.1.op == 0x41 && n.1.imm % 2 ^ 32 == m))).map StageRec.stage
/-- The stages that have a TREE_ROOT. -/
def jduStages (im : Image) : List Nat := (im.stages.filter (fun s => s.treeRoot != 0xFFFF)).map StageRec.stage
/-- The image's graphs hold a JDU_OUT node. -/
def usesJdu (im : Image) : Bool := im.nodes.any (fun n => n.op == 0x40)
/-- The image's graphs hold a MODEL_OUT node. -/
def usesModels (im : Image) : Bool := im.nodes.any (fun n => n.op == 0x41)
/-- Tangent directions of a model (R176). -/
def tangentsOf (m : ModelRec) : Nat := if m.tangents = 0 then m.nIn else m.tangents
/-- Parameters that body and joint records name (R135). -/
def jduParams (im : Image) : List Nat :=
  im.bodies.flatMap (fun b => [b.mass] ++ (List.range 3).map (· + b.com) ++ (List.range 6).map (· + b.inertia))
  ++ im.joints.flatMap (fun j => (if j.axis = noneRef then [] else (List.range 3).map (· + j.axis)) ++ (List.range 7).map (· + j.origin))
/-- State variables the covariance covers (after Table 6-1). -/
def covVars (im : Image) : List Nat := im.stateVars (if im.cls = 3 then 0 else 1)
/-- The problem is an estimation problem. -/
def isEstimator (im : Image) : Bool := decide (3 ≤ im.cls ∧ im.cls ≤ 5)

end Image
end Sys2Proof.Machine
end

