-- ==== Sys2Proof/Config.lean ====
section
/-! DEFINITION. What an implementation fixes, and the free values: opaque constants that nothing in Lean can evaluate.
A free value stands for one value the spec leaves open; `Machine.State.free` numbers the draws (log entry 1). -/
namespace Sys2Proof.Config

/-- A fresh unconstrained 64-bit value, one for each draw number (log entry 1). -/
opaque freeWord : Nat → BitVec 64

/-- Which end of the last enclosure a correctly rounded function takes where even that enclosure does not decide (log entry 2). -/
opaque hardRound : Nat → Nat → BitVec 64 → BitVec 64 → Bool

/-- The value that the order of arrival gives the n-th sum of a fast-mode computation (R251), taken where it lies within the bound (log
entry 122). -/
opaque arrivalSum : Nat → Nat → BitVec 64

/-- The elimination order of a sparse LDLᵀ factorisation, computed once at load from the structure signature alone (METHOD 2): a list of row
numbers of which the first occurrences count (log entry 123). -/
opaque ldltOrder : BitVec 64 → Nat → List Nat

/-- One chunk of a weight gradient's contraction over sample positions where the operands are split (PASSES 2 or 3) or block-scaled, from the
delivered backward values and activation values of its positions (R237, log entry 55). -/
opaque gradChunk : List (BitVec 64) → List (BitVec 64) → BitVec 32

/-- Bytes of the staging region that a set of so many logical clusters takes, from the contents signatures and CLUSTERS of its problems'
plans (R380): the spec sizes it from the plans and gives no formula (log entry 137). -/
opaque stagingBytes : Nat → List (BitVec 64 × Nat) → Nat

/-- SERIAL of the device record (R423): each module has its own; the spec gives no value (log entry 4). -/
opaque serial : BitVec 64

/-- FW_VERSION of the device record for a Rankoaz bank (R423; log entry 4). -/
opaque fwVersion : Nat → BitVec 32

/-- PLAN_VERSION of the device record (R423; log entry 4). -/
opaque planVersion : BitVec 32

end Sys2Proof.Config
end

