-- ==== Sys2Proof/Machine/Transc.lean ====
section
/-! DEFINITION. The correctly rounded functions of Tables 9-2 and 9-3 (R210): each value is enclosed between two
fixed-point numbers, and delivered where both ends round alike. -/
namespace Sys2Proof.Machine

/-- Fixed-point product at `p` fraction bits. -/
def fxMul (p : Nat) (a b : Int) : Int := a * b / 2 ^ p
/-- Fixed-point quotient. -/
def fxDiv (p : Nat) (a b : Int) : Int := a * 2 ^ p / b

/-- `Σ (±1)^k z^(2k+1)/(2k+1)` in fixed point: arctangent (`sg = -1`) or its hyperbolic twin (`sg = 1`). -/
def fxAtanSer (p : Nat) (sg : Int) (z2 : Int) : Nat → Nat → Int → Int → Int
  | 0, _, _, acc => acc
  | n + 1, k, t, acc => fxAtanSer p sg z2 n (k + 1) (sg * fxMul p t z2) (acc + t / (2 * k + 1 : Nat))

/-- `arctan(1/n)` at `p` bits, for Machin's formula. -/
def fxArcCot (p n : Nat) : Int :=
  let z : Int := 2 ^ p / (n : Int)
  fxAtanSer p (-1) (2 ^ p / ((n * n : Nat) : Int)) (p / 4 + 4) 0 z 0

/-- π at `p` fraction bits (Machin). -/
def fxPi (p : Nat) : Int := (4 * (4 * fxArcCot (p + 32) 5 - fxArcCot (p + 32) 239)) / 2 ^ 32

/-- ln 2 = 2·artanh(1/3). -/
def fxLn2 (p : Nat) : Int :=
  let q := p + 32
  2 * fxAtanSer q 1 (2 ^ q / (9 : Int)) (q / 3 + 4) 0 (2 ^ q / (3 : Int)) 0 / 2 ^ 32

/-- `Σ_{k<n} t·x^k/(k0+1)…`: the exponential series from term `t`. -/
def fxExpSer (p : Nat) (x : Int) : Nat → Nat → Int → Int → Int
  | 0, _, _, acc => acc
  | n + 1, k, t, acc => fxExpSer p x n (k + 1) (fxMul p t x / (k + 1 : Nat)) (acc + t)

/-- Alternating series with steps of two, for sine (`k = 1`) and cosine (`k = 0`). -/
def fxTrigSer (p : Nat) (x2 : Int) : Nat → Nat → Int → Int → Int
  | 0, _, _, acc => acc
  | n + 1, k, t, acc => fxTrigSer p x2 n (k + 2) (-(fxMul p t x2) / (((k + 1) * (k + 2) : Nat) : Int)) (acc + t)

/-- An exact binary value at `p` fraction bits, truncated. -/
def toFx (p : Nat) (neg : Bool) (m : Nat) (e : Int) : Int :=
  let v : Int := ((shiftI m (e + p)).1 : Nat)
  if neg then -v else v

/-- An enclosure: the value lies strictly between `(v - err)·2^e` and `(v + err)·2^e`. -/
structure Encl where
  /-- centre -/
  v : Int
  /-- exponent of the unit -/
  e : Int
  /-- half width -/
  err : Nat
deriving DecidableEq, Repr, Inhabited

/-- The two ends of an enclosure of an irrational value, each rounded; `none` where it holds zero. -/
def enclEnds (f : Fmt) (r : Rnd) (x : Encl) : Option (FRes × FRes) :=
  let neg := decide (x.v < 0)
  let a := x.v.natAbs
  if a ≤ x.err + 1 then none else some (roundF f r neg (a - x.err - 1) x.e true, roundF f r neg (a + x.err) x.e true)

/-- `e^x` for finite non-zero x of moderate size. -/
def enclExp (p : Nat) (neg : Bool) (m : Nat) (e : Int) : Encl :=
  let x := toFx (p + 16) neg m e
  let l2 := fxLn2 (p + 16)
  let k := (2 * x + l2) / (2 * l2)
  let r := x - k * l2
  ⟨fxExpSer (p + 16) r (p / 4 + 24) 0 (2 ^ (p + 16)) 0, k - (p + 16 : Nat), 2 ^ 16⟩

/-- `ln x` for finite positive x. -/
def enclLog (p : Nat) (m : Nat) (e : Int) : Encl :=
  let q := p + 16
  let len := bitLen m
  let y0 := toFx q false m (-(len : Int))
  let low := decide (y0 * y0 * 2 < 2 ^ (2 * q))
  let y := if low then 2 * y0 else y0
  let k : Int := e + len - (if low then 1 else 0)
  let z := fxDiv q (y - 2 ^ q) (y + 2 ^ q)
  ⟨2 * fxAtanSer q 1 (fxMul q z z) (q / 4 + 8) 0 z 0 + k * fxLn2 q, -(q : Int), 2 ^ 20⟩

/-- Sine and cosine of a finite value, reduced exactly at any magnitude. -/
def fxSinCos (p : Nat) (neg : Bool) (m : Nat) (e : Int) : Int × Int :=
  let big := p + 64 + (if 0 < e then e.toNat + bitLen m else bitLen m)
  let x := toFx big neg m e
  let pi := fxPi big
  let k := (2 * x * 2 + pi) / (2 * pi)
  let r := (2 * x - k * pi) / 2 / 2 ^ (big - p)
  let r2 := fxMul p r r
  let s := fxTrigSer p r2 (p / 6 + 16) 1 r 0
  let c := fxTrigSer p r2 (p / 6 + 16) 0 (2 ^ p) 0
  match (k % 4).toNat with
  | 0 => (s, c)
  | 1 => (c, -s)
  | 2 => (-s, -c)
  | _ => (-c, s)

/-- Arctangent of a non-negative fixed-point value up to 1. -/
def fxAtan01 (p : Nat) (x : Int) : Int :=
  let halve (z : Int) : Int :=
    let s : Int := (isqrt ((2 ^ (2 * p) + z * z).toNat) : Nat)
    fxDiv p z (2 ^ p + s)
  let z := halve (halve (halve x))
  8 * fxAtanSer p (-1) (fxMul p z z) (p / 6 + 8) 0 z 0

/-- Arctangent of the ratio `y/x` of two positive exact values, in the first quadrant. -/
def fxAtanRatio (p : Nat) (my : Nat) (ey : Int) (mx : Nat) (ex : Int) : Int :=
  let d := ey - ex
  let a : Nat := if 0 ≤ d then my * 2 ^ d.toNat else my
  let b : Nat := if 0 ≤ d then mx else mx * 2 ^ (-d).toNat
  if a ≤ b then fxAtan01 p (((a * 2 ^ p / b : Nat)) : Int)
  else fxPi p / 2 - fxAtan01 p (((b * 2 ^ p / a : Nat)) : Int)

/-- Just below (`up = false`) or just above a value in magnitude: the leading term of a function at a tiny operand. -/
def nearTo (f : Fmt) (r : Rnd) (neg up : Bool) (m : Nat) (e : Int) : FRes :=
  let w := m * 2 ^ 200
  roundF f r neg (if up then w else w - 1) (e - 200) true

/-- Enclose at precision `p`, and at twice the precision, up to `n` times, for as long as the two ends round differently (R210). Past
2^60 times the first precision one of the two ends is taken freely (log entry 2). -/
def deliverAt (f : Fmt) (r : Rnd) (op a b : Nat) (g : Nat → Encl) : Nat → Nat → FRes
  | 0, p =>
    match enclEnds f r (g p) with
    | some (lo, hi) => if Config.hardRound op f.p (BitVec.ofNat 64 a) (BitVec.ofNat 64 b) then lo else hi
    | none => ⟨0, flInexact, false⟩
  | n + 1, p =>
    match enclEnds f r (g p) with
    | some (lo, hi) => if lo = hi then lo else deliverAt f r op a b g n (2 * p)
    | none => deliverAt f r op a b g n (2 * p)

/-- The correctly rounded value that the enclosures `g` close in on (R210). -/
def deliver (f : Fmt) (r : Rnd) (op : Nat) (a b : Nat) (g : Nat → Encl) : FRes := deliverAt f r op a b g 60 256

/-- The magnitude `m·2^e` is below `2^k`. -/
def below (m : Nat) (e k : Int) : Bool := decide ((bitLen m : Int) + e ≤ k)

/-- SIN. -/
def fsin (f : Fmt) (r : Rnd) (a : Nat) : FRes :=
  match decodeF f a with
  | .nan s => nanRes f s
  | .inf _ => nanRes f true
  | .fin s m e =>
    if m = 0 then ⟨zeroOf f s, 0, false⟩
    else if below m e (-80) then nearTo f r s false m e
    else deliver f r 0x20 a 0 (fun p => ⟨(fxSinCos (p + 160) s m e).1, -((p + 160 : Nat) : Int), 2 ^ 24⟩)

/-- COS. -/
def fcos (f : Fmt) (r : Rnd) (a : Nat) : FRes :=
  match decodeF f a with
  | .nan s => nanRes f s
  | .inf _ => nanRes f true
  | .fin s m e =>
    if m = 0 then roundF f r false 1 0
    else if below m e (-80) then nearTo f r false false 1 0
    else deliver f r 0x21 a 0 (fun p => ⟨(fxSinCos (p + 160) s m e).2, -((p + 160 : Nat) : Int), 2 ^ 24⟩)

/-- TAN. -/
def ftan (f : Fmt) (r : Rnd) (a : Nat) : FRes :=
  match decodeF f a with
  | .nan s => nanRes f s
  | .inf _ => nanRes f true
  | .fin s m e =>
    if m = 0 then ⟨zeroOf f s, 0, false⟩
    else if below m e (-80) then nearTo f r s true m e
    else deliver f r 0x22 a 0 (fun p =>
      let q := p + 320
      let sc := fxSinCos q s m e
      -- both are at least 2^-90 in magnitude, so the quotient keeps p bits with room to spare
      ⟨sc.1 * 2 ^ q / sc.2, -(q : Int), 2 ^ 240⟩)

/-- ATAN. -/
def fatan (f : Fmt) (r : Rnd) (a : Nat) : FRes :=
  match decodeF f a with
  | .nan s => nanRes f s
  | .inf s => deliver f r 0x23 a 0 (fun p => ⟨(if s then -1 else 1) * (fxPi p / 2), -(p : Int), 2 ^ 16⟩)
  | .fin s m e =>
    if m = 0 then ⟨zeroOf f s, 0, false⟩
    else if below m e (-80) then nearTo f r s false m e
    else deliver f r 0x23 a 0 (fun p =>
      ⟨(if s then -1 else 1) * fxAtanRatio (p + 120) m e 1 0, -((p + 120 : Nat) : Int), 2 ^ 24⟩)

/-- A rounded multiple of π/4, for the special operands of ATAN2. -/
def piQuarters (f : Fmt) (r : Rnd) (neg : Bool) (n : Nat) : FRes :=
  deliver f r 0x24 n 0 (fun p => ⟨(if neg then -1 else 1) * (n * fxPi p / 4), -(p : Int), 2 ^ 16⟩)

/-- ATAN2(y, x). -/
def fatan2 (f : Fmt) (r : Rnd) (a b : Nat) : FRes :=
  match decodeF f a, decodeF f b with
  | .nan s, y => nanRes f (s || y.isSnan)
  | x, .nan s => nanRes f (s || x.isSnan)
  | .inf s, .inf t => piQuarters f r s (if t then 3 else 1)
  | .inf s, .fin .. => piQuarters f r s 2
  | .fin s _ _, .inf t => if t then piQuarters f r s 4 else ⟨zeroOf f s, 0, false⟩
  | .fin s m e, .fin t n d =>
    if m = 0 then if t then piQuarters f r s 4 else ⟨zeroOf f s, 0, false⟩
    else if n = 0 then piQuarters f r s 2
    else
      let sg : Int := if s then -1 else 1
      let gap : Int := ((bitLen m : Int) + e) - ((bitLen n : Int) + d)
      if t then
        deliver f r 0x24 a b (fun p =>
          let g := if gap < -300 then 0 else if 300 < gap then fxPi (p + 120) / 2 else fxAtanRatio (p + 120) m e n d
          ⟨sg * (fxPi (p + 120) - g), -((p + 120 : Nat) : Int), if gap < -300 || 300 < gap then 2 ^ (p - 170) else 2 ^ 24⟩)
      else if gap < -80 then
        -- y/x lessened by a relative amount below 2^-150: enclose the quotient
        let q : Nat := m * 2 ^ 260 / n
        let lo := roundF f r s (q - q / 2 ^ 151 - 1) (e - d - 260) true
        let hi := roundF f r s (if m * 2 ^ 260 % n = 0 then q - 1 else q) (e - d - 260) true
        if lo = hi then lo
        else
          -- widened by the quotient's own smallness, which the fixed point must hold
          let w := 2 * gap.natAbs + 120
          deliver f r 0x24 a b (fun p => ⟨sg * fxAtanRatio (p + w) m e n d, -((p + w : Nat) : Int), 2 ^ 24⟩)
      else
        deliver f r 0x24 a b (fun p =>
          let g := if 300 < gap then fxPi (p + 120) / 2 else fxAtanRatio (p + 120) m e n d
          ⟨sg * g, -((p + 120 : Nat) : Int), if 300 < gap then 2 ^ (p - 170) else 2 ^ 24⟩)

/-- EXP. -/
def fexp (f : Fmt) (r : Rnd) (a : Nat) : FRes :=
  match decodeF f a with
  | .nan s => nanRes f s
  | .inf s => ⟨if s then 0 else f.infBits, 0, false⟩
  | .fin s m e =>
    if m = 0 then roundF f r false 1 0
    else if !below m e 13 then (if s then roundF f r false 0 (-20000) true else roundF f r false 1 20000)
    else if below m e (-80) then nearTo f r false (!s) 1 0
    else deliver f r 0x25 a 0 (fun p => enclExp (p + 100) s m e)

/-- LOG. -/
def flog (f : Fmt) (r : Rnd) (a : Nat) : FRes :=
  match decodeF f a with
  | .nan s => nanRes f s
  | .inf s => if s then nanRes f true else ⟨f.infBits, 0, false⟩
  | .fin s m e =>
    if m = 0 then ⟨infOf f true, flDivZero, false⟩
    else if s then nanRes f true
    else if fcmp f a (roundF f .rne false 1 0).v == .eq then ⟨0, 0, false⟩
    else deliver f r 0x26 a 0 (fun p => enclLog (p + 100) m e)

/-- TANH. -/
def ftanh (f : Fmt) (r : Rnd) (a : Nat) : FRes :=
  match decodeF f a with
  | .nan s => nanRes f s
  | .inf s => (let o := roundF f r false 1 0; ⟨o.v + zeroOf f s, 0, false⟩)
  | .fin s m e =>
    if m = 0 then ⟨zeroOf f s, 0, false⟩
    else if below m e (-80) then nearTo f r s false m e
    else if !below m e 7 then nearTo f r s false 1 0
    else deliver f r 0x27 a 0 (fun p =>
      let q := p + 320
      let x := enclExp q false m (e + 1)
      -- e^(2|a|) = v·2^e': (E − 1)/(E + 1)
      let sh : Int := -x.e
      let one : Int := if 0 ≤ sh then 2 ^ sh.toNat else 0
      ⟨(if s then -1 else 1) * ((x.v - one) * 2 ^ q / (x.v + one)), -(q : Int), 2 ^ 24⟩)

end Sys2Proof.Machine
end

