-- ==== Sys2Proof/Machine/Tfmt.lean ====
section
/-! DEFINITION. Tensor number formats, the accumulator and the output converter (R165, R186 to R204). Every element
is carried as its exact binary32 encoding or as an exact `Num`; flags are collected as the tensor path raises them. -/
namespace Sys2Proof.Machine

/-- An operation that raised an enabled exception: what the trap record says of it (Tables 9-4 and 9-5). -/
structure TrapOp where
  /-- UNIT: 0 NODE, 1 JDU, 2 VECTOR, 3 METHOD -/
  unit : Nat := 0
  /-- PHASE: 0 value, 1 first derivative, 2 second derivative -/
  phase : Nat := 0
  /-- every exception the operation raised -/
  flags : BitVec 5 := 0
  /-- the exceptions among them that can trap (R211, R227) -/
  able : BitVec 5 := 0
  /-- OPCODE -/
  opcode : Nat := 0
  /-- WIDTH: binary32 -/
  width32 : Bool := false
  /-- STAGE -/
  stage : Nat := 0xFFFFFFFF
  /-- LOCATION -/
  location : Nat := 0
  /-- operand A -/
  a : W64 := 0
  /-- operand B -/
  b : W64 := 0
  /-- operand C -/
  c : W64 := 0
  /-- DEFAULT -/
  default : W64 := 0
  /-- the evaluation of the graphs in or after which it lies -/
  part : Nat := 0
deriving DecidableEq, Repr, Inhabited

/-- The state of numeric work: the flags it has gathered, where it stands, and how its sums are ordered. -/
structure NumSt where
  /-- scalar flags, TRAP_MASK order then INT_DIVZERO, INT_OVERFLOW -/
  sc : BitVec 7 := 0#7
  /-- tensor flags: NAN, OVERFLOW, DENORM, UNDERFLOW, MX_CLAMP -/
  tn : BitVec 5 := 0#5
  /-- enabled traps (TRAP_MASK); 0 where nothing traps (R218) -/
  mask : BitVec 5 := 0#5
  /-- where the present operation stands in Tables 9-4 and 9-5 -/
  site : TrapOp := {}
  /-- the operations that raised an enabled exception, in order -/
  traps : List TrapOp := []
  /-- ROUND of the solver's own steps (R90) -/
  rnd : Rnd := .rne
  /-- sums follow the fixed-order plan (R254), not the order of arrival (R251) -/
  fixed : Bool := true
  /-- number of the free values of this work's sums of arriving partials (R251, log entry 1) -/
  seed : Nat := 0
  /-- sums formed so far -/
  sums : Nat := 0
  /-- evaluations of each MODEL begun so far in the steep (Table 8-3, word c) -/
  evals : List Nat := []
  /-- evaluations of the graphs begun in this work -/
  part : Nat := 0
  /-- the stages of each of them, in order -/
  passes : List (List Nat) := []
  /-- factorisation breakdowns so far (R104) -/
  breaks : Nat := 0
deriving DecidableEq, Repr, Inhabited

/-- A computation that gathers flags. -/
abbrev FlM := StateM NumSt

/-- The exceptions among an operation's scalar flags that can trap: the integer events of R227 never do. -/
def trapable (f : BitVec 7) : BitVec 5 :=
  f.setWidth 5 &&& ~~~((if f.getLsbD 5 then flDivZero else 0) ||| (if f.getLsbD 6 then flOverflow else 0)).setWidth 5
/-- The exceptions of a result that can trap: an enabled underflow trap is taken for every tiny result, exact or not (R211). -/
def resTraps (r : FRes) : BitVec 5 := trapable r.fl ||| (if r.tiny then flUnderflow.setWidth 5 else 0)

/-- Raise tensor flags. -/
def raiseT (f : BitVec 5) : FlM Unit := modify (fun s => { s with tn := s.tn ||| f })
/-- Deliver the result of a scalar operation on its operands, gathering its flags and, where it raises an enabled exception, what a
trap record would say of it (R217 to R220). -/
def sop (opcode a b c : Nat) (r : FRes) : FlM Nat := do
  modify (fun s =>
    { s with
      sc := s.sc ||| r.fl
      traps := if resTraps r &&& s.mask = 0 then s.traps
        else s.traps ++ [{ s.site with part := s.part, flags := r.fl.setWidth 5 ||| resTraps r, able := resTraps r, opcode,
                                       a := BitVec.ofNat 64 a, b := BitVec.ofNat 64 b, c := BitVec.ofNat 64 c, default := BitVec.ofNat 64 r.v }] })
  pure r.v
/-- The operations that follow stand at another place of Tables 9-4 and 9-5. -/
def atSite (f : TrapOp → TrapOp) : FlM Unit := modify (fun s => { s with site := f s.site })

/-- NAN of Table 8-4. -/
def tNan : BitVec 5 := 1#5
/-- OVERFLOW of Table 8-4. -/
def tOvf : BitVec 5 := 2#5
/-- DENORM of Table 8-4. -/
def tDen : BitVec 5 := 4#5
/-- UNDERFLOW of Table 8-4. -/
def tUnd : BitVec 5 := 8#5
/-- MX_CLAMP of Table 8-4. -/
def tMxc : BitVec 5 := 16#5

/-- An element format of Table 8-2. -/
structure EFmt where
  /-- mantissa bits -/
  mb : Nat
  /-- exponent bits -/
  eb : Nat
  /-- bias -/
  bias : Nat
  /-- largest finite code -/
  maxCode : Nat
  /-- infinity code, where the format has one -/
  infCode : Option Nat
  /-- canonical NaN code, where the format has one -/
  nanCode : Option Nat
  /-- overflow point `ovM · 2^ovE` -/
  ovM : Nat
  /-- exponent of the overflow point -/
  ovE : Int
deriving DecidableEq, Repr, Inhabited

/-- BF16. -/
def efBf16 : EFmt := ⟨7, 8, 127, 0x7F7F, some 0x7F80, some 0x7FC0, 511, 119⟩
/-- E4M3. -/
def efE4m3 : EFmt := ⟨3, 4, 7, 0x7E, none, some 0x7F, 464, 0⟩
/-- E5M2. -/
def efE5m2 : EFmt := ⟨2, 5, 15, 0x7B, some 0x7C, some 0x7E, 61440, 0⟩
/-- E2M1. -/
def efE2m1 : EFmt := ⟨1, 2, 1, 0x7, none, none, 7, 0⟩

/-- The element format of a format code of Table 8-1. -/
def efOf : Nat → EFmt
  | 1 => efE4m3
  | 2 => efE5m2
  | 3 => efE4m3
  | 4 => efE5m2
  | 5 => efE2m1
  | _ => efBf16
/-- The code names a block-scaled format. -/
def isMx (c : Nat) : Bool := decide (3 ≤ c ∧ c ≤ 5)
/-- `emax` of R201. -/
def emaxOf (c : Nat) : Int := if c = 3 ∨ c = 1 then 8 else if c = 5 then 2 else 15

/-- Bits of an element. -/
def EFmt.width (f : EFmt) : Nat := 1 + f.eb + f.mb
/-- Exponent of one unit of the smallest subnormal. -/
def EFmt.qmin (f : EFmt) : Int := 1 - (f.bias : Int) - f.mb

/-- Read an operand code as an exact value (R187 to R189); the flag says a BF16 subnormal was flushed. -/
def readElem (fc : Nat) (c : Nat) : Num × Bool :=
  let f := efOf fc
  let neg := c.testBit (f.eb + f.mb)
  let ex := c / 2 ^ f.mb % 2 ^ f.eb
  let fr := c % 2 ^ f.mb
  let mag := c % 2 ^ (f.eb + f.mb)
  if f.maxCode < mag then
    (if f.infCode = some mag then .inf neg else .nan false, false)
  else if ex = 0 then
    if fc = 0 && fr != 0 then (.fin neg 0 f.qmin, true) else (.fin neg fr f.qmin, false)
  else (.fin neg (fr + 2 ^ f.mb) (f.qmin + ex - 1), false)

/-- An exact value as a binary32 encoding (every element value of Table 8-2 is one). -/
def numToF32 : Num → FRes
  | .nan s => nanRes f32 s
  | .inf s => ⟨infOf f32 s, 0, false⟩
  | .fin s m e => roundF f32 .rne s m e

/-- The magnitude `m·2^e` compared with `n·2^d`. -/
def magCmp (m : Nat) (e : Int) (n : Nat) (d : Int) : Ordering :=
  compare (sumExact false m e true n d).1 0

/-- `mix` of R204. -/
def srMix (z : W64) : W64 :=
  let z := (z ^^^ (z >>> 30)) * 0xBF58476D1CE4E5B9#64
  let z := (z ^^^ (z >>> 27)) * 0x94D049BB133111EB#64
  z ^^^ (z >>> 31)

/-- The 16-bit draw of R204. -/
def srDraw (a b c : W64) : Nat := ((srMix (srMix (srMix a ^^^ b) ^^^ c)) >>> 48).toNat

/-- Key word `a` of Table 8-3. -/
def srKeyA (problem model layer column row stage : Nat) (training backward : Bool) : W64 :=
  BitVec.ofNat 64 (problem % 2 ^ 10 + model % 16 * 2 ^ 10 + layer % 64 * 2 ^ 14 + column % 1024 * 2 ^ 20
    + row % 2 ^ 13 * 2 ^ 30 + stage % 512 * 2 ^ 43 + b2n training * 2 ^ 52 + b2n backward * 2 ^ 53)

/-- Round a finite non-zero magnitude below the overflow point to a code without sign (R199, R200, R203). -/
def roundCode (f : EFmt) (draw : Option Nat) (m : Nat) (e : Int) : Nat :=
  let top : Int := (bitLen m : Int) + e - 1
  let emin : Int := 1 - (f.bias : Int)
  let q : Int := (if top < emin then emin else top) - f.mb
  let sh := shiftI (m * 2 ^ 17) (e - q)
  let n := sh.1 / 2 ^ 17
  let rem := sh.1 % 2 ^ 17
  let up := match draw with
    | none => decide (2 ^ 16 < rem) || (rem == 2 ^ 16 && (sh.2 || n % 2 == 1))
    | some u => decide (u < rem / 2)
  let n' := if up then n + 1 else n
  let c := n' + (q - f.qmin).toNat * 2 ^ f.mb
  if f.maxCode < c then f.maxCode else c

/-- Convert one value to a format without block scaling (R189, R199, R200). -/
def convElem (fc : Nat) (ieee : Bool) (draw : Option Nat) (v : Num) : FlM Nat :=
  let f := efOf fc
  let sgn (neg : Bool) (c : Nat) : Nat := c + (if neg then 2 ^ (f.eb + f.mb) else 0)
  match v with
  | .nan _ => do raiseT tNan; pure (f.nanCode.getD 0)
  | .inf neg =>
    if !ieee then do raiseT tOvf; pure (sgn neg f.maxCode)
    else match f.infCode with
      | some c => pure (sgn neg c)
      | none => do raiseT tNan; pure (sgn neg (f.nanCode.getD f.maxCode))
  | .fin neg m e =>
    if m = 0 then pure (sgn neg 0)
    else if magCmp m e f.ovM f.ovE != .lt then
      if !ieee then do raiseT tOvf; pure (sgn neg f.maxCode)
      else match f.infCode with
        | some c => do raiseT tOvf; pure (sgn neg c)
        | none => do raiseT (tOvf ||| tNan); pure (sgn neg (f.nanCode.getD f.maxCode))
    else if fc = 0 && magCmp m e 1 (-126) == .lt then do raiseT tDen; pure (sgn neg 0)
    else do
      let c := roundCode f draw m e
      if c = 0 then raiseT tUnd
      pure (sgn neg c)

/-- Convert an MX block (R201): the scale code and the element codes. An element that makes a whole E2M1 block NaN does so when its turn comes,
after the elements before it have raised what they raise. -/
def convBlock (fc : Nat) (ieee : Bool) (draws : List (Option Nat)) (vs : List Num) : FlM (Nat × List Nat) := do
  let f := efOf fc
  let nanBlock : FlM (Nat × List Nat) := do raiseT tNan; pure (0xFF, vs.map (fun _ => 0))
  if f.nanCode.isNone && vs.any Num.isNan then nanBlock
  else
    let big := decodeF f32 f32.maxBits
    let fix (v : Num) : Num := match v, big with
      | .inf s, .fin _ m e => if ieee then .inf s else .fin s m e
      | v, _ => v
    if !ieee && vs.any (fun v => match v with | .inf _ => true | _ => false) then raiseT tOvf
    let ws := vs.map fix
    let a : Nat × Int := ws.foldl (fun a v => match v with
      | .fin _ m e => if magCmp m e a.1 a.2 == .gt then (m, e) else a
      | _ => a) (0, 0)
    let x : Int := if a.1 = 0 then -127
      else
        let t : Int := (bitLen a.1 : Int) + a.2 - 1 - emaxOf fc
        if t < -127 then -127 else if 127 < t then 127 else t
    let convOne (v : Num) (d : Option Nat) : FlM Nat := match v with
      | .fin neg m e =>
        if m ≠ 0 && magCmp m (e - x) f.ovM f.ovE != .lt then do
          raiseT tMxc
          pure (f.maxCode + (if neg then 2 ^ (f.eb + f.mb) else 0))
        else convElem fc ieee d (.fin neg m (e - x))
      | v => convElem fc ieee d v
    let upTo := if f.nanCode.isNone then ws.takeWhile Num.isFin else ws
    let codes ← (upTo.zip draws).mapM (fun (v, d) => convOne v d)
    if upTo.length < ws.length then nanBlock else pure ((x + 127).toNat, codes)

/-- An activation operand of one column: the pass parts in pass order (hi, mid, lo), the block exponents, and the
exact values a later SKIP adds (R169, R192). -/
structure Act where
  /-- one list of binary32 encodings per pass -/
  parts : List (List Nat)
  /-- block exponents, one per 32 elements; empty without block scaling -/
  sc : List Int
  /-- exact delivered values -/
  exact : List Num
deriving DecidableEq, Repr, Inhabited

/-- The exact sum of two finite values; a special value passes, and a zero of both signs alike keeps its sign. -/
def numAdd : Num → Num → Num
  | .fin s m e, .fin t n d => let x := sumExact s m e t n d; .fin (decide (x.1 < 0) || (x.1 == 0 && s && t)) x.1.natAbs x.2
  | .fin .., y => y
  | x, _ => x

/-- Clear the significand below its top 8 bits (R165, the middle part). -/
def keepTop8 : Num → Num
  | .fin s m e => let k := bitLen m - 8; .fin s (m / 2 ^ k * 2 ^ k) e
  | v => v

/-- Flush a part below 2^-126 to a zero with the sign of the whole value (R165). -/
def flushPart (neg : Bool) (v : Num) : FlM Num :=
  match v with
  | .fin _ m e =>
    if m = 0 then pure (.fin neg 0 0)
    else if magCmp m e 1 (-126) == .lt then do raiseT tDen; pure (.fin neg 0 0)
    else pure v
  | v => pure v

/-- Split a binary32 value into its BF16 parts (R165): (hi, lo) or (hi, mid, lo). -/
def splitParts (passes : Nat) (a : Nat) : FlM (List Num) := do
  match decodeF f32 a with
  | .nan _ => raiseT tNan; pure (.nan false :: List.replicate (passes - 1) (.fin false 0 0))
  | .inf s => pure (.inf s :: List.replicate (passes - 1) (.fin s 0 0))
  | .fin s m e =>
    let hiEnc := a / 2 ^ 16 * 2 ^ 16
    let hi := decodeF f32 hiEnc
    let negOf (v : Num) : Num := match v with | .fin t n d => .fin (!t) n d | v => v
    let r := numAdd (.fin s m e) (negOf hi)
    let h ← flushPart s hi
    if passes = 2 then
      -- what lies below the BF16 normal range is flushed before it rounds (R189, Table 8-6)
      let l ← flushPart s r
      pure [h, match l with
        | .fin _ n d => if n = 0 then l else
            let q := roundTo .rne s n d false ((bitLen n : Int) + d - 8)
            .fin s q.1 ((bitLen n : Int) + d - 8)
        | v => v]
    else
      let mid := keepTop8 r
      let lo := numAdd r (negOf mid)
      let md ← flushPart s mid
      let l ← flushPart s lo
      pure [h, md, l]

/-- A binary32 addition of the accumulator (R194). -/
def accAdd (a b : Nat) : FlM Nat := do
  let r := fadd f32 .rne a b
  if r.fl.getLsbD 0 then raiseT tNan
  if r.fl.getLsbD 2 then raiseT tOvf
  pure r.v

/-- One level of a pairwise tree; an odd last element is carried up unchanged. -/
def pairLevel : List Nat → FlM (List Nat)
  | a :: b :: t => do
    let x ← accAdd a b
    let r ← pairLevel t
    pure (x :: r)
  | l => pure l

/-- The whole tree, `n` levels at most (R194's `chunk_tree`; `chunk_sum` is the tree of 32 leaves). -/
def pairTree : Nat → List Nat → FlM Nat
  | 0, l => pure (l.headD 0)
  | n + 1, l => if l.length ≤ 1 then pure (l.headD 0) else do let y ← pairLevel l; pairTree n y

/-- The product of an activation and a weight element (R193). -/
def accMul (a w : Nat) : FlM Nat := do
  if isNanF f32 a then raiseT tNan
  let r := fmul f32 .rne a w
  if r.fl.getLsbD 0 then raiseT tNan
  if r.fl.getLsbD 2 then raiseT tOvf
  if r.fl.getLsbD 4 && r.v % f32.signBit = 0 then raiseT tUnd
  pure r.v

/-- The product of an activation element and a weight element that carries its own block's scale 2^k, formed exactly and rounded once
(R193): the transposed product of R178, whose chunks run across weight blocks (log entry 121). -/
def accMulScaled (a w : Nat) (k : Int) : FlM Nat :=
  match decodeF f32 a, decodeF f32 w with
  | .fin s m e, .fin t n d => do
    if m = 0 ∨ n = 0 then pure (zeroOf f32 (s != t))
    else
      let r := roundF f32 .rne (s != t) (m * n) (e + d + k)
      if r.fl.getLsbD 2 then raiseT tOvf
      if r.fl.getLsbD 4 && r.v % f32.signBit = 0 then raiseT tUnd
      pure r.v
  | _, _ => accMul a w

/-- Multiply a chunk result by a power of two, rounded once (R195). -/
def scalePow (x : Nat) (k : Int) : FlM Nat :=
  match decodeF f32 x with
  | .fin s m e => do
    if m = 0 then pure x
    else
      let r := roundF f32 .rne s m (e + k)
      if r.fl.getLsbD 2 then raiseT tOvf
      if r.v % f32.signBit = 0 then raiseT tUnd
      pure r.v
  | _ => pure x

/-- Pad a list with `d` to a multiple of 32, in chunks of 32. -/
def chunk32 (d : Nat) : Nat → List Nat → List (List Nat)
  | 0, _ => []
  | n + 1, l => if l.isEmpty then [] else
      let c := l.take 32
      (c ++ List.replicate (32 - c.length) d) :: chunk32 d n (l.drop 32)

/-- The number of 32-element chunks of a row of `k` elements. -/
def nChunks (k : Nat) : Nat := ceilDiv k 32

/-- One output row of one column (R166, R193 to R195): `k` unpadded inputs. -/
def accRow (k : Nat) (act : Act) (w : List Nat) (wsc : List Int) : FlM Nat := do
  let wc := chunk32 0 (nChunks k) (w.take k)
  let parts := act.parts.map (fun p => chunk32 0 (nChunks k) (p.take k))
  let rs ← (List.range (nChunks k)).mapM (fun j => do
    let xs := act.sc.getD j 0 + wsc.getD j 0
    let sums ← parts.reverse.mapM (fun p => do
      let prods ← ((p.getD j []).zip (wc.getD j [])).mapM (fun (a, b) => accMul a b)
      let s ← pairTree 6 prods
      scalePow s xs)
    -- lowest part first: ((lo + mid) + hi)
    match sums with
    | [] => pure 0
    | s :: t => t.foldlM accAdd s)
  pairTree 12 rs

/-- One output row of a transposed product (R178): the weights carry their own blocks' scales, so a chunk takes the activation block's alone. -/
def accRowT (k : Nat) (act : Act) (w : List (Nat × Int)) : FlM Nat := do
  let parts := act.parts.map (fun p => chunk32 0 (nChunks k) (p.take k))
  let rs ← (List.range (nChunks k)).mapM (fun j => do
    let sums ← parts.reverse.mapM (fun p => do
      let prods ← ((p.getD j []).zipIdx).mapM (fun (a, i) => let x := w.getD (32 * j + i) (0, 0); accMulScaled a x.1 x.2)
      let s ← pairTree 6 prods
      scalePow s (act.sc.getD j 0))
    match sums with
    | [] => pure 0
    | s :: t => t.foldlM accAdd s)
  pairTree 12 rs

/-- The scale-and-bias stage (R196). -/
def scaleBias (s acc b : Nat) : FlM Nat := do
  let r := ffma f32 .rne s acc b
  if isNanF f32 r.v then raiseT tNan
  if r.fl.getLsbD 2 then raiseT tOvf
  if r.fl.getLsbD 4 && r.v % f32.signBit = 0 then raiseT tUnd
  pure r.v

/-- The clip of R197. -/
def clipF (lo hi v : Nat) : Nat := if fltF f32 v lo then lo else if fltF f32 hi v then hi else v
/-- The clip acted (R177: below CLIP_LO or above CLIP_HI). -/
def clipped (lo hi v : Nat) : Bool := fltF f32 v lo || fltF f32 hi v

/-- Deliver a column's clipped values as the next activation operand (R165, R192, R197). `draw row` is the stochastic
draw of a row, or none for round to nearest even. -/
def toAct (passes fc : Nat) (ieee : Bool) (draw : Nat → Option Nat) (vs : List Nat) : FlM Act := do
  if passes ≥ 2 then
    let ps ← vs.mapM (splitParts passes)
    pure ⟨(List.range passes).map (fun i => ps.map (fun p => (numToF32 (p.getD i (.fin false 0 0))).v)), [],
      ps.map (fun p => (p.drop 1).foldl numAdd (p.headD (.fin false 0 0)))⟩
  else if isMx fc then
    let n := nChunks vs.length
    let cs := chunk32 0 n vs
    let bs ← (List.range n).mapM (fun j =>
      convBlock fc ieee ((List.range 32).map (fun i => draw (32 * j + i))) ((cs.getD j []).map (decodeF f32)))
    let el := bs.flatMap (fun b => b.2.map (fun c => if b.1 = 0xFF then Num.nan false else (readElem fc c).1))
    let sc := bs.map (fun b => (b.1 : Int) - 127)
    let ex := bs.flatMap (fun b => b.2.map (fun c => if b.1 = 0xFF then Num.nan false else
      match (readElem fc c).1 with | .fin s m e => .fin s m (e + b.1 - 127) | v => v))
    pure ⟨[el.map (fun v => (numToF32 v).v)], sc, ex.take vs.length⟩
  else
    let cs ← vs.zipIdx.mapM (fun (v, i) => convElem fc ieee (draw i) (decodeF f32 v))
    let el := cs.map (fun c => (readElem fc c).1)
    pure ⟨[el.map (fun v => (numToF32 v).v)], [], el⟩

end Sys2Proof.Machine
end

