-- ==== Sys2Proof/Machine/ImageCheck.lean ====
section
/-! DEFINITION. The checks of an image in the order of R70: FORMAT, RESERVED, RANGE, REF, PATTERN, TREE and SIG
(R54 to R68), with the checks other chapters add to them (R93, R94, R125 to R131, R143, R164 to R171, R186 to R198).
Which status a broken field gets where no rule names one is a reading (log entry 11). -/
namespace Sys2Proof.Machine

/-- A layout check: table `i` starts where the tables before it end, or at 0 when empty (R54). Answers the next end. -/
def dirOk (bs : List Byte) : Nat → Nat → Nat → Bool × Nat
  | 0, _, e => (true, e)
  | n + 1, i, e =>
    let d := dirEntry bs i
    if d.2 = 0 then (if d.1 = 0 then dirOk bs n (i + 1) e else (false, e))
    else if d.1 = e then dirOk bs n (i + 1) (e + d.2 * recSizes.getD i 8) else (false, e)

/-- Strictly ascending. -/
def ascending : List Nat → Bool
  | a :: b :: t => decide (a < b) && ascending (b :: t)
  | _ => true

/-- Every record of table `i` carries its TYPE and RSIZE (R55); nodes and pool words carry none. -/
def prefixOk (bs : List Byte) (i : Nat) : Bool :=
  recTypes.getD i 0 == 0 || (tableRecs bs i).all (fun r => u16 r 0 == recTypes.getD i 0 && u16 r 2 == recSizes.getD i 0)

/-- IMAGE_FORMAT: MAGIC, VERSION, sizes, layout, record prefixes and order (R54 to R56). -/
def imgFormatOk (bs : List Byte) (length : Nat) : Bool :=
  let sig := u32 bs 0x78
  let d := dirOk bs 9 0 128
  decide (128 ≤ bs.length) && u32 bs 0 == 0x49584459 && u16 bs 4 == 1 && u16 bs 6 == 0x80
  && u32 bs 8 == length && bs.length == length && decide (length % 8 = 0)
  && d.1 && decide (d.2 ≤ sig) && sig % 8 == 0 && sig + 128 == length
  && u16 bs sig == 0x000A && u16 bs (sig + 2) == 128
  && (List.range 8).all (prefixOk bs)
  && ((tableRecs bs 0).map (fun r => u16 r 4)) == List.range (dirEntry bs 0).2
  && ascending ((tableRecs bs 4).map (fun r => u16 r 4))
  && ascending ((tableRecs bs 5).map (fun r => u16 r 4))
  && ascending ((tableRecs bs 6).map (fun r => u8 r 4))

/-- The raw layer descriptors of the models whose extents lie in the opaque data area. -/
def rawLayers (bs : List Byte) (im : Image) : List (List Byte) :=
  im.models.flatMap (fun m => if im.opaqueOff ≤ m.layerOff ∧ m.layerOff + 64 * m.nLayers ≤ im.sigOff
    then chunks 64 m.nLayers (bs.drop m.layerOff) else [])

/-- IMAGE_RESERVED: every reserved field is zero (R9). -/
def imgReservedOk (bs : List Byte) (im : Image) : Bool :=
  let all (i : Nat) (p : List Byte → Bool) : Bool := (tableRecs bs i).all p
  decide (u8 bs 0xF < 8) && decide (u8 bs 0x15 < 32) && zeroAt bs 0x16 2 && zeroAt bs 0x7C 4
  && all 0 (fun r => decide (u16 r 6 < 2) && zeroAt r 0x12 14)
  && all 1 (fun r => decide (u8 r 7 < 2) && zeroAt r 0xA 2 && zeroAt r 0x1C 4)
  && all 2 (fun r => zeroAt r 0xA 2) && all 3 (fun r => zeroAt r 3 1) && all 4 (fun r => zeroAt r 0x14 4)
  && all 5 (fun r => zeroAt r 7 1) && all 6 (fun r => zeroAt r 0x30 16)
  && all 7 (fun r => zeroAt r 6 2 && zeroAt r 0xC 4)
  && zeroAt bs (im.sigOff + 4) 4 && zeroAt bs (im.sigOff + 0x11) 15
  && (rawLayers bs im).all (fun r => zeroAt r 7 1 && zeroAt r 0xC 4)

/-- Operands an opcode uses (Table 3-8). -/
def opArity (op : Nat) : Option Nat :=
  if op = 0x01 then some 0 else if op ∈ [0x02, 0x03, 0x04, 0x15, 0x20, 0x21, 0x22, 0x23, 0x25, 0x26, 0x27, 0x38] then some 1
  else if op ∈ [0x10, 0x11, 0x12, 0x14, 0x18, 0x19, 0x24, 0x30, 0x31] then some 2
  else if op ∈ [0x13, 0x1A] then some 3 else if op ∈ [0x40, 0x41] then some 0 else none

/-- METHOD, QP_METHOD and CLASS form a combination of Table 4-3 (R93). -/
def comboOk (cls method qp : Nat) : Bool :=
  (match method with
    | 0 => cls == 1 || cls == 3
    | 1 => cls == 1 || cls == 3
    | 2 => cls == 0 || cls == 1 || cls == 3
    | 3 => cls == 0 || cls == 1 || cls == 4 || cls == 5
    | 4 => cls == 0 || cls == 1
    | 5 => cls == 2 || cls == 3
    | 6 => cls == 2 || cls == 3
    | _ => false)
  && (if method = 5 ∨ method = 6 then decide (qp ≤ 4) else qp == 0)

/-- A binary64 value above zero. -/
def posF (x : Nat) : Bool := fltF f64 0 x

/-- The degree of a node in the variables (R94), `none` for a non-polynomial node; `prev` holds the degrees so far. -/
def nodeDegree (prev : List (Option Nat)) (n : NodeRec) : Option Nat :=
  let ar := (opArity n.op).getD 0
  let deg (k r : Nat) : Option Nat :=
    if ar ≤ k ∨ r = noneRef then some 0
    else match r / 2 ^ 28 with
      | 0 => prev.getD (r % 2 ^ 28) (some 0)
      | 1 => some 1
      | _ => some 0
  match deg 0 n.a, deg 1 n.b, deg 2 n.c with
  | some a, some b, some c =>
    if n.op = 0x40 ∨ n.op = 0x41 then none
    else if n.op = 0x01 then some 0
    else if n.op = 0x02 ∨ n.op = 0x03 then some a
    else if n.op = 0x10 ∨ n.op = 0x11 then some (max a b)
    else if n.op = 0x12 then some (a + b)
    else if n.op = 0x13 then some (max (a + b) c)
    else if a = 0 ∧ b = 0 ∧ c = 0 then some 0 else none
  | _, _, _ => none

/-- R94: the degrees of NEXT_STATE, CONSTRAINT, MEASUREMENT and COST nodes of a linear class. -/
def degreesOk (im : Image) : Bool :=
  if im.cls = 0 ∨ im.cls = 1 ∨ (im.cls = 3 ∧ im.method ≤ 2) then
    let ds := im.nodes.foldl (fun ds n => ds ++ [nodeDegree ds n]) []
    (im.nodes.zip ds).all (fun (n, d) =>
      let atMost (k : Nat) : Bool := match d with | some x => decide (x ≤ k) | none => false
      if n.role = 1 ∨ n.role = 2 ∨ n.role = 4 then atMost 1 else if n.role = 3 then atMost 2 else true)
  else true

/-- A JDU quantity code, selector and element lie in the ranges of Table 5-3 (R131). A range that counts the tree's coordinates is held only
against a tree that TREE_ROOT names: one that it does not name is R125's concern. -/
def jduImmOk (im : Image) (s : StageRec) (imm : Nat) : Bool :=
  let code := imm % 2 ^ 32
  let sel := imm / 2 ^ 48
  let el := imm / 2 ^ 32 % 2 ^ 16
  let c := if im.rootBody 1 s.treeRoot = some s.treeRoot then im.treeCoords s.treeRoot else (2 ^ 16, 2 ^ 16)
  match code with
  | 1 => decide (sel ≤ 127 ∧ el ≤ 11)
  | 2 => decide (sel ≤ 127 ∧ el ≤ 5)
  | 3 => decide (sel ≤ 127 ∧ el ≤ 5)
  | 4 => decide ((sel ≤ 127 ∨ sel = 0xFFFF) ∧ el ≤ 2)
  | 5 => decide (sel = 0 ∧ el < c.1)
  | 6 => decide (sel = 0 ∧ el ≤ 1)
  | 0x10 => decide (sel = 0 ∧ el < c.2)
  | 0x11 => decide (sel = 0 ∧ el < c.2)
  | 0x12 => decide (sel < c.2 ∧ el < c.2)
  | _ => false

/-- The fields of the node at index `i` have a meaning or hold the value Table 3-7 gives (R61, R62); a JDU_OUT's IMM
is held against the tree of the stage whose nodes the index falls in (R131). -/
def nodeRangeOk (im : Image) (n : NodeRec) (i : Nat) : Bool :=
  (opArity n.op).isSome && decide (n.role ≤ 4)
  && (if n.op = 0x01 then true
      else if n.op = 0x38 then decide (n.imm < 2 ^ 32)
      else if n.op = 0x40 then im.stages.all (fun s => i < s.nodeFirst || s.nodeFirst + s.nodeCount ≤ i
        || jduImmOk im s n.imm)
      else if n.op = 0x41 then true
      else n.imm == 0)
  && (if n.role = 1 ∨ n.role = 2 ∨ n.role = 4 then true else n.roleIndex == 0)
  && (if n.role = 2 then true else n.bound == noneRef)

/-- A LOOKUP table's count and spacing are in range (after Table 3-8); a table outside the pool is R58's concern. -/
def lookupRangeOk (im : Image) (n : NodeRec) : Bool :=
  let t := n.imm % 2 ^ 32
  if n.op = 0x38 ∧ t + 3 ≤ im.pool.length then
    let cnt := (im.pool.getD t 0).toNat % 2 ^ 32
    decide (2 ≤ cnt ∧ cnt ≤ 65536) && posF (im.pool.getD (t + 2) 0).toNat
  else true

/-- Bytes of one weight row before its 64-byte boundary (R190). -/
def rowBytes (fmt k : Nat) : Nat :=
  let kp := nChunks k * 32
  match fmt with
  | 0 => 2 * k
  | 1 => k
  | 2 => k
  | 5 => kp / 2 + kp / 32
  | _ => kp + kp / 32
/-- Stride of weight rows. -/
def rowStride (fmt k : Nat) : Nat := ceilDiv (rowBytes fmt k) 64 * 64

/-- The input width of each layer: the previous WIDTH, with the context at the first DENSE layer (after R167). -/
def layerInputs (m : ModelRec) (ls : List LayerRec) : List Nat :=
  (List.range ls.length).map (fun i => if i = 0 then m.nIn else if i = 1 then m.nIn * (1 + m.ctx)
    else ((ls[i - 1]?).map LayerRec.width).getD 0)

/-- The element codes and scale codes of one weight row. -/
def weightRow (fmt k : Nat) (row : List Byte) : List Nat × List Nat :=
  let kp := nChunks k * 32
  match fmt with
  | 0 => ((List.range k).map (fun i => u16 row (2 * i)), [])
  | 1 => ((List.range k).map (fun i => u8 row i), [])
  | 2 => ((List.range k).map (fun i => u8 row i), [])
  | 5 => ((List.range kp).map (fun i => let b := u8 row (i / 2); if i % 2 = 0 then b % 16 else b / 16),
      (List.range (kp / 32)).map (fun j => u8 row (kp / 2 + j)))
  | _ => ((List.range kp).map (fun i => u8 row i), (List.range (kp / 32)).map (fun j => u8 row (kp + j)))

/-- The rows of a layer's weight matrix in a weight area. -/
def weightRows (fmt k : Nat) (w : List Byte) (l : LayerRec) : List (List Nat × List Nat) :=
  (List.range l.width).map (fun r => weightRow fmt k ((w.drop (l.wOff + r * rowStride fmt k)).take (rowBytes fmt k)))

/-- The absent-array offset of R167. -/
def absentOff : Nat := 0xFFFFFFFFFFFFFFFF

/-- A binary32 array of a layer, `d` in every row when absent. -/
def layerArr (w : List Byte) (off width d : Nat) : List Nat :=
  if off = absentOff then List.replicate width d else (List.range width).map (fun i => u32 w (off + 4 * i))

/-- R191 for one layer whose arrays lie in the weight area. -/
def layerFiniteOk (m : ModelRec) (k : Nat) (w : List Byte) (l : LayerRec) : Bool :=
  let fin32 (off : Nat) : Bool := off == absentOff || decide (w.length < off + 4 * l.width)
    || (layerArr w off l.width 0).all (isFinF f32)
  (l.kind != 1 || decide (w.length < l.wOff + l.width * rowStride m.fmt k) ||
    (weightRows m.fmt k w l).all (fun r => r.1.all (fun c => (readElem m.fmt c).1.isFin) && r.2.all (fun s => s != 0xFF)))
  && fin32 l.bOff && fin32 l.sOff && fin32 l.gOff && fin32 l.hOff
  && !isNanF f32 l.clipLo && !isNanF f32 l.clipHi

/-- Ranges of one layer descriptor (Table 7-4, R164, R167, R168, R186, R198). -/
def layerRangeOk (m : ModelRec) (ls : List LayerRec) (i : Nat) (l : LayerRec) : Bool :=
  (if i = 0 then l.kind == 0 && l.act == 0 && l.norm == 0 && decide (l.diff ≤ 1) && l.skip == 0xFFFF && l.wOff == 0
      && l.gOff == absentOff && l.hOff == absentOff && l.width == m.nIn
    else l.kind == 1 && decide (l.act ≤ 7) && decide (l.norm ≤ 2) && l.diff == 0
      && (l.norm != 0 || l.gOff == absentOff) && (l.norm == 1 || l.hOff == absentOff)
      && (l.act != 7 || l.norm == 0)
      && (l.skip == 0xFFFF || (decide (1 ≤ l.skip ∧ l.skip < i) && ((ls[l.skip]?).map LayerRec.width) == some l.width)))
  && (if m.passes = 1 then decide (l.outFmt ≤ 5) else l.outFmt == 0)
  && decide (l.round ≤ 1) && (m.passes == 1 || l.round == 0) && decide (l.ovf ≤ 1)
  && decide (1 ≤ l.width ∧ l.width ≤ 4096) && fleF f32 l.clipLo l.clipHi

/-- Ranges of a learned-model record and its descriptors (R168, R164, R191). -/
def modelRangeOk (im : Image) (m : ModelRec) : Bool :=
  let ls := im.layersOf m
  let ks := layerInputs m ls
  let diff := ((ls[0]?).map LayerRec.diff).getD 0
  decide (m.model ≤ 15) && decide (m.fmt ≤ 5) && decide (1 ≤ m.passes ∧ m.passes ≤ 3) && decide (m.ctx ≤ 64)
  && (m.passes == 1 || m.fmt == 0)
  && decide (1 ≤ m.nIn ∧ m.nIn ≤ 1024) && decide (1 ≤ m.nOut ∧ m.nOut ≤ 1024) && decide (2 ≤ m.nLayers ∧ m.nLayers ≤ 64)
  && decide (m.nIn * (1 + m.ctx) ≤ 8192) && decide (m.tangents ≤ m.nIn) && decide (m.weightBytes ≤ 2 ^ 28) && m.key != 0
  && (if diff = 0 then decide (1 + Image.tangentsOf m ≤ 1024) else decide (1 + m.nOut ≤ 1024))
  && (im.opaqueOff > m.layerOff || im.sigOff < m.layerOff + 64 * m.nLayers ||
    (ls.zipIdx.all (fun (l, i) => layerRangeOk m ls i l)
     && ((ls.getLast?).map LayerRec.width) == some m.nOut
     && (im.opaqueOff > m.weightOff || im.sigOff < m.weightOff + m.weightBytes ||
      (ls.zip ks).all (fun (l, k) => layerFiniteOk m k (im.weightsOf m) l))))

/-- Channels of the MEASUREMENT nodes of a stage. -/
def stageChannels (im : Image) (s : StageRec) : List Nat :=
  ((im.stageNodes s).filter (fun n => n.1.role == 4)).map (fun n => n.1.roleIndex)

/-- The count and size limits of R143. -/
def estRangeOk (im : Image) : Bool :=
  let n1 := (im.stateVars 1).length
  let nm := (im.nodes.filter (fun n => n.role == 4)).length
  if im.cls = 4 then im.nStages == 2 && decide (n1 ≤ 256 ∧ nm ≤ 256)
  else if im.cls = 5 then im.nStages == 2 && decide (n1 ≤ 64 ∧ nm ≤ 128)
  else if im.cls = 3 then decide ((im.stateVars 0).length ≤ 256) else true

/-- Every other condition of R143. -/
def estRefOk (im : Image) : Bool :=
  !im.isEstimator || (im.horizonShift
    && im.stages.all (fun s => let cs := stageChannels im s; cs.all (fun c => decide (c ≤ 255)) && cs.eraseDups.length == cs.length)
    && (im.cls == 3 || (im.stages.all (fun s => s.stage == 1 || (stageChannels im s).isEmpty)
      && (im.stageBlocks 0).all (fun b => b.kind != 0 || !Image.pinnedBlock b))))

/-- The running sum of block sizes equals every VAR_FIRST. -/
def varFirstOk : Nat → List BlockRec → Bool
  | _, [] => true
  | n, b :: t => b.varFirst == n && varFirstOk (n + b.size) t

/-- IMAGE_RANGE: fields and limits (R57, R61, R62, R67, R93, R94 and the chapters that add to them). -/
def imgRangeOk (bs : List Byte) (im : Image) : Bool :=
  let d (i : Nat) : Nat := (dirEntry bs i).2
  decide (im.cls ≤ 5) && comboOk im.cls im.method im.qpMethod && decide (im.round ≤ 3)
  && posF im.tolP && posF im.tolD && posF im.tolC
  && decide (im.size ≤ 2 ^ 30) && decide (1 ≤ d 0 ∧ d 0 ≤ 512) && decide (1 ≤ d 1 ∧ d 1 ≤ 16384)
  && im.blocks.all (fun b => decide (1 ≤ b.size ∧ b.size ≤ 256) && decide (b.kind ≤ 3) && decide (b.stage < d 0))
  && decide (im.nVars ≤ 262144) && decide (d 3 ≤ 4194304) && decide (1 ≤ im.nParams ∧ im.nParams ≤ 1048576)
  && decide (im.nParams ≤ d 8) && decide (d 2 ≤ 1048576) && decide (d 4 ≤ 128) && decide (d 5 ≤ 128)
  && decide (d 6 ≤ 16) && decide (d 7 ≤ d 1)
  && (im.method != 3 || im.cls ≥ 4 || decide (im.nVars ≤ 256))
  && im.stages.all (fun s => !s.terminal || s.stage + 1 == im.nStages)
  && varFirstOk 0 im.blocks && im.blocks.map BlockRec.stage == (im.blocks.map BlockRec.stage).foldl (fun l x => Image.insBy id x l) []
  && im.sparse.all (fun r => decide (r.pattern ≤ 3) && decide (r.col ≤ r.row)
      && (if r.pattern = 2 then decide (1 ≤ r.band) else r.band == 0) && (r.pattern == 3 || r.list == noneRef))
  && im.nodes.zipIdx.all (fun (n, i) => nodeRangeOk im n i && lookupRangeOk im n)
  && im.bodies.all (fun b => decide (b.body ≤ 127))
  && im.joints.all (fun j => decide (j.joint ≤ 127) && decide (j.jtype ≤ 4)
      && (j.jtype ≤ 1 || j.axis == noneRef) && (j.jtype != 2 || (j.q == noneRef && j.qd == noneRef)))
  && im.models.all (modelRangeOk im)
  && decide (im.keySlot ≤ 7)
  && (im.signed || (im.keySlot == 0 && zeroAt bs (im.sigOff + 0x20) 96))
  && degreesOk im && estRangeOk im

/-- A used operand reference is valid for a node at index `i` of stage `s` (R58). -/
def refOk (im : Image) (s : StageRec) (i r : Nat) : Bool :=
  let k := r / 2 ^ 28
  let x := r % 2 ^ 28
  if k = 0 then decide (s.nodeFirst ≤ x ∧ x < i)
  else if k = 1 then decide (x < im.nVars) && (im.varStage x == s.stage || im.varStage x + 1 == s.stage)
  else if k = 2 then decide (x < im.nParams) else false

/-- Operands of a node: used ones valid, unused ones NONE (R58). -/
def operandsOk (im : Image) (s : StageRec) (n : NodeRec) (i : Nat) : Bool :=
  let ar := (opArity n.op).getD 0
  [n.a, n.b, n.c].zipIdx.all (fun (r, k) => if k < ar then refOk im s i r else r == noneRef)

/-- A run of parameters lies below N_PARAMS (R58). -/
def paramRun (im : Image) (first n : Nat) : Bool := decide (first + n ≤ im.nParams)
/-- A run of pool words lies in the pool (R58). -/
def poolRun (im : Image) (first n : Nat) : Bool := decide (first + n ≤ im.pool.length)

/-- The stages' node ranges tile the node table (R59). -/
def tilesOk : Nat → Nat → List StageRec → Bool
  | n, total, [] => n == total
  | n, total, s :: t => s.nodeFirst == n && tilesOk (n + s.nodeCount) total t

/-- NEXT_STATE coverage of the next stage's STATE components (R61). -/
def coverOk (im : Image) (s : StageRec) : Bool :=
  ((im.roleNodes s 1).map (fun n => n.1.roleIndex)) == List.range (im.stateVars (s.stage + 1)).length

/-- Kinematic references of a stage (R125, R129). -/
def stageJduOk (im : Image) (s : StageRec) : Bool :=
  let js := (im.stageNodes s).filter (fun n => n.1.op == 0x40)
  if js.isEmpty then s.treeRoot == 0xFFFF
  else
    im.rootBody 1 s.treeRoot == some s.treeRoot
    && js.all (fun n =>
      let code := n.1.imm % 2 ^ 32
      let sel := n.1.imm / 2 ^ 48
      !(code == 1 || code == 2 || code == 3 || (code == 4 && sel != 0xFFFF)) || im.rootBody 129 sel == some s.treeRoot)
    && (im.treeJoints s.treeRoot).all (fun j =>
      let c := Image.jointCoords j.jtype
      let sp := im.stageSpan s.stage
      c.1 == 0 || decide (j.q + c.1 ≤ sp.2 ∧ j.qd + c.2 ≤ sp.2))

/-- Model inputs of a stage (R171). -/
def stageModelOk (im : Image) (s : StageRec) : Bool :=
  (im.stageNodes s).all (fun n => if n.1.op != 0x41 then true else
    match im.findModel (n.1.imm % 2 ^ 32) with
    | none => false
    | some m => decide (n.1.imm / 2 ^ 32 < m.nOut) && decide (m.inFirst + m.nIn ≤ s.nodeCount)
        && decide (s.nodeFirst + m.inFirst + m.nIn ≤ n.2))

/-- Extents of a model and its arrays (R65, R167). -/
def modelRefOk (im : Image) (m : ModelRec) : Bool :=
  let inside (off n : Nat) : Bool := decide (im.opaqueOff ≤ off ∧ off + n ≤ im.sigOff)
  let ls := im.layersOf m
  let ks := layerInputs m ls
  let arr (off n : Nat) : Bool := off == absentOff || (decide (off % 64 = 0) && decide (off + n ≤ m.weightBytes))
  m.layerOff % 64 == 0 && m.weightOff % 64 == 0 && inside m.layerOff (64 * m.nLayers) && inside m.weightOff m.weightBytes
  && (ls.zip ks).zipIdx.all (fun ((l, k), i) =>
      (i == 0 || (decide (l.wOff % 64 = 0) && decide (l.wOff + l.width * rowStride m.fmt k ≤ m.weightBytes)))
      && arr l.bOff (4 * l.width) && arr l.sOff (4 * l.width) && arr l.gOff (4 * l.width) && arr l.hOff (4 * l.width))

/-- Tag conditions (R66). -/
def tagsOk (im : Image) : Bool :=
  im.tags.all (fun t => decide (t.block < im.blocks.length) && t.tag != 0)
  && ((im.tags.map TagRec.block).eraseDups.length == im.tags.length)
  && (let ks := im.tags.map (fun t => (((im.blocks[t.block]?).map BlockRec.stage).getD 0, t.tag)); ks.eraseDups.length == ks.length)

/-- IMAGE_REF: references, ranges of parameters and pool, tiling, coverage, tags and extents. -/
def imgRefOk (im : Image) : Bool :=
  tilesOk 0 im.nodes.length im.stages
  && im.stages.all (fun s => (im.stageNodes s).all (fun n => operandsOk im s n.1 n.2))
  && im.stages.all (coverOk im)
  && im.blocks.all (fun b => (b.lo == noneRef || paramRun im b.lo b.size) && (b.hi == noneRef || paramRun im b.hi b.size)
      && (b.init == noneRef || poolRun im b.init b.size))
  && im.nodes.all (fun n => (n.role != 2 || paramRun im n.bound 2)
      && (n.op != 0x38 || (let t := n.imm % 2 ^ 32; poolRun im t 3 && poolRun im t (3 + (im.pool.getD t 0).toNat % 2 ^ 32))))
  && im.sparse.all (fun r => decide (r.row < im.blocks.length ∧ r.col < im.blocks.length)
      && (r.pattern != 3 || (poolRun im r.list 1 && poolRun im r.list (1 + (im.pool.getD r.list 0).toNat % 2 ^ 32))))
  && im.bodies.all (fun b => paramRun im b.mass 1 && paramRun im b.com 3 && paramRun im b.inertia 6)
  && im.joints.all (fun j => (j.axis == noneRef && decide (2 ≤ j.jtype) || paramRun im j.axis 3) && paramRun im j.origin 7)
  && im.stages.all (fun s => stageJduOk im s && stageModelOk im s)
  && im.models.all (modelRefOk im) && tagsOk im && estRefOk im

/-- Union of two variable sets. -/
def vUnion (a b : List Nat) : List Nat := a ++ b.filter (fun x => !a.contains x)
/-- All unordered pairs between two sets. -/
def vPairs (a b : List Nat) : List (Nat × Nat) := a.flatMap (fun x => b.map (fun y => if x ≤ y then (x, y) else (y, x)))

/-- Dependency set and curvature pairs of a node (R60), from those of the nodes before it. -/
def nodeDeps (im : Image) (s : StageRec) (prev : List (List Nat × List (Nat × Nat))) (n : NodeRec) : List Nat × List (Nat × Nat) :=
  let dep (r : Nat) : List Nat × List (Nat × Nat) :=
    if r = noneRef then ([], [])
    else match r / 2 ^ 28 with
      | 0 => prev.getD (r % 2 ^ 28) ([], [])
      | 1 => ([r % 2 ^ 28], [])
      | _ => ([], [])
  let a := dep n.a
  let b := dep n.b
  let c := dep n.c
  let ds := vUnion (vUnion a.1 b.1) c.1
  let cs := (a.2 ++ b.2 ++ c.2).eraseDups
  if n.op = 0x40 then (im.jduVars s, [])
  else if n.op = 0x41 then
    match im.findModel (n.imm % 2 ^ 32) with
    | none => ([], [])
    | some m => ((List.range (Image.tangentsOf m)).foldl (fun l i => vUnion l (prev.getD (s.nodeFirst + m.inFirst + i) ([], [])).1) [], [])
  else if n.op = 0x12 ∨ n.op = 0x13 then (ds, (cs ++ vPairs a.1 b.1).eraseDups)
  else if n.op = 0x14 ∨ n.op = 0x15 ∨ (0x20 ≤ n.op ∧ n.op ≤ 0x27) then (ds, (cs ++ vPairs ds ds).eraseDups)
  else (ds, cs)

/-- The dependency and curvature table of the whole graph. -/
def allDeps (im : Image) : List (List Nat × List (Nat × Nat)) :=
  im.stages.foldl (fun acc s => (im.stageNodes s).foldl (fun acc n => acc ++ [nodeDeps im s acc n.1]) acc) []

/-- Position `(i, j)` of variables lies in a declared record (R60). -/
def declared (im : Image) (i j : Nat) : Bool :=
  let bi := im.blockOf i
  let bj := im.blockOf j
  let swap := decide (bi < bj) || (bi == bj && decide (i < j))
  let r := if swap then j else i
  let c := if swap then i else j
  let rb := im.blockOf r
  let cb := im.blockOf c
  let rr := r - ((im.blocks[rb]?).map BlockRec.varFirst).getD 0
  let cc := c - ((im.blocks[cb]?).map BlockRec.varFirst).getD 0
  im.sparse.any (fun x => x.row == rb && x.col == cb &&
    (match x.pattern with
      | 0 => true
      | 1 => rr == cc
      | 2 => decide (rr ≤ cc + x.band ∧ cc ≤ rr + x.band)
      | _ => (List.range ((im.pool.getD x.list 0).toNat % 2 ^ 32)).any (fun k =>
          let w := (im.pool.getD (x.list + 1 + k) 0).toNat
          w % 2 ^ 32 == rr && w / 2 ^ 32 == cc)))

/-- The derived nonzeros of R60, as pairs of variables. -/
def derivedNonzeros (im : Image) : List (Nat × Nat) :=
  let deps := allDeps im
  let free (v : Nat) : Bool := !im.pinnedVar v
  let diag := ((List.range im.nVars).map (fun v => (v, v)))
  let fromNodes := im.stages.flatMap (fun s => (im.stageNodes s).flatMap (fun n =>
    let d := deps.getD n.2 ([], [])
    if n.1.role = 3 then d.2
    else if n.1.role = 1 then
      let t := (im.stateVars (s.stage + 1)).getD n.1.roleIndex 0
      d.1.map (fun v => (v, t))
    else if n.1.role = 2 ∨ n.1.role = 4 then vPairs d.1 d.1
    else []))
  let arrival := if im.cls = 3 then vPairs (im.stateVars 0) (im.stateVars 0) else []
  (diag ++ fromNodes ++ arrival).filter (fun p => free p.1 && free p.2)

/-- PATTERN_MISMATCH (R60). -/
def imgPatternOk (im : Image) : Bool := (derivedNonzeros im).all (fun p => declared im p.1 p.2)

/-- TREE_INVALID (R64). -/
def imgTreeOk (im : Image) : Bool :=
  im.bodies.all (fun b => match im.findJoint b.parentJoint with | some j => j.child == b.body | none => false)
  && im.joints.all (fun j => (im.findBody j.child).isSome
      && (match im.findBody j.child with | some b => b.parentJoint == j.joint | none => false)
      && (j.parent == 0xFFFF || ((im.findBody j.parent).isSome && decide (j.parent < j.child))))

/-- STRUCT_SIG recomputed (R68). -/
def structSigOf (bs : List Byte) : W64 :=
  let hdr := ((bs.drop 0xC).take 8).zipIdx.map (fun (b, i) => if i = 3 then b &&& 0xFB#8 else b)
  (List.range 7).foldl (fun h i => let d := dirEntry bs i; fnv h ((bs.drop d.1).take (d.2 * recSizes.getD i 8))) (fnv fnvBasis hdr)

/-- IMAGE_SIG (R68). -/
def imgSigOk (bs : List Byte) (im : Image) : Bool := structSigOf bs == im.structSig

/-- The first failed check of R70 up to IMAGE_SIG, or OK. -/
def imageVerdict (bs : List Byte) (length : Nat) : Status :=
  let im := parseImage bs
  if !imgFormatOk bs length then stImageFormat
  else if !imgReservedOk bs im then stImageReserved
  else if !imgRangeOk bs im then stImageRange
  else if !imgRefOk im then stImageRef
  else if !imgPatternOk im then stPatternMismatch
  else if !imgTreeOk im then stTreeInvalid
  else if !imgSigOk bs im then stImageSig
  else stOk

end Sys2Proof.Machine
end

