-- ==== Sys2Proof/Machine/NumOps.lean ====
section
/-! DEFINITION. The solver's own arithmetic: binary64 operations that gather flags and traps (R90, R217, R218), and the order of sums
(R251, R254, R255). Everything here computes in the ROUND mode that the numeric state carries. -/
namespace Sys2Proof.Machine

/-- A binary64 value as a word. -/
def b64 (x : Nat) : W64 := BitVec.ofNat 64 x
/-- binary64 1. -/
def one64 : W64 := 0x3FF0000000000000#64
/-- 2^-10 (R101), binary64. -/
def tenth64 : W64 := 0x3F50000000000000#64
/-- +∞, binary64. -/
def inf64 : W64 := 0x7FF0000000000000#64
/-- The canonical NaN, binary64. -/
def nan64 : W64 := b64 f64.nanBits
/-- An integer as binary64. -/
def intW (x : Int) : W64 := b64 (ofIntF f64 .rne x).v
/-- `2^e` as binary64. -/
def powW (e : Int) : W64 := b64 (roundF f64 .rne false 1 e).v
/-- A quotient of two integers as binary64, nearest. -/
def ratW (a : Int) (b : Nat) : W64 := b64 (fdiv f64 .rne (intW a).toNat (intW b).toNat).v
/-- Finite, as a stored value. -/
def isFin64 (x : W64) : Bool := isFinF f64 x.toNat
/-- A NaN. -/
def isNan64 (x : W64) : Bool := isNanF f64 x.toNat
/-- `a < b` in binary64. -/
def ltW (a b : W64) : Bool := fltF f64 a.toNat b.toNat
/-- `a ≤ b` in binary64. -/
def leW (a b : W64) : Bool := fleF f64 a.toNat b.toNat
/-- −a; a NaN becomes the canonical one (R213). -/
def negW (a : W64) : W64 := b64 (fneg f64 a.toNat).v
/-- |a| (R213). -/
def absW (a : W64) : W64 := b64 (fabs f64 a.toNat).v
/-- The larger of two words without flags. -/
def maxW (a b : W64) : W64 := b64 (fmax f64 a.toNat b.toNat).v

/-- ADD. -/
def nAdd (a b : W64) : FlM W64 := do
  let x ← sop 0x10 a.toNat b.toNat 0 (fadd f64 (← get).rnd a.toNat b.toNat)
  pure (b64 x)
/-- SUB. -/
def nSub (a b : W64) : FlM W64 := do
  let x ← sop 0x11 a.toNat b.toNat 0 (fsub f64 (← get).rnd a.toNat b.toNat)
  pure (b64 x)
/-- MUL. -/
def nMul (a b : W64) : FlM W64 := do
  let x ← sop 0x12 a.toNat b.toNat 0 (fmul f64 (← get).rnd a.toNat b.toNat)
  pure (b64 x)
/-- FMA. -/
def nFma (a b c : W64) : FlM W64 := do
  let x ← sop 0x13 a.toNat b.toNat c.toNat (ffma f64 (← get).rnd a.toNat b.toNat c.toNat)
  pure (b64 x)
/-- DIV. -/
def nDiv (a b : W64) : FlM W64 := do
  let x ← sop 0x14 a.toNat b.toNat 0 (fdiv f64 (← get).rnd a.toNat b.toNat)
  pure (b64 x)
/-- SQRT. -/
def nSqrt (a : W64) : FlM W64 := do
  let x ← sop 0x15 a.toNat 0 0 (fsqrt f64 (← get).rnd a.toNat)
  pure (b64 x)
/-- MAX: a NaN on either side is delivered (R213), so that a norm with a NaN in it is a NaN (R96). -/
def nMax (a b : W64) : FlM W64 := do
  let x ← sop 0x19 a.toNat b.toNat 0 (fmax f64 a.toNat b.toNat)
  pure (b64 x)
/-- MIN. -/
def nMin (a b : W64) : FlM W64 := do
  let x ← sop 0x18 a.toNat b.toNat 0 (fmin f64 a.toNat b.toNat)
  pure (b64 x)
/-- SIN. -/
def nSin (a : W64) : FlM W64 := do
  let x ← sop 0x20 a.toNat 0 0 (fsin f64 (← get).rnd a.toNat)
  pure (b64 x)
/-- COS. -/
def nCos (a : W64) : FlM W64 := do
  let x ← sop 0x21 a.toNat 0 0 (fcos f64 (← get).rnd a.toNat)
  pure (b64 x)
/-- ATAN2. -/
def nAtan2 (a b : W64) : FlM W64 := do
  let x ← sop 0x24 a.toNat b.toNat 0 (fatan2 f64 (← get).rnd a.toNat b.toNat)
  pure (b64 x)

/-- The operations that follow belong to a step of the method (LOCATION of METHOD, Table 9-5): step, factorisation attempt, inner
iteration. -/
def atStep (step attempt inner : Nat) : FlM Unit :=
  atSite (fun _ => { unit := 3, location := step % 256 + attempt % 256 * 2 ^ 8 + inner % 2 ^ 16 * 2 ^ 16 })
/-- The same step, another attempt of its factorisation (R104). -/
def atAttempt (attempt : Nat) : FlM Unit :=
  atSite (fun x => { x with location := x.location % 256 + attempt % 256 * 2 ^ 8 + x.location / 2 ^ 16 * 2 ^ 16 })

/-- One level of a fixed tree: a value whose partner position holds no term is carried up unchanged (R254). -/
def treeLevel : List W64 → FlM (List W64)
  | a :: b :: t => do
    let x ← nAdd a b
    let y ← treeLevel t
    pure (x :: y)
  | l => pure l
/-- A pairwise tree of at most `n` levels. -/
def treeOf : Nat → List W64 → FlM W64
  | 0, l => pure (l.headD 0)
  | n + 1, l => if l.length ≤ 1 then pure (l.headD 0) else do let y ← treeLevel l; treeOf n y
/-- Runs of 32 terms in logical order (R254). -/
def runs32 : Nat → List W64 → List (List W64)
  | 0, _ => []
  | n + 1, l => if l.isEmpty then [] else l.take 32 :: runs32 n (l.drop 32)
/-- The fixed reduction of R254: chunks of 32 by the tree of chunk_sum, chunk results by chunk_tree. A sum of no terms is +0. -/
def treeSum (l : List W64) : FlM W64 := do
  let cs ← (runs32 (ceilDiv l.length 32) l).mapM (treeOf 6)
  treeOf 40 cs

/-- The exact sum of finite values and the exact sum of their magnitudes, at a common exponent; `none` where one is not finite. -/
def exactSums : List Num → Option (Int × Nat × Int)
  | [] => some (0, 0, 0)
  | .fin s m e :: t => (exactSums t).map (fun (x, y, d) =>
      let g := if e ≤ d then e else d
      let a : Nat := m * 2 ^ (e - g).toNat
      let k : Nat := 2 ^ (d - g).toNat
      ((if s then -(a : Int) else a) + x * k, a + y * k, g))
  | _ => none
/-- A value lies within γₙ Σ|xᵢ| of the exact sum of its n terms (R251): u is 2^-53 under RNE and 2^-52 under the directed modes. -/
def withinGamma (r : Rnd) (terms : List Num) (v : W64) : Bool :=
  match exactSums terms, decodeF f64 v.toNat with
  | some (x, y, d), .fin s m e =>
    let g := if e ≤ d then e else d
    let a : Int := ((m * 2 ^ (e - g).toNat : Nat) : Int)
    let diff := ((if s then -a else a) - x * 2 ^ (d - g).toNat).natAbs
    let nu : Nat := terms.length * (if r = .rne then 1 else 2)
    decide (diff * (2 ^ 53 - nu) ≤ nu * (y * 2 ^ (d - g).toNat))
  | _, _ => false

/-- A reduction of terms, given exactly and as rounded: the fixed tree in fixed-order mode (R254); in fast mode any value within the bound of
R251 that the order of arrival gives (log entry 122). A sum of at most two terms is the plain addition in both modes. -/
def reduce (exact : List Num) (l : List W64) : FlM W64 := do
  let t ← treeSum l
  let s ← get
  if s.fixed || l.length ≤ 2 then pure t
  else do
    set { s with sums := s.sums + 1 }
    let v := Config.arrivalSum s.seed s.sums
    pure (if withinGamma s.rnd exact v then v else t)
/-- A reduction of stored values. -/
def sumR (l : List W64) : FlM W64 := reduce (l.map (fun v => decodeF f64 v.toNat)) l

/-- The exact product of two values. -/
def exactMul (a b : W64) : Num :=
  match decodeF f64 a.toNat, decodeF f64 b.toNat with
  | .fin s m e, .fin t n d => .fin (s != t) (m * n) (e + d)
  | _, _ => .nan false
/-- A dot product (R251, R254): each product rounded once, then one reduction. -/
def dotR (l : List (W64 × W64)) : FlM W64 := do
  let ps ← l.mapM (fun x => nMul x.1 x.2)
  reduce (l.map (fun x => exactMul x.1 x.2)) ps

/-- The infinity norm (exact in any order, Table 11-2): 0 of no values, a NaN where one is a NaN. -/
def normInf (l : List W64) : FlM W64 := l.foldlM (fun a v => nMax a (absW v)) (0 : W64)

/-- A word that may be a structural zero, as a value. -/
def orZero (x : Option W64) : W64 := x.getD 0

end Sys2Proof.Machine
end

