-- ==== Sys2Proof/Machine/Jdu.lean ====
section
/-! DEFINITION. The joint-dynamics unit's arithmetic (R123 to R132): kinematic trees, forward kinematics, recursive Newton–Euler,
the composite-rigid-body and the articulated-body algorithm, over plain values and over values with a tangent. The sequence of operations of
each algorithm is the model's (log entry 3). -/
namespace Sys2Proof.Machine

/-- The operations an algorithm computes with: plain values, or values that carry the tangent along one variable. -/
structure Arith (α : Type) where
  /-- a constant -/
  lit : W64 → α
  /-- the value -/
  val : α → W64
  /-- sum -/
  add : α → α → FlM α
  /-- difference -/
  sub : α → α → FlM α
  /-- product -/
  mul : α → α → FlM α
  /-- a × b + c, one rounding -/
  fma : α → α → α → FlM α
  /-- quotient -/
  div : α → α → FlM α
  /-- square root -/
  sqrt : α → FlM α
  /-- sine and cosine -/
  sinCos : α → FlM (α × α)
  /-- sign change -/
  neg : α → α

/-- Plain values. -/
def plainArith : Arith W64 where
  lit := id
  val := id
  add := nAdd
  sub := nSub
  mul := nMul
  fma := nFma
  div := nDiv
  sqrt := nSqrt
  sinCos := fun a => do let s ← nSin a; let c ← nCos a; pure (s, c)
  neg := negW

/-- A value with its tangent along one variable; no tangent is an exact zero (R132). -/
abbrev Dual := W64 × Option W64

/-- The sum of two tangents. -/
def tAdd : Option W64 → Option W64 → FlM (Option W64)
  | none, y => pure y
  | x, none => pure x
  | some x, some y => do let z ← nAdd x y; pure (some z)
/-- `k × t + acc` on tangents. -/
def tFma (k : W64) : Option W64 → Option W64 → FlM (Option W64)
  | none, acc => pure acc
  | some x, none => do let z ← nMul k x; pure (some z)
  | some x, some y => do let z ← nFma k x y; pure (some z)
/-- A value computed again beside its tangent raises nothing: the pass over plain values raised it. -/
def quiet (f : Rnd → FRes) : FlM W64 := do pure (b64 (f (← get).rnd).v)

/-- Values with a tangent: the tangent of each operation is the operation of Table 3-8's derivative (R132, R215). -/
def dualArith : Arith Dual where
  lit := fun a => (a, none)
  val := Prod.fst
  add := fun a b => do
    let v ← quiet (fun r => fadd f64 r a.1.toNat b.1.toNat)
    let t ← tAdd a.2 b.2
    pure (v, t)
  sub := fun a b => do
    let v ← quiet (fun r => fsub f64 r a.1.toNat b.1.toNat)
    let t ← tAdd a.2 (b.2.map negW)
    pure (v, t)
  mul := fun a b => do
    let v ← quiet (fun r => fmul f64 r a.1.toNat b.1.toNat)
    let t ← tFma b.1 a.2 none
    let t ← tFma a.1 b.2 t
    pure (v, t)
  fma := fun a b c => do
    let v ← quiet (fun r => ffma f64 r a.1.toNat b.1.toNat c.1.toNat)
    let t ← tFma b.1 a.2 c.2
    let t ← tFma a.1 b.2 t
    pure (v, t)
  div := fun a b => do
    let v ← quiet (fun r => fdiv f64 r a.1.toNat b.1.toNat)
    let n ← tFma (negW v) b.2 a.2
    match n with
    | none => pure (v, none)
    | some n => do let t ← nDiv n b.1; pure (v, some t)
  sqrt := fun a => do
    let v ← quiet (fun r => fsqrt f64 r a.1.toNat)
    match a.2 with
    | none => pure (v, none)
    | some x => do let d ← nAdd v v; let t ← nDiv x d; pure (v, some t)
  sinCos := fun a => do
    let s ← quiet (fun r => fsin f64 r a.1.toNat)
    let c ← quiet (fun r => fcos f64 r a.1.toNat)
    let ts ← tFma c a.2 none
    let tc ← tFma (negW s) a.2 none
    pure ((s, ts), (c, tc))
  neg := fun a => (negW a.1, a.2.map negW)

section
variable {α : Type} [Inhabited α]

/-- Element `i` of a vector. -/
def Arith.at (o : Arith α) (v : List α) (i : Nat) : α := v.getD i (o.lit 0)
/-- A zero vector. -/
def Arith.zeros (o : Arith α) (n : Nat) : List α := List.replicate n (o.lit 0)

/-- A dot product: a chain of FMA operations in ascending element order, from the product of elements 0 (R123). -/
def Arith.dot (o : Arith α) : List α → List α → FlM α
  | a :: s, b :: t => do
    let x ← o.mul a b
    (s.zip t).foldlM (fun acc p => o.fma p.1 p.2 acc) x
  | _, _ => pure (o.lit 0)
/-- Sum of vectors. -/
def Arith.vadd (o : Arith α) (a b : List α) : FlM (List α) := (a.zip b).mapM (fun p => o.add p.1 p.2)
/-- Difference of vectors. -/
def Arith.vsub (o : Arith α) (a b : List α) : FlM (List α) := (a.zip b).mapM (fun p => o.sub p.1 p.2)
/-- A vector times a number. -/
def Arith.vscale (o : Arith α) (k : α) (a : List α) : FlM (List α) := a.mapM (o.mul k)
/-- `k × a + b` on vectors. -/
def Arith.vfma (o : Arith α) (k : α) (a b : List α) : FlM (List α) := (a.zip b).mapM (fun p => o.fma k p.1 p.2)
/-- Matrix times vector. -/
def Arith.mv (o : Arith α) (m : List (List α)) (v : List α) : FlM (List α) := m.mapM (fun r => o.dot r v)
/-- The transpose of a matrix of `n` columns. -/
def Arith.tr (o : Arith α) (n : Nat) (m : List (List α)) : List (List α) := (List.range n).map (fun j => m.map (fun r => o.at r j))
/-- Matrix product, `n` columns on the right. -/
def Arith.mm (o : Arith α) (n : Nat) (a b : List (List α)) : FlM (List (List α)) :=
  let bt := o.tr n b
  a.mapM (fun r => bt.mapM (fun c => o.dot r c))
/-- Cross product, each element a chain of two products. -/
def Arith.cross (o : Arith α) (a b : List α) : FlM (List α) :=
  [(1, 2), (2, 0), (0, 1)].mapM (fun (i, j) => do
    let x ← o.mul (o.at a i) (o.at b j)
    o.fma (o.neg (o.at a j)) (o.at b i) x)
/-- The cross-product matrix. -/
def Arith.hat (o : Arith α) (a : List α) : List (List α) :=
  let z := o.lit 0
  [[z, o.neg (o.at a 2), o.at a 1], [o.at a 2, z, o.neg (o.at a 0)], [o.neg (o.at a 1), o.at a 0, z]]
/-- A vector or quaternion divided by its Euclidean norm (R127). -/
def Arith.unit (o : Arith α) (v : List α) : FlM (List α) := do
  let q ← o.dot v v
  let n ← o.sqrt q
  v.mapM (fun x => o.div x n)

/-- The rotation matrix of a unit quaternion (w, x, y, z) by the standard formula (R126). -/
def Arith.quatRot (o : Arith α) (u : List α) : FlM (List (List α)) := do
  let w := o.at u 0
  let x := o.at u 1
  let y := o.at u 2
  let z := o.at u 3
  let two := o.lit (intW 2)
  let one := o.lit one64
  let diag (a b : α) : FlM α := do
    let s ← o.mul a a
    let t ← o.fma b b s
    let d ← o.mul two t
    o.sub one d
  let off (a b c d : α) : FlM α := do
    let s ← o.mul a b
    let t ← o.fma c d s
    o.mul two t
  let nw := o.neg w
  pure [[← diag y z, ← off x y nw z, ← off x z w y], [← off x y w z, ← diag x z, ← off y z nw x], [← off x z nw y, ← off y z w x, ← diag x y]]

/-- The right-handed rotation by θ about a unit axis: cos θ I + sin θ [a]× + (1 − cos θ) a aᵀ (R126). -/
def Arith.axisRot (o : Arith α) (a : List α) (theta : α) : FlM (List (List α)) := do
  let (s, c) ← o.sinCos theta
  let k ← o.sub (o.lit one64) c
  let h := o.hat a
  (List.range 3).mapM (fun i => (List.range 3).mapM (fun j => do
    let p ← o.mul (o.at a i) (o.at a j)
    let q ← o.mul k p
    if i = j then o.add c q else o.fma s (o.at (h.getD i []) j) q))

/-- A joint as the algorithms see it: origin and orientation of the child frame in the parent's, and the motion of each velocity
coordinate in the child frame, angular part first. -/
structure JointKin (α : Type) where
  /-- the child's origin in the parent frame -/
  p : List α
  /-- C: child to parent -/
  c : List (List α)
  /-- motion subspace: one 6-vector for each velocity coordinate -/
  s : List (List α)
  /-- the normalised quaternion of SPHERICAL and FREE joints, else empty -/
  u : List α
  /-- the rotation of that quaternion -/
  cu : List (List α)
deriving Inhabited

/-- The frame of a joint at its position coordinates (R126, R127, Table 5-2). -/
def Arith.jointKin (o : Arith α) (par : Nat → α) (j : JointRec) (q : List α) : FlM (JointKin α) := do
  let org := (List.range 3).map (fun i => par (j.origin + i))
  let qo ← o.unit ((List.range 4).map (fun i => par (j.origin + 3 + i)))
  let co ← o.quatRot qo
  let z := o.lit 0
  let one := o.lit one64
  let basis (k : Nat) : List α := (List.range 6).map (fun i => if i = k then one else z)
  match j.jtype with
  | 0 => do
    let a ← o.unit ((List.range 3).map (fun i => par (j.axis + i)))
    let r ← o.axisRot a (o.at q 0)
    let c ← o.mm 3 r co
    let ac ← o.mv (o.tr 3 co) a
    pure ⟨org, c, [ac ++ o.zeros 3], [], []⟩
  | 1 => do
    let a ← o.unit ((List.range 3).map (fun i => par (j.axis + i)))
    let p ← o.vfma (o.at q 0) a org
    let ac ← o.mv (o.tr 3 co) a
    pure ⟨p, co, [o.zeros 3 ++ ac], [], []⟩
  | 3 => do
    let u ← o.unit (q.take 4)
    let cu ← o.quatRot u
    let c ← o.mm 3 cu co
    pure ⟨org, c, (List.range 3).map basis, u, cu⟩
  | 4 => do
    let u ← o.unit ((q.drop 3).take 4)
    let cu ← o.quatRot u
    let c ← o.mm 3 cu co
    let p ← o.vadd org (q.take 3)
    pure ⟨p, c, [basis 3, basis 4, basis 5, basis 0, basis 1, basis 2], u, cu⟩
  | _ => pure ⟨org, co, [], [], []⟩

/-- A body of a tree beside its joint and that joint's coordinates; `up` is the parent's place in the tree's list. -/
structure TreeBody (α : Type) where
  /-- body -/
  b : BodyRec
  /-- its parent joint -/
  j : JointRec
  /-- place of the parent body in the list; none for the root -/
  up : Option Nat
  /-- first velocity index of the joint -/
  v0 : Nat
  /-- position coordinates -/
  q : List α
  /-- velocity coordinates -/
  qd : List α
  /-- generalised forces, or accelerations for RNEA -/
  tau : List α
deriving Inhabited

/-- A spatial motion from parent to child coordinates: (ω, v) becomes (Cᵀω, Cᵀ(v + ω × p)). -/
def Arith.toChild (o : Arith α) (k : JointKin α) (m : List α) : FlM (List α) := do
  let w := m.take 3
  let ct := o.tr 3 k.c
  let x ← o.cross w k.p
  let y ← o.vadd (m.drop 3) x
  let a ← o.mv ct w
  let b ← o.mv ct y
  pure (a ++ b)
/-- A spatial force from child to parent coordinates: (n, f) becomes (C n + p × C f, C f). -/
def Arith.toParent (o : Arith α) (k : JointKin α) (f : List α) : FlM (List α) := do
  let cf ← o.mv k.c (f.drop 3)
  let cn ← o.mv k.c (f.take 3)
  let x ← o.cross k.p cf
  let n ← o.vadd cn x
  pure (n ++ cf)
/-- Motion cross motion. -/
def Arith.crm (o : Arith α) (v m : List α) : FlM (List α) := do
  let a ← o.cross (v.take 3) (m.take 3)
  let b ← o.cross (v.take 3) (m.drop 3)
  let c ← o.cross (v.drop 3) (m.take 3)
  let d ← o.vadd b c
  pure (a ++ d)
/-- Motion cross force. -/
def Arith.crf (o : Arith α) (v f : List α) : FlM (List α) := do
  let a ← o.cross (v.take 3) (f.take 3)
  let b ← o.cross (v.drop 3) (f.drop 3)
  let c ← o.cross (v.take 3) (f.drop 3)
  let d ← o.vadd a b
  pure (d ++ c)

/-- Mass, centre of mass and inertia about it (Table 3-9). -/
def Arith.inertial (_o : Arith α) (par : Nat → α) (b : BodyRec) : α × List α × List (List α) :=
  let i (k : Nat) : α := par (b.inertia + k)
  (par b.mass, (List.range 3).map (fun k => par (b.com + k)), [[i 0, i 3, i 4], [i 3, i 1, i 5], [i 4, i 5, i 2]])
/-- The spatial inertia at the body's origin: [I_c + m ĉ ĉᵀ, m ĉ; m ĉᵀ, m 1]. -/
def Arith.spatialI (o : Arith α) (par : Nat → α) (b : BodyRec) : FlM (List (List α)) := do
  let (m, c, ic) := o.inertial par b
  let h := o.hat c
  let hh ← o.mm 3 h (o.tr 3 h)
  let up ← (ic.zip hh).mapM (fun (a, x) => o.vfma m x a)
  let mh ← h.mapM (o.vscale m)
  let mht := o.tr 3 mh
  let d := (List.range 3).map (fun i => (List.range 3).map (fun j => if i = j then m else o.lit 0))
  pure (((up.zip mh).map (fun (a, x) => a ++ x)) ++ ((mht.zip d).map (fun (a, x) => a ++ x)))

/-- Gravity (R130): 9.806 65 m/s² in the world −z direction. -/
def gravity64 : W64 := ratW 980665 100000
/-- Combination of a joint's motions with its coordinates. -/
def Arith.combine (o : Arith α) (s : List (List α)) (x : List α) : FlM (List α) :=
  (List.range 6).mapM (fun i => if s.isEmpty then pure (o.lit 0) else o.dot (s.map (fun c => o.at c i)) x)

/-- What forward kinematics knows of a body: joint frame, world rotation and origin, spatial velocity in its own frame. -/
structure BodyKin (α : Type) where
  /-- joint -/
  k : JointKin α
  /-- body to world -/
  rot : List (List α)
  /-- origin in the world -/
  pos : List α
  /-- spatial velocity (ω, v) in the body frame -/
  vel : List α
deriving Inhabited

/-- The operations that follow belong to an algorithm (0 FK, 1 RNEA, 2 ABA, 3 CRBA) on a body (Table 9-5). -/
def atBody (alg body : Nat) : FlM Unit := atSite (fun x => { x with location := alg + body * 2 ^ 16 })

/-- Forward kinematics (FK): bodies in ascending index, parents first. -/
def Arith.fk (o : Arith α) (par : Nat → α) (bs : List (TreeBody α)) : FlM (List (BodyKin α)) :=
  bs.foldlM (fun acc t => do
    atBody 0 t.b.body
    let k ← o.jointKin par t.j t.q
    let own ← o.combine k.s t.qd
    match t.up.bind (fun i => acc[i]?) with
    | none => pure (acc ++ [⟨k, k.c, k.p, own⟩])
    | some u => do
      let rot ← o.mm 3 u.rot k.c
      let off ← o.mv u.rot k.p
      let pos ← o.vadd u.pos off
      let x ← o.toChild k u.vel
      let vel ← o.vadd x own
      pure (acc ++ [⟨k, rot, pos, vel⟩])) []

/-- The world seen as accelerating upwards with gravity: the base acceleration of RNEA and ABA (R130). -/
def Arith.base (o : Arith α) : List α := o.zeros 5 ++ [o.lit gravity64]

/-- Spatial accelerations of the bodies at given joint accelerations, the base's gravity included. -/
def Arith.accels (o : Arith α) (alg : Nat) (bs : List (TreeBody α)) (ks : List (BodyKin α)) (qdd : List (List α)) : FlM (List (List α)) :=
  ((bs.zip ks).zip qdd).foldlM (fun acc ((t, k), a) => do
    atBody alg t.b.body
    let up := (t.up.bind (fun i => acc[i]?)).getD o.base
    let x ← o.toChild k.k up
    let own ← o.combine k.k.s t.qd
    let cv ← o.crm k.vel own
    let xs ← o.vadd x cv
    let sa ← o.combine k.k.s a
    let y ← o.vadd xs sa
    pure (acc ++ [y])) []

/-- Add a vector at one place of a list of vectors. -/
def Arith.addAt (o : Arith α) (l : List (List α)) (i : Nat) (v : List α) : FlM (List (List α)) := do
  let x ← o.vadd (l.getD i (o.zeros v.length)) v
  pure (l.set i x)

/-- Recursive Newton–Euler: the generalised forces at given accelerations, gravity included (Table 5-3, BIAS with none). -/
def Arith.rnea (o : Arith α) (par : Nat → α) (bs : List (TreeBody α)) (ks : List (BodyKin α)) (qdd : List (List α)) : FlM (List (List α)) := do
  let acc ← o.accels 1 bs ks qdd
  let fs ← ((bs.zip ks).zip acc).mapM (fun ((t, k), a) => do
    atBody 1 t.b.body
    let i ← o.spatialI par t.b
    let ia ← o.mv i a
    let iv ← o.mv i k.vel
    let x ← o.crf k.vel iv
    o.vadd ia x)
  let items := (bs.zip ks).zipIdx
  let r ← items.reverse.foldlM (fun (st : List (List α) × List (List α)) ((t, k), n) => do
    atBody 1 t.b.body
    let f := st.1.getD n (o.zeros 6)
    let tau ← k.k.s.mapM (fun s => o.dot s f)
    let up ← match t.up with
      | none => pure st.1
      | some u => do let g ← o.toParent k.k f; o.addAt st.1 u g
    pure (up, tau :: st.2)) (fs, [])
  pure r.2

/-- The 6×6 motion transform of a joint, parent to child. -/
def Arith.xform (o : Arith α) (k : JointKin α) : FlM (List (List α)) := do
  let ct := o.tr 3 k.c
  let cp ← o.mm 3 ct (o.hat k.p)
  let z := o.zeros 3
  pure (ct.map (fun r => r ++ z) ++ (cp.zip ct).map (fun (a, b) => a.map o.neg ++ b))
/-- Xᵀ I X. -/
def Arith.congr (o : Arith α) (x i : List (List α)) : FlM (List (List α)) := do
  let ix ← o.mm 6 i x
  o.mm 6 (o.tr 6 x) ix
/-- Sum of matrices. -/
def Arith.madd (o : Arith α) (a b : List (List α)) : FlM (List (List α)) := (a.zip b).mapM (fun p => o.vadd p.1 p.2)

/-- A joint's motion seen from its ancestors: M's entries between this joint's columns and theirs, up the tree. -/
def Arith.massUp (o : Arith α) (bs : List (TreeBody α)) (ks : List (BodyKin α)) : Nat → Nat → List (List α) → FlM (List (Nat × Nat × α))
  | 0, _, _ => pure []
  | n + 1, i, fs => do
    match (bs.zip ks)[i]? with
    | none => pure []
    | some (t, k) => do
      let here ← (k.k.s.zipIdx).mapM (fun (s, r) => (fs.zipIdx).mapM (fun (f, c) => do let m ← o.dot s f; pure (t.v0 + r, c, m)))
      match t.up with
      | none => pure (here.flatMap id)
      | some u => do
        let gs ← fs.mapM (o.toParent k.k)
        let rest ← o.massUp bs ks n u gs
        pure (here.flatMap id ++ rest)

/-- Composite-rigid-body algorithm: M as (row, column, value), the triangle that the recursion forms. -/
def Arith.crba (o : Arith α) (par : Nat → α) (bs : List (TreeBody α)) (ks : List (BodyKin α)) : FlM (List (Nat × Nat × α)) := do
  let is ← bs.mapM (fun t => do atBody 3 t.b.body; o.spatialI par t.b)
  let items := (bs.zip ks).zipIdx
  let comp ← items.reverse.foldlM (fun (st : List (List (List α))) ((t, k), n) => do
    atBody 3 t.b.body
    match t.up with
    | none => pure st
    | some u => do
      let x ← o.xform k.k
      let y ← o.congr x (st.getD n [])
      let z ← o.madd (st.getD u []) y
      pure (st.set u z)) is
  let parts ← items.mapM (fun ((t, k), n) => do
    atBody 3 t.b.body
    let fs ← k.k.s.mapM (fun s => o.mv (comp.getD n []) s)
    let l ← o.massUp bs ks 129 n fs
    pure (l.map (fun (r, c, m) => (r, t.v0 + c, m))))
  pure (parts.flatMap id)

/-- M as a full matrix of `n` rows: both triangles (Table 5-8). -/
def massMatrix (o : Arith α) (n : Nat) (l : List (Nat × Nat × α)) : List (List α) :=
  (List.range n).map (fun i => (List.range n).map (fun j =>
    match l.find? (fun e => (e.1 == i && e.2.1 == j) || (e.1 == j && e.2.1 == i)) with
    | some e => e.2.2
    | none => o.lit 0))

/-- Solve a small dense system by elimination without exchanges: the divides of a joint's articulated inertia (R133). -/
def Arith.solveSmall (o : Arith α) : Nat → List (List α × List α) → FlM (List (List α))
  | 0, _ => pure []
  | n + 1, rows =>
    match rows with
    | [] => pure []
    | (a, b) :: t => do
      let d := o.at a 0
      let rest ← t.mapM (fun (r, x) => do
        let k ← o.div (o.at r 0) d
        let r' ← o.vfma (o.neg k) (a.drop 1) (r.drop 1)
        let x' ← o.vfma (o.neg k) b x
        pure (r', x'))
      let tail ← o.solveSmall n rest
      let rhs ← (a.drop 1).zip tail |>.foldlM (fun acc (c, x) => o.vfma (o.neg c) x acc) b
      let x0 ← rhs.mapM (fun v => o.div v d)
      pure (x0 :: tail)

/-- A body on the way back through the articulated-body algorithm: U, D with its joint forces, and the velocity-product acceleration. -/
structure AbaBody (α : Type) where
  /-- U = I_A S, one 6-vector for each coordinate -/
  u : List (List α)
  /-- D = Sᵀ U -/
  d : List (List α)
  /-- τ − Sᵀ p_A -/
  f : List α
  /-- velocity-product acceleration -/
  c : List α
deriving Inhabited

/-- Articulated-body algorithm: joint accelerations, and the bodies' spatial accelerations with the base's gravity (R131, ABA). -/
def Arith.aba (o : Arith α) (par : Nat → α) (bs : List (TreeBody α)) (ks : List (BodyKin α)) : FlM (List (List α) × List (List α)) := do
  let start ← (bs.zip ks).mapM (fun (t, k) => do
    atBody 2 t.b.body
    let i ← o.spatialI par t.b
    let iv ← o.mv i k.vel
    let p ← o.crf k.vel iv
    let own ← o.combine k.k.s t.qd
    let c ← o.crm k.vel own
    pure (i, p, c))
  let items := (bs.zip ks).zipIdx
  let back ← items.reverse.foldlM (fun (st : List (List (List α) × List α × List α) × List (AbaBody α)) ((t, k), n) => do
    atBody 2 t.b.body
    let (ia, pa, c) := st.1.getD n default
    let us ← k.k.s.mapM (fun s => o.mv ia s)
    let d ← k.k.s.mapM (fun s => us.mapM (fun u => o.dot s u))
    let f ← (k.k.s.zip t.tau).mapM (fun (s, x) => do let y ← o.dot s pa; o.sub x y)
    let one : AbaBody α := ⟨us, d, f, c⟩
    match t.up with
    | none => pure (st.1, one :: st.2)
    | some up => do
      -- I_a = I_A − U D⁻¹ Uᵀ, p_a = p_A + I_a c + U D⁻¹ f
      let nv := us.length
      let ut := o.tr 6 us
      let sol ← o.solveSmall nv ((d.zip (us.zip f)).map (fun (r, u, x) => (r, u ++ [x])))
      let dinvU := sol.map (fun r => r.take 6)
      let dinvF := sol.map (fun r => o.at r 6)
      let sub ← if nv = 0 then pure ia else do
        let m ← o.mm 6 ut dinvU
        (ia.zip m).mapM (fun (a, b) => o.vsub a b)
      let x ← o.mv sub c
      let y ← o.vadd pa x
      let z ← if nv = 0 then pure y else do
        let g ← ut.mapM (fun r => o.dot r dinvF)
        o.vadd y g
      let xf ← o.xform k.k
      let iUp ← o.congr xf sub
      let pUp ← o.toParent k.k z
      let (ib, pb, cb) := st.1.getD up default
      let ib' ← o.madd ib iUp
      let pb' ← o.vadd pb pUp
      pure (st.1.set up (ib', pb', cb), one :: st.2)) (start, [])
  let r ← ((bs.zip ks).zip back.2).foldlM (fun (st : List (List α) × List (List α)) ((t, k), w) => do
    atBody 2 t.b.body
    let up := (t.up.bind (fun i => st.2[i]?)).getD o.base
    let x ← o.toChild k.k up
    let a' ← o.vadd x w.c
    let rhs ← (w.f.zip w.u).mapM (fun (f, u) => do let y ← o.dot u a'; o.sub f y)
    let q ← o.solveSmall w.u.length ((w.d.zip rhs).map (fun (r, x) => (r, [x])))
    let qdd := q.map (fun x => o.at x 0)
    let sa ← o.combine k.k.s qdd
    let a ← o.vadd a' sa
    pure (st.1 ++ [qdd], st.2 ++ [a])) ([], [])
  pure r

/-- QDOT of a joint (Table 5-3): the velocity, ½ u ⊗ (0, ω) for a quaternion, C × v for FREE translations. -/
def Arith.qdot (o : Arith α) (j : JointRec) (k : JointKin α) (qd : List α) : FlM (List α) := do
  let quat (w : List α) : FlM (List α) := do
    let half := o.lit (ratW 1 2)
    let u (i : Nat) : α := o.at k.u i
    let wx := o.at w 0
    let wy := o.at w 1
    let wz := o.at w 2
    let rows : List (List α × List α) :=
      [([o.neg (u 1), o.neg (u 2), o.neg (u 3)], [wx, wy, wz]), ([u 0, u 2, o.neg (u 3)], [wx, wz, wy]),
       ([u 0, u 3, o.neg (u 1)], [wy, wx, wz]), ([u 0, u 1, o.neg (u 2)], [wz, wy, wx])]
    rows.mapM (fun (a, b) => do let d ← o.dot a b; o.mul half d)
  match j.jtype with
  | 0 => pure (qd.take 1)
  | 1 => pure (qd.take 1)
  | 3 => quat (qd.take 3)
  | 4 => do
    let t ← o.mv k.cu (qd.take 3)
    let r ← quat ((qd.drop 3).take 3)
    pure (t ++ r)
  | _ => pure []

/-- The centre of mass of a body in the world. -/
def Arith.comWorld (o : Arith α) (par : Nat → α) (t : TreeBody α) (k : BodyKin α) : FlM (List α) := do
  let r ← o.mv k.rot ((List.range 3).map (fun i => par (t.b.com + i)))
  o.vadd k.pos r

/-- Kinetic energy of a body: ½ (ω · I_c ω + m v_c · v_c). -/
def Arith.kinetic (o : Arith α) (par : Nat → α) (t : TreeBody α) (k : BodyKin α) : FlM α := do
  let (m, c, ic) := o.inertial par t.b
  let w := k.vel.take 3
  let x ← o.cross w c
  let vc ← o.vadd (k.vel.drop 3) x
  let iw ← o.mv ic w
  let a ← o.dot w iw
  let b ← o.dot vc vc
  let s ← o.fma m b a
  o.mul (o.lit (ratW 1 2)) s

/-- A sum in ascending body order. -/
def Arith.sumUp (o : Arith α) (l : List α) : FlM α :=
  match l with
  | [] => pure (o.lit 0)
  | a :: t => t.foldlM o.add a

/-- The quantities of a tree at one point that the algorithms run by a stage have delivered. -/
structure TreeOut (α : Type) where
  /-- bodies -/
  bs : List (TreeBody α)
  /-- kinematics -/
  ks : List (BodyKin α)
  /-- ABA: joint accelerations and the bodies' spatial accelerations -/
  aba : List (List α) × List (List α)
  /-- RNEA at zero acceleration -/
  bias : List (List α)
  /-- CRBA -/
  mass : List (Nat × Nat × α)
deriving Inhabited

/-- A quantity of Table 5-3. -/
def Arith.quantity (o : Arith α) (par : Nat → α) (t : TreeOut α) (code sel el : Nat) : FlM α := do
  let body := (t.bs.zip t.ks).find? (fun x => x.1.b.body == sel)
  match code, body with
  | 1, some (_, k) => pure (if el < 3 then o.at k.pos el else o.at (k.rot.getD ((el - 3) / 3) []) ((el - 3) % 3))
  | 2, some (_, k) =>
    o.dot (k.rot.getD (el % 3) []) (if el < 3 then k.vel.take 3 else k.vel.drop 3)
  | 3, some (b, k) => do
    let a := ((t.bs.zip t.aba.2).find? (fun x => x.1.b.body == b.b.body)).map Prod.snd |>.getD (o.zeros 6)
    if el < 3 then o.dot (k.rot.getD el []) (a.take 3)
    else do
      let x ← o.cross (k.vel.take 3) (k.vel.drop 3)
      let y ← o.vadd (a.drop 3) x
      let w ← o.dot (k.rot.getD (el - 3) []) y
      if el = 5 then o.sub w (o.lit gravity64) else pure w
  | 4, some (b, k) => do let c ← o.comWorld par b k; pure (o.at c el)
  | 4, none => do
    let ms ← (t.bs.zip t.ks).mapM (fun (b, k) => do let c ← o.comWorld par b k; o.mul (par b.b.mass) (o.at c el))
    let n ← o.sumUp ms
    let d ← o.sumUp (t.bs.map (fun b => par b.b.mass))
    o.div n d
  | 5, _ => do
    let l ← (t.bs.zip t.ks).mapM (fun (b, k) => do let x ← o.qdot b.j k.k b.qd; pure (b.j.joint, x))
    let s := l.foldl (fun acc x => Image.insBy Prod.fst x acc) []
    pure (o.at (s.flatMap Prod.snd) el)
  | 6, _ =>
    if el = 0 then do let l ← (t.bs.zip t.ks).mapM (fun (b, k) => o.kinetic par b k); o.sumUp l
    else do
      let l ← (t.bs.zip t.ks).mapM (fun (b, k) => do
        let c ← o.comWorld par b k
        let g ← o.mul (par b.b.mass) (o.lit gravity64)
        o.mul g (o.at c 2))
      o.sumUp l
  | 0x10, _ => pure (((t.bs.zip t.aba.1).findSome? (fun (b, x) => if b.v0 ≤ el then x[el - b.v0]? else none)).getD (o.lit 0))
  | 0x11, _ => pure (((t.bs.zip t.bias).findSome? (fun (b, x) => if b.v0 ≤ el then x[el - b.v0]? else none)).getD (o.lit 0))
  | 0x12, _ =>
    pure (match t.mass.find? (fun e => (e.1 == sel && e.2.1 == el) || (e.1 == el && e.2.1 == sel)) with
      | some e => e.2.2
      | none => o.lit 0)
  | _, _ => pure (o.lit 0)

/-- The algorithms that quantity codes need (after R130): ABA, RNEA, CRBA; FK always. -/
def Arith.tree (o : Arith α) (par : Nat → α) (bs : List (TreeBody α)) (codes : List Nat) : FlM (TreeOut α) := do
  let ks ← o.fk par bs
  let aba ← if codes.any (fun c => c == 3 || c == 0x10) then o.aba par bs ks else pure ([], [])
  let bias ← if codes.contains 0x11 then o.rnea par bs ks (bs.map (fun b => o.zeros b.qd.length)) else pure []
  let mass ← if codes.contains 0x12 then o.crba par bs ks else pure []
  pure ⟨bs, ks, aba, bias, mass⟩

end

/-- The bodies of a root's tree with their joints (R128): position and velocity indices count in ascending joint index. `q`, `qd` and `tau` give
the coordinates by joint and place; bodies come in ascending index, so parents before children. -/
def treeOf' {α : Type} (im : Image) (root : Nat) (q qd tau : JointRec → Nat → Nat → α) : List (TreeBody α) :=
  let js := im.treeJoints root
  let ids := (im.treeBodies root).map BodyRec.body
  let before (j : JointRec) : Nat × Nat := (js.takeWhile (fun x => x.joint != j.joint)).foldl
    (fun n x => let c := Image.jointCoords x.jtype; (n.1 + c.1, n.2 + c.2)) (0, 0)
  (im.treeBodies root).filterMap (fun b => (im.findJoint b.parentJoint).map (fun j =>
    let c := Image.jointCoords j.jtype
    let f := before j
    { b, j, up := if j.parent = 0xFFFF then none else ids.idxOf? j.parent, v0 := f.2,
      q := (List.range c.1).map (fun i => q j (f.1 + i) i), qd := (List.range c.2).map (fun i => qd j (f.2 + i) i),
      tau := (List.range c.2).map (fun i => tau j (f.2 + i) i) }))

/-- Velocity-index order of a list kept by bodies. -/
def byVel {α : Type} [Inhabited α] (bs : List (TreeBody α)) (l : List (List α)) : List α :=
  (((bs.zip l).map (fun (b, x) => (b.v0, x))).foldl (fun acc x => Image.insBy Prod.fst x acc) []).flatMap Prod.snd

/-- Solve M x = b for several right sides at once, one list of columns per row. -/
def massSolve (m : List (List W64)) (rhs : List (List W64)) : FlM (List (List W64)) :=
  plainArith.solveSmall m.length (m.zip rhs)

/-- A parameter the JDU reads (R124): a NaN is canonical where it is delivered (R209). -/
def paramAt (params : List W64) (i : Nat) : W64 := params.getD i 0

/-- The variable that holds a joint's coordinate at a stage (R129): kind 0 position, 1 velocity, 2 generalised force; none for a force outside
the stage's variables or without TAU_VAR, which is taken as zero. -/
def coordVar (im : Image) (st : StageRec) (j : JointRec) (kind i : Nat) : Option Nat :=
  let sp := im.stageSpan st.stage
  match kind with
  | 0 => some (sp.1 + j.q + i)
  | 1 => some (sp.1 + j.qd + i)
  | _ => if j.tau = noneRef ∨ sp.2 ≤ j.tau + i then none else some (sp.1 + j.tau + i)

/-- The tree of a stage's TREE_ROOT over a reading of the variables. -/
def stageTree {α : Type} (im : Image) (st : StageRec) (zero : α) (rd : Nat → α) : List (TreeBody α) :=
  let c (kind : Nat) (j : JointRec) (_ i : Nat) : α := match coordVar im st j kind i with | some v => rd v | none => zero
  treeOf' im st.treeRoot (c 0) (c 1) (c 2)

/-- The values of a stage's JDU_OUT nodes, given by quantity code, selector and element (R124, R131), and what the algorithms delivered. -/
def jduValues (im : Image) (st : StageRec) (params vars : List W64) (qs : List (Nat × Nat × Nat)) : FlM (TreeOut W64 × List W64) := do
  let par := paramAt params
  let t ← plainArith.tree par (stageTree im st 0 (fun v => vars.getD v 0)) (qs.map Prod.fst)
  let vs ← qs.mapM (fun q => plainArith.quantity par t q.1 q.2.1 q.2.2)
  pure (t, vs.map (fun v => b64 (canon f64 v.toNat)))

/-- The tree with the tangent along one variable. -/
def dualTree (im : Image) (st : StageRec) (vars : List W64) (d : Nat) : List (TreeBody Dual) :=
  stageTree im st ((0, none) : Dual) (fun v => (vars.getD v 0, if v = d then some one64 else none))

/-- The tangents of the joint accelerations along each variable (R132): M⁻¹ times the force's own tangent less RNEA's at the accelerations
computed. -/
def qddTangents (im : Image) (st : StageRec) (params vars : List W64) (t : TreeOut W64) (ds : List Nat) : FlM (List (List W64)) := do
  let nv := (t.bs.map (fun b => b.qd.length)).foldl (· + ·) 0
  let ml ← plainArith.crba (paramAt params) t.bs t.ks
  let m := massMatrix plainArith nv ml
  let cols ← ds.mapM (fun d => do
    let par (i : Nat) : Dual := (paramAt params i, none)
    let bs := dualTree im st vars d
    let ks ← dualArith.fk par bs
    let r ← dualArith.rnea par bs ks (t.aba.1.map (fun a => a.map (fun x => (x, none))))
    let force := byVel bs (bs.map (fun b => b.tau.map (fun x => ((orZero x.2 : W64), (none : Option W64)))))
    let id := byVel bs r
    (force.zip id).mapM (fun (f, x) => match x.2 with
      | none => pure f.1
      | some y => if f.1 = 0 then pure (negW y) else nSub f.1 y))
  let sol ← massSolve m ((List.range nv).map (fun i => cols.map (fun c => c.getD i 0)))
  pure ((List.range ds.length).map (fun k => sol.map (fun r => r.getD k 0)))

/-- The exact first derivatives of a stage's JDU_OUT nodes (R132): for each node one value for each variable of `ds`. -/
def jduRows (im : Image) (st : StageRec) (params vars : List W64) (qs : List (Nat × Nat × Nat)) (t : TreeOut W64) (ds : List Nat) :
    FlM (List (List W64)) := do
  let codes := qs.map Prod.fst
  let par (i : Nat) : Dual := (paramAt params i, none)
  atSite (fun x => { x with phase := 1 })
  let needA := codes.any (fun c => c == 3 || c == 0x10)
  let qt ← if needA then qddTangents im st params vars t ds else pure []
  let cols ← (ds.zipIdx).mapM (fun (d, k) => do
    let bs := dualTree im st vars d
    let ks ← dualArith.fk par bs
    let qdd : List (List Dual) := (t.bs.zip t.aba.1).map (fun (b, a) =>
      a.zipIdx.map (fun (x, i) => (x, if needA then some ((qt.getD k []).getD (b.v0 + i) 0) else none)))
    let acc ← if codes.contains 3 then dualArith.accels 2 bs ks qdd else pure []
    let bias ← if codes.contains 0x11 then dualArith.rnea par bs ks (bs.map (fun b => dualArith.zeros b.qd.length)) else pure []
    let mass ← if codes.contains 0x12 then dualArith.crba par bs ks else pure []
    let out : TreeOut Dual := ⟨bs, ks, (qdd, acc), bias, mass⟩
    qs.mapM (fun q => do let x ← dualArith.quantity par out q.1 q.2.1 q.2.2; pure (b64 (canon f64 (orZero x.2).toNat))))
  atSite (fun x => { x with phase := 0 })
  pure ((List.range qs.length).map (fun i => cols.map (fun c => c.getD i 0)))

end Sys2Proof.Machine
end

