-- ==== Sys2Proof/Machine/Tensor.lean ====
section
/-! DEFINITION. Learned-model evaluation (R164 to R181): the layers of a model over its columns, values and the
derivative rows of forward and reverse tangent batching, in the exact arithmetic of `Tfmt`. -/
namespace Sys2Proof.Machine

/-- What a model evaluation knows besides the image: problem, steep, evaluation index, stage, training pass, weights,
context vectors (entry 1 first) and rounding mode. -/
structure EvalKey where
  /-- problem ID -/
  problem : Nat
  /-- word b of Table 8-3 -/
  b : W64
  /-- word c of Table 8-3 -/
  c : W64
  /-- stage -/
  stage : Nat
  /-- training work -/
  training : Bool := false
  /-- mode of the vector-engine steps -/
  rnd : Rnd := .rne
  /-- column of the primal pass in the key: 0, or a sample's position in training (R237) -/
  col0 : Nat := 0
deriving DecidableEq, Repr, Inhabited

/-- The draw of one element, where the layer rounds stochastically (R203, R204). -/
def evalDraw (k : EvalKey) (m : ModelRec) (l : LayerRec) (li col : Nat) (backward : Bool) (row : Nat) : Option Nat :=
  if l.round = 1 then some (srDraw (srKeyA k.problem m.model li (k.col0 + col) row k.stage k.training backward) k.b k.c) else none

/-- binary32 1. -/
def one32 : Nat := 0x3F800000
/-- binary32 constant ε = 2^-20 (R170). -/
def eps32 : Nat := 0x35800000

/-- Vector-engine operations that gather scalar flags. -/
def vAdd (r : Rnd) (a b : Nat) : FlM Nat := sop 0x10 a b 0 (fadd f32 r a b)
/-- SUB. -/
def vSub (r : Rnd) (a b : Nat) : FlM Nat := sop 0x11 a b 0 (fsub f32 r a b)
/-- MUL. -/
def vMul (r : Rnd) (a b : Nat) : FlM Nat := sop 0x12 a b 0 (fmul f32 r a b)
/-- DIV. -/
def vDiv (r : Rnd) (a b : Nat) : FlM Nat := sop 0x14 a b 0 (fdiv f32 r a b)

/-- EXP. -/
def vExp (r : Rnd) (a : Nat) : FlM Nat := sop 0x25 a 0 0 (fexp f32 r a)
/-- LOG. -/
def vLog (r : Rnd) (a : Nat) : FlM Nat := sop 0x26 a 0 0 (flog f32 r a)
/-- TANH. -/
def vTanh (r : Rnd) (a : Nat) : FlM Nat := sop 0x27 a 0 0 (ftanh f32 r a)
/-- SQRT. -/
def vSqrt (r : Rnd) (a : Nat) : FlM Nat := sop 0x15 a 0 0 (fsqrt f32 r a)
/-- MAX. -/
def vMax (a b : Nat) : FlM Nat := sop 0x19 a b 0 (fmax f32 a b)

/-- The operations that follow belong to a layer and column of a model at a stage (LOCATION of VECTOR, Table 9-5), output row 0. -/
def atLayer (m : ModelRec) (li col : Nat) : FlM Unit :=
  atSite (fun x => { x with location := m.model % 16 + li % 64 * 2 ^ 4 + col % 1024 * 2 ^ 10, phase := if col = 0 then 0 else 1 })
/-- The operations that follow belong to an output row of the present column. -/
def atRow (i : Nat) : FlM Unit := atSite (fun x => { x with location := x.location % 2 ^ 20 + i * 2 ^ 20 })
/-- Work on every row of a column in ascending order. -/
def mapRows (f : α → FlM β) (l : List α) : FlM (List β) := do
  let out ← (l.zipIdx).mapM (fun (x, i) => do atRow i; f x)
  atRow 0
  pure out

/-- One level of the vector engine's pairwise tree. -/
def vLevel (r : Rnd) : List Nat → FlM (List Nat)
  | a :: b :: t => do
    let x ← vAdd r a b
    let y ← vLevel r t
    pure (x :: y)
  | l => pure l
/-- A tree of at most `n` levels. -/
def vTree (r : Rnd) : Nat → List Nat → FlM Nat
  | 0, l => pure (l.headD 0)
  | n + 1, l => if l.length ≤ 1 then pure (l.headD 0) else do let y ← vLevel r l; vTree r n y
/-- The sum over a column: leaves of 32 padded with +0, then the tree over leaves (R170, R195). -/
def vSum (r : Rnd) (l : List Nat) : FlM Nat := do
  let leaves ← (chunk32 0 (nChunks l.length) l).mapM (vTree r 6)
  vTree r 12 leaves

/-- SIGMOID(z) (Table 7-6). -/
def vSigmoid (r : Rnd) (z : Nat) : FlM Nat := do
  let e ← vExp r (fneg f32 z).v
  let d ← vAdd r one32 e
  vDiv r one32 d

/-- An element-wise activation and its derivative at `z` (Table 7-6); the derivative only where asked. -/
def vAct (r : Rnd) (act : Nat) (wantD : Bool) (z : Nat) : FlM (Nat × Nat) := do
  match act with
  | 1 =>
    let y ← vMax z 0
    pure (y, if fltF f32 0 z then one32 else 0)
  | 2 =>
    let t ← vTanh r z
    if wantD then
      let q ← vMul r t t
      let d ← vSub r one32 q
      pure (t, d)
    else pure (t, 0)
  | 3 =>
    let s ← vSigmoid r z
    if wantD then
      let q ← vSub r one32 s
      let d ← vMul r s q
      pure (s, d)
    else pure (s, 0)
  | 4 =>
    let z2 ← vMul r z z
    let z3 ← vMul r z2 z
    let p ← vMul r 0x3D372713 z3
    let q ← vAdd r z p
    let u ← vMul r 0x3F4C422A q
    let t ← vTanh r u
    let ot ← vAdd r one32 t
    let hz ← vMul r 0x3F000000 z
    let y ← vMul r hz ot
    if wantD then
      let h ← vMul r 0x3F000000 ot
      let tt ← vMul r t t
      let dt ← vSub r one32 tt
      let c3 ← vMul r 0x3E095D4F z2
      let du ← vAdd r one32 c3
      let cu ← vMul r 0x3F4C422A du
      let g ← vMul r hz dt
      let gg ← vMul r g cu
      let d ← vAdd r h gg
      pure (y, d)
    else pure (y, 0)
  | 5 =>
    let s ← vSigmoid r z
    let y ← vMul r z s
    if wantD then
      let q ← vSub r one32 s
      let w ← vMul r y q
      let d ← vAdd r s w
      pure (y, d)
    else pure (y, 0)
  | 6 =>
    let a ← vMax z 0
    let e ← vExp r (fneg f32 (fabs f32 z).v).v
    let o ← vAdd r one32 e
    let g ← vLog r o
    let y ← vAdd r a g
    if wantD then
      let s ← vSigmoid r z
      pure (y, s)
    else pure (y, 0)
  | _ => pure (z, one32)

/-- Element-wise map of two lists. -/
def zipM (f : Nat → Nat → FlM Nat) (a b : List Nat) : FlM (List Nat) := mapRows (fun (x, y) => f x y) (a.zip b)

/-- Normalisation statistics of a primal column: mean, deviations, root and normalised values (Table 7-6). -/
structure NormStat where
  /-- deviations from the mean (LAYERNORM) or the values (RMSNORM) -/
  dev : List Nat
  /-- SQRT of the variance or mean square plus ε -/
  root : Nat
deriving DecidableEq, Repr, Inhabited

/-- The statistics of R170. -/
def normStat (r : Rnd) (norm : Nat) (xs : List Nat) : FlM NormStat := do
  let w := (ofIntF f32 r xs.length).v
  let dev ← if norm = 1 then do
      let s ← vSum r xs
      let mn ← vDiv r s w
      mapRows (fun x => vSub r x mn) xs
    else pure xs
  let sq ← mapRows (fun d => vMul r d d) dev
  let s ← vSum r sq
  let v ← vDiv r s w
  let e ← vAdd r v eps32
  let root ← vSqrt r e
  pure ⟨dev, root⟩

/-- NORM applied to a primal column. -/
def applyNorm (r : Rnd) (norm : Nat) (g h : List Nat) (st : NormStat) (xs : List Nat) : FlM (List Nat) := do
  if norm = 0 then pure xs
  else
    let a ← zipM (vMul r) g st.dev
    let b ← mapRows (fun x => vDiv r x st.root) a
    if norm = 1 then zipM (vAdd r) b h else pure b

/-- The Jacobian of NORM applied to a tangent column. -/
def normTangent (r : Rnd) (norm : Nat) (g : List Nat) (st : NormStat) (v : List Nat) : FlM (List Nat) := do
  if norm = 0 then pure v
  else
    let w := (ofIntF f32 r v.length).v
    let xh ← mapRows (fun x => vDiv r x st.root) st.dev
    let pr ← zipM (vMul r) xh v
    let s ← vSum r pr
    let m ← vDiv r s w
    let corr ← mapRows (fun x => vMul r x m) xh
    let base ← if norm = 1 then do
        let sv ← vSum r v
        let mv ← vDiv r sv w
        mapRows (fun x => vSub r x mv) v
      else pure v
    let d ← zipM (vSub r) base corr
    let gd ← zipM (vMul r) g d
    mapRows (fun x => vDiv r x st.root) gd

/-- The transposed Jacobian of NORM applied to a cotangent column (R178). -/
def normCotangent (r : Rnd) (norm : Nat) (g : List Nat) (st : NormStat) (c : List Nat) : FlM (List Nat) := do
  if norm = 0 then pure c
  else do
    let gc ← zipM (vMul r) g c
    normTangent r norm (List.replicate c.length one32) st gc

/-- SOFTMAX of a column. -/
def softmax (r : Rnd) (zs : List Nat) : FlM (List Nat) := do
  let mx ← zs.foldlM (fun a z => vMax a z) (zs.headD 0)
  let es ← mapRows (fun z => do let d ← vSub r z mx; vExp r d) zs
  let s ← vSum r es
  mapRows (fun e => vDiv r e s) es

/-- The tangent of SOFTMAX: p ⊙ (v − Σ p v); the matrix is symmetric, so it serves cotangents too. -/
def softmaxTangent (r : Rnd) (p v : List Nat) : FlM (List Nat) := do
  let pv ← zipM (vMul r) p v
  let s ← vSum r pv
  zipM (fun pi vi => do let d ← vSub r vi s; vMul r pi d) p v

/-- What a layer leaves behind on the primal column: normalisation statistics, activation values, derivatives, and
which rows the clip acted on. -/
structure LayerTrace where
  /-- statistics of NORM -/
  st : NormStat
  /-- activation output -/
  y : List Nat
  /-- activation derivative -/
  d : List Nat
  /-- rows clipped -/
  clip : List Bool
deriving DecidableEq, Repr, Inhabited

/-- The arrays of a layer in a weight area. -/
structure LayerData where
  /-- descriptor -/
  l : LayerRec
  /-- input width -/
  k : Nat
  /-- element values of each row, and block exponents -/
  rows : List (List Nat × List Int)
  /-- a weight is a BF16 subnormal, which R189 flushes at every use -/
  den : Bool
  /-- bias -/
  bias : List Nat
  /-- scale -/
  scale : List Nat
  /-- gain -/
  gain : List Nat
  /-- shift -/
  shift : List Nat
deriving DecidableEq, Repr, Inhabited

/-- Read a layer's arrays from the weights in force (R190). -/
def layerData (m : ModelRec) (w : List Byte) (k : Nat) (l : LayerRec) : LayerData :=
  { l, k,
    den := l.kind == 1 && (weightRows m.fmt k w l).any (fun r => (r.1.take k).any (fun c => (readElem m.fmt c).2))
    rows := if l.kind = 0 then [] else (weightRows m.fmt k w l).map (fun r =>
      (r.1.map (fun c => (numToF32 (readElem m.fmt c).1).v), r.2.map (fun (s : Nat) => Int.ofNat s - 127))),
    bias := layerArr w l.bOff l.width 0
    scale := layerArr w l.sOff l.width one32,
    gain := layerArr w l.gOff l.width one32, shift := layerArr w l.hOff l.width 0 }

/-- Deliver a column of layer `li` in its output format, or as exact binary32 from the last layer (R169, R175). -/
def layerOut (key : EvalKey) (m : ModelRec) (ld : LayerData) (li col : Nat) (vs : List Nat) : FlM Act :=
  toAct m.passes ld.l.outFmt (ld.l.ovf == 1) (evalDraw key m ld.l li col false) vs

/-- Add the SKIP layer's delivered values (step 2 of R169). -/
def addSkip (r : Rnd) (zs : List Nat) (sk : Option Act) : FlM (List Nat) :=
  match sk with
  | none => pure zs
  | some a => mapRows (fun (z, v) => match decodeF f32 z, v with
      | .fin s m e, .fin t n d => let x := sumExact s m e t n d; sop 0x10 z (numToF32 v).v 0 (roundSum f32 r s t x.1 x.2)
      | _, v => vAdd r z (numToF32 v).v) (zs.zip a.exact)

/-- The INPUT descriptor on binary64 inputs or context vectors, up to the clip (end of R169): an input's channel is its index. -/
def inputColumn (m : ModelRec) (ld : LayerData) (xs : List W64) : FlM (List Nat) :=
  (xs.zipIdx).mapM (fun (x, j) => do
    let i := j % m.nIn
    let c := fconv f64 f32 .rne x.toNat
    if c.fl.getLsbD 2 then raiseT tOvf
    let y ← scaleBias (ld.scale.getD i one32) c.v (ld.bias.getD i 0)
    pure (clipF ld.l.clipLo ld.l.clipHi y))

/-- The current inputs as the first DENSE layer's operand (R169). -/
def inputLayer (key : EvalKey) (m : ModelRec) (ld : LayerData) (xs : List W64) : FlM Act := do
  let vs ← inputColumn m ld xs
  toAct m.passes ld.l.outFmt (ld.l.ovf == 1) (evalDraw key m ld.l 0 0 false) vs

/-- The context as the first DENSE layer's operand (R181): the one computed in the steep's first evaluation, for all its stages and evaluations,
so its draws are those of evaluation 0 and of the first stage that evaluates the model (log entry 110). Its chunks are those of the input
dimension, so a chunk that it shares with the current inputs starts with zeros. -/
def contextLayer (im : Image) (key : EvalKey) (m : ModelRec) (ld : LayerData) (xs : List W64) : FlM Act := do
  let vs ← inputColumn m ld xs
  let k := if key.training then key else { key with c := 0, stage := (im.modelStages m.model).headD 0 }
  let pad := m.nIn % 32
  toAct m.passes ld.l.outFmt (ld.l.ovf == 1) (fun i => evalDraw k m ld.l 0 0 false (m.nIn - pad + i)) (List.replicate pad 0 ++ vs)

/-- One DENSE layer on the primal column (R169): the delivered operand and its trace. `ctx` is the context operand of
the first DENSE layer (R181). -/
def densePrimal (key : EvalKey) (m : ModelRec) (ld : LayerData) (li : Nat) (x : Act) (ctx : Option (Nat × Act)) (sk : Option Act)
    (wantD : Bool) : FlM (Act × LayerTrace) := do
  let r := key.rnd
  atLayer m li 0
  let kx := match ctx with | some (n, _) => ld.k - n | none => ld.k
  if ld.den then raiseT tDen
  let acc ← ld.rows.mapM (fun w => do
    let a ← accRow kx x (w.1.take kx) w.2
    match ctx with
    | none => pure a
    | some (n, c) =>
      let b ← accRow (kx % 32 + n) c (List.replicate (kx % 32) 0 ++ w.1.drop kx) (w.2.drop (kx / 32))
      accAdd a b)
  let z ← (acc.zip (ld.scale.zip ld.bias)).mapM (fun (a, s, b) => scaleBias s a b)
  let z2 ← addSkip r z sk
  let st ← if ld.l.norm = 0 then pure ⟨[], 0⟩ else normStat r ld.l.norm z2
  let z3 ← applyNorm r ld.l.norm ld.gain ld.shift st z2
  let (y, d) ← if ld.l.act = 7 then do
      let p ← softmax r z3
      pure (p, p)
    else do
      let yd ← mapRows (vAct r ld.l.act wantD) z3
      pure (yd.map Prod.fst, yd.map Prod.snd)
  let out ← layerOut key m ld li 0 (y.map (clipF ld.l.clipLo ld.l.clipHi))
  pure (out, ⟨st, y, d, y.map (clipped ld.l.clipLo ld.l.clipHi)⟩)

/-- One DENSE layer on a tangent column (R177). -/
def denseTangent (key : EvalKey) (m : ModelRec) (ld : LayerData) (li col : Nat) (tr : LayerTrace) (x : Act) (nx : Nat) (sk : Option Act) : FlM Act := do
  let r := key.rnd
  atLayer m li col
  let acc ← ld.rows.mapM (fun w => accRow nx x (w.1.take nx) w.2)
  let z ← (acc.zip ld.scale).mapM (fun (a, s) => scaleBias s a 0)
  let z2 ← addSkip r z sk
  let z3 ← normTangent r ld.l.norm ld.gain tr.st z2
  let z4 ← if ld.l.act = 7 then softmaxTangent r tr.y z3 else if ld.l.act = 0 then pure z3 else zipM (vMul r) tr.d z3
  layerOut key m ld li col ((z4.zip tr.clip).map (fun (v, c) => if c then 0 else v))

/-- The outputs of the last layer as binary64 (R175): the exact value delivered. -/
def outValues (a : Act) : List W64 := a.exact.map (fun v => match v with
  | .fin s m e => BitVec.ofNat 64 (roundF f64 .rne s m e).v
  | .inf s => BitVec.ofNat 64 (infOf f64 s)
  | .nan _ => BitVec.ofNat 64 f64.nanBits)

/-- The inputs that the INPUT descriptor clipped on the primal column (R177). -/
def inputClips (m : ModelRec) (ld : LayerData) (xs : List W64) : List Bool :=
  (xs.zipIdx).map (fun (x, j) =>
    clipped ld.l.clipLo ld.l.clipHi
      (ffma f32 .rne (ld.scale.getD (j % m.nIn) one32) (fconv f64 f32 .rne x.toNat).v (ld.bias.getD (j % m.nIn) 0)).v)

/-- Column `i` of a tangent seed (R177): 1 at row `i - 1`, scaled by the INPUT descriptor, zero where it clipped the primal input. -/
def seedColumn (key : EvalKey) (m : ModelRec) (ld : LayerData) (clips : List Bool) (i : Nat) : FlM Act := do
  let vs ← (List.range m.nIn).mapM (fun j =>
    if j + 1 = i && !clips.getD j false then scaleBias (ld.scale.getD j one32) one32 0 else pure 0)
  toAct m.passes ld.l.outFmt (ld.l.ovf == 1) (evalDraw key m ld.l 0 i false) vs

/-- The primal pass over the DENSE layers, keeping every delivered operand and trace, newest first. -/
def primalPass (key : EvalKey) (m : ModelRec) (ctx : Option (Nat × Act)) (wantD : Bool) :
    List (LayerData × Nat) → List (Act × LayerTrace) → FlM (List (Act × LayerTrace))
  | [], acc => pure acc
  | (ld, li) :: t, acc => do
    let x := ((acc.head?).map Prod.fst).getD default
    let sk := if ld.l.skip = 0xFFFF then none else (acc.reverse[ld.l.skip]?).map Prod.fst
    let o ← densePrimal key m ld li x (if li = 1 then ctx else none) sk wantD
    primalPass key m ctx wantD t (o :: acc)

/-- A tangent column through the DENSE layers (R177). -/
def tangentPass (key : EvalKey) (m : ModelRec) (col : Nat) : List (LayerData × Nat × LayerTrace) → List Act → FlM (List Act)
  | [], acc => pure acc
  | (ld, li, tr) :: t, acc => do
    let x := acc.headD default
    let sk := if ld.l.skip = 0xFFFF then none else acc.reverse[ld.l.skip]?
    let nx := if li = 1 then m.nIn else ld.k
    let o ← denseTangent key m ld li col tr x nx sk
    tangentPass key m col t (o :: acc)

/-- Transpose the weight rows: entry `j` holds column `j`, each element with the exponent of its own block (R178, R202). -/
def transposed (ld : LayerData) (n : Nat) : List (List (Nat × Int)) :=
  (List.range n).map (fun j => ld.rows.map (fun r => (r.1.getD j 0, r.2.getD (j / 32) 0)))

/-- What one layer of a backward column yields for its own weights (R178, R237). -/
structure LayerGrad where
  /-- layer descriptor index -/
  li : Nat
  /-- cotangent of the scale-and-bias result, one value per output -/
  bias : List Nat
  /-- the backward operand, which meets the transposed weights -/
  back : Act
deriving DecidableEq, Repr, Inhabited

/-- A cotangent column backward through the DENSE layers, last first (R178): the input's cotangents and what each layer yields. `pend` holds
cotangents owed to earlier layers by SKIP additions. Training has no use for the input's cotangents. -/
def cotangentPass (key : EvalKey) (m : ModelRec) (col : Nat) : List (LayerData × Nat × LayerTrace × Nat) → List Nat →
    List (Nat × List Nat) → List LayerGrad → FlM (List Nat × List LayerGrad)
  | [], c, _, gs => pure (c, gs)
  | (ld, li, tr, prevFmt) :: t, c, pend, gs => do
    let r := key.rnd
    atLayer m li col
    let owed := pend.filter (fun p => p.1 == li)
    let c ← owed.foldlM (fun c p => zipM (vAdd r) c p.2) c
    let c1 := (c.zip tr.clip).map (fun (v, k) => if k then 0 else v)
    let c2 ← if ld.l.act = 7 then softmaxTangent r tr.y c1 else if ld.l.act = 0 then pure c1 else zipM (vMul r) tr.d c1
    let c3 ← normCotangent r ld.l.norm ld.gain tr.st c2
    let pend' := if ld.l.skip = 0xFFFF then pend else (ld.l.skip, c3) :: pend
    let c4 ← (c3.zip ld.scale).mapM (fun (v, s) => scaleBias s v 0)
    let n := if li = 1 then m.nIn else ld.k
    let x ← toAct m.passes prevFmt (ld.l.ovf == 1) (evalDraw key m ld.l li col true) c4
    let acc ← if key.training && li == 1 then pure [] else (transposed ld n).mapM (accRowT ld.l.width x)
    cotangentPass key m col t acc pend' (⟨li, c3, x⟩ :: gs)

/-- The primal pass of a model on one column (R169, R171, R181): the DENSE layers with their indices, the INPUT descriptor's data, the context
operand and, newest first, every delivered operand with its trace. -/
def modelPrimal (im : Image) (key : EvalKey) (m : ModelRec) (w : List Byte) (xs : List W64) (ctx : List W64) (wantD : Bool) :
    FlM (List (LayerData × Nat) × LayerData × Option (Nat × Act) × List (Act × LayerTrace)) := do
  let ls := im.layersOf m
  let lds := (ls.zip (layerInputs m ls)).map (fun (l, k) => layerData m w k l)
  let inp := lds.headD default
  let x0 ← inputLayer key m inp xs
  let cx ← if m.ctx = 0 then pure none else do
    let c ← contextLayer im key m inp ctx
    pure (some (m.nIn * m.ctx, c))
  let dense := (lds.zipIdx).drop 1
  let tr ← primalPass key m cx wantD dense [(x0, default)]
  pure (dense, inp, cx, tr)

/-- The layers as a backward column takes them: data, index, trace and the format of the activation operand (R178). -/
def backItems (ls : List LayerRec) (dense : List (LayerData × Nat)) (tr : List (Act × LayerTrace)) : List (LayerData × Nat × LayerTrace × Nat) :=
  (dense.zip ((tr.reverse.drop 1).map Prod.snd)).map (fun (a, b) => (a.1, a.2, b, ((ls[a.2 - 1]?).map LayerRec.outFmt).getD 0))

/-- Evaluate model `m` at one stage (R171 to R179): outputs, and with `wantD` the derivative rows, one list of `t`
values per output. Its vector-engine operations stand under UNIT 2 (Table 9-4). -/
def evalModel (im : Image) (key : EvalKey) (m : ModelRec) (w : List Byte) (xs : List W64) (ctx : List (List W64)) (wantD : Bool) :
    FlM (List W64 × List (List W64)) := do
  let old := (← get).site
  atSite (fun _ => { unit := 2, width32 := true, stage := key.stage })
  let (dense, inp, _, tr) ← modelPrimal im key m w xs (ctx.flatMap id) wantD
  let outs := outValues ((tr.headD default).1)
  let clips := inputClips m inp xs
  let rows ← if !wantD then pure []
    else if inp.l.diff = 0 then do
      let traces := (tr.reverse.drop 1).map Prod.snd
      let cols ← (List.range (Image.tangentsOf m)).mapM (fun i => do
        let s ← seedColumn key m inp clips (i + 1)
        let o ← tangentPass key m (i + 1) ((dense.zip traces).map (fun (a, b) => (a.1, a.2, b))) [s]
        pure (outValues (o.headD default)))
      pure ((List.range m.nOut).map (fun r => cols.map (fun c => c.getD r 0)))
    else do
      let items := (backItems (im.layersOf m) dense tr).reverse
      (List.range m.nOut).mapM (fun r => do
        let seed := (List.range m.nOut).map (fun i => if i = r then one32 else 0)
        let c ← cotangentPass key m (r + 1) items seed [] []
        let sc ← ((c.1.zip inp.scale).zip clips).mapM (fun ((v, s), k) => if k then pure 0 else scaleBias s v 0)
        pure ((sc.take (Image.tangentsOf m)).map (fun v => BitVec.ofNat 64 (fconv f32 f64 .rne v).v)))
  atSite (fun _ => old)
  pure (outs, rows)

end Sys2Proof.Machine
end

