-- ==== Sys2Proof/Machine/Graph.lean ====
section
/-! DEFINITION. Evaluation of stage graphs (R61, R62, R124, R171, R214, Table 3-8), the primal residual (R96), and the warm-start point
(R85 to R89, R101). -/
namespace Sys2Proof.Machine

/-- What an evaluation of a problem's graphs reads besides variables. -/
structure GraphEnv where
  /-- the image -/
  im : Image
  /-- committed parameters -/
  params : List W64
  /-- Heritage mode (R225) -/
  heritage : Bool
  /-- problem ID -/
  problem : Nat
  /-- steep number -/
  steep : W64
  /-- weights in force, by MODEL -/
  weights : List (List Byte)
  /-- rolling context, by MODEL: vectors, entry 1 first -/
  ctx : List (List (List W64))
deriving DecidableEq, Repr, Inhabited

/-- LOOKUP's table: points, x0, spacing and values (Table 3-8). -/
structure LookupTab where
  /-- n -/
  n : Nat
  /-- x0 -/
  x0 : W64
  /-- dx -/
  dx : W64
  /-- y_i -/
  y : Nat → W64
/-- The table at a pool word. -/
def lookupTab (im : Image) (t : Nat) : LookupTab :=
  ⟨(im.pool.getD t 0).toNat % 2 ^ 32, im.pool.getD (t + 1) 0, im.pool.getD (t + 2) 0, fun i => im.pool.getD (t + 3 + i) 0⟩

/-- LOOKUP (R214); an end value that is a NaN is delivered as the canonical NaN (R209). -/
def lookupVal (im : Image) (t : Nat) (a : W64) : FlM W64 := do
  let k := lookupTab im t
  let yEnd (i : Nat) : W64 := b64 (canon f64 (k.y i).toNat)
  let d ← nSub a k.x0
  let u ← if isNan64 a then pure nan64 else nDiv d k.dx
  if isNan64 u then pure nan64
  else if leW u 0 then pure (yEnd 0)
  else if leW (intW (Int.ofNat (k.n - 1))) u then pure (yEnd (k.n - 1))
  else do
    let i := floorNat u.toNat
    let f ← nSub u (intW i)
    let dy ← nSub (k.y (i + 1)) (k.y i)
    nFma f dy (k.y i)
/-- The slope of LOOKUP (R214): 0 outside the table, the segment's slope inside, that of segment 0 at u = 0. A NaN has the slope NaN. -/
def lookupSlope (im : Image) (t : Nat) (a : W64) : FlM W64 := do
  let k := lookupTab im t
  let r := (← get).rnd
  let u := b64 (fdiv f64 r (fsub f64 r a.toNat k.x0.toNat).v k.dx.toNat).v
  if isNan64 u then pure nan64
  else if ltW u 0 || leW (intW (Int.ofNat (k.n - 1))) u then pure 0
  else do
    let i := floorNat u.toNat
    let dy ← nSub (k.y (i + 1)) (k.y i)
    nDiv dy k.dx

/-- One arithmetic node on its operand values (Table 3-8). -/
def nodeOp (env : GraphEnv) (n : NodeRec) (a b c : W64) : FlM W64 := do
  let r := (← get).rnd
  let one (f : Nat → FRes) : FlM W64 := do let x ← sop n.op a.toNat 0 0 (f a.toNat); pure (b64 x)
  let two (f : Nat → Nat → FRes) : FlM W64 := do let x ← sop n.op a.toNat b.toNat 0 (f a.toNat b.toNat); pure (b64 x)
  match n.op with
  | 0x01 => pure (b64 (canon f64 n.imm))
  | 0x02 => one (fcopy f64)
  | 0x03 => one (fneg f64)
  | 0x04 => one (fabs f64)
  | 0x10 => nAdd a b
  | 0x11 => nSub a b
  | 0x12 => nMul a b
  | 0x13 => nFma a b c
  | 0x14 => nDiv a b
  | 0x15 => nSqrt a
  | 0x18 => nMin a b
  | 0x19 => nMax a b
  | 0x1A => do let x ← sop 0x1A a.toNat b.toNat c.toNat (fselect f64 a.toNat b.toNat c.toNat); pure (b64 x)
  | 0x20 => nSin a
  | 0x21 => nCos a
  | 0x22 => one (ftan f64 r)
  | 0x23 => one (fatan f64 r)
  | 0x24 => nAtan2 a b
  | 0x25 => one (fexp f64 r)
  | 0x26 => one (flog f64 r)
  | 0x27 => one (ftanh f64 r)
  | 0x30 => two (fidiv r)
  | 0x31 => two (firem env.heritage r)
  | 0x38 => lookupVal env.im (n.imm % 2 ^ 32) a
  | _ => pure 0

/-- What the units outside the clusters deliver at one stage of one evaluation: the JDU's quantities and their partial derivatives (R131, R132),
the models' outputs and their derivative rows (R175). -/
structure StageUnits where
  /-- the JDU has run -/
  jduDone : Bool := false
  /-- quantities asked for: code, selector, element -/
  qs : List (Nat × Nat × Nat) := []
  /-- their values -/
  jdu : List W64 := []
  /-- the variables the JDU reads -/
  jvars : List Nat := []
  /-- for each quantity its partial derivatives along those variables -/
  jrows : List (List W64) := []
  /-- models run: MODEL, outputs, derivative rows -/
  models : List (Nat × List W64 × List (List W64)) := []
deriving DecidableEq, Repr, Inhabited

/-- The quantity of a JDU_OUT node: code, selector and element (Table 5-3). -/
def jduQuery (n : NodeRec) : Nat × Nat × Nat := (n.imm % 2 ^ 32, n.imm / 2 ^ 48, n.imm / 2 ^ 32 % 2 ^ 16)

/-- The model inputs of a stage (R171), from the node values so far. -/
def modelInputs (s : StageRec) (m : ModelRec) (vals : List W64) : List W64 :=
  (List.range m.nIn).map (fun i => vals.getD (s.nodeFirst + m.inFirst + i) 0)

/-- The value an operand reference names (Table 3-4). -/
def operand (env : GraphEnv) (vars vals : List W64) (r : Nat) : W64 :=
  if r = noneRef then 0
  else match r / 2 ^ 28 with
    | 0 => vals.getD (r % 2 ^ 28) 0
    | 1 => vars.getD (r % 2 ^ 28) 0
    | _ => env.params.getD (r % 2 ^ 28) 0

/-- Which nodes of the image an evaluation computes, and whether derivatives go with them. -/
structure Ask where
  /-- stages evaluated -/
  stages : List Nat
  /-- nodes evaluated -/
  nodes : Nat → Bool
  /-- first derivatives are computed -/
  derivs : Bool

/-- The JDU runs for a stage (R124, R131, R132): every quantity its nodes ask for, with partial derivatives where they are wanted. -/
def runJdu (env : GraphEnv) (k : Ask) (s : StageRec) (vars : List W64) (u : StageUnits) : FlM StageUnits := do
  let old := (← get).site
  atSite (fun _ => { unit := 1, stage := s.stage })
  let qs := (((env.im.stageNodes s).filter (fun n => n.1.op == 0x40 && k.nodes n.2)).map (fun n => jduQuery n.1)).eraseDups
  let v ← jduValues env.im s env.params vars qs
  let ds := (env.im.jduVars s).eraseDups
  let rows ← if k.derivs then jduRows env.im s env.params vars qs v.1 ds else pure []
  atSite (fun _ => old)
  pure { u with jduDone := true, qs, jdu := v.2, jvars := ds, jrows := rows }

/-- A model runs for a stage (R171, R173, R174), once in an evaluation. -/
def runModel (env : GraphEnv) (k : Ask) (s : StageRec) (vals : List W64) (u : StageUnits) (m : ModelRec) : FlM StageUnits := do
  let e := (← get).evals
  let key : EvalKey := ⟨env.problem, env.steep, BitVec.ofNat 64 (e.getD m.model 0 - 1), s.stage, false, env.im.rnd, 0⟩
  let o ← evalModel env.im key m (env.weights.getD m.model []) (modelInputs s m vals) (env.ctx.getD m.model []) k.derivs
  pure { u with models := (m.model, o.1, o.2) :: u.models }

/-- What a MODEL_OUT node of a stage names: outputs and rows of its model. -/
def StageUnits.model (u : StageUnits) (k : Nat) : Option (List W64 × List (List W64)) := (u.models.find? (fun c => c.1 == k)).map Prod.snd

/-- Evaluate one node: `vals` holds every earlier node's value. -/
def evalNode (env : GraphEnv) (k : Ask) (s : StageRec) (vars vals : List W64) (u : StageUnits) (n : NodeRec) (i : Nat) : FlM (W64 × StageUnits) := do
  atSite (fun _ => { unit := 0, stage := s.stage, location := i })
  if n.op = 0x40 then
    let u ← if u.jduDone then pure u else runJdu env k s vars u
    pure (u.jdu.getD (u.qs.idxOf (jduQuery n)) 0, u)
  else if n.op = 0x41 then
    let j := n.imm % 2 ^ 32
    let u ← match u.model j, env.im.findModel j with
      | none, some m => runModel env k s vals u m
      | _, _ => pure u
    pure (match u.model j with | some o => o.1.getD (n.imm / 2 ^ 32) 0 | none => 0, u)
  else do
    let v ← nodeOp env n (operand env vars vals n.a) (operand env vars vals n.b) (operand env vars vals n.c)
    pure (v, u)

/-- Evaluate the nodes of one stage, appending their values. -/
def evalStageNodes (env : GraphEnv) (k : Ask) (s : StageRec) (vars : List W64) : List (NodeRec × Nat) → List W64 → StageUnits → FlM (List W64 × StageUnits)
  | [], vals, u => pure (vals, u)
  | (n, i) :: t, vals, u => do
    let (v, u') ← if k.nodes i then evalNode env k s vars vals u n i else pure (0, u)
    evalStageNodes env k s vars t (vals ++ [v]) u'

/-- What an evaluation of the graphs delivers: node values by index, and the units' results by stage. -/
structure GraphVals where
  /-- node values -/
  vals : List W64 := []
  /-- results of the other units, by stage -/
  units : List StageUnits := []
deriving DecidableEq, Repr, Inhabited

/-- An evaluation begins: it is numbered for the trap record, counts for every model it evaluates (Table 8-3, word c), and is dealt out. -/
def beginPass (im : Image) (stages : List Nat) : FlM Unit :=
  modify (fun s => { s with part := s.part + 1, passes := s.passes ++ [stages],
                            evals := (List.range 16).map (fun m => s.evals.getD m 0 + (if (im.modelStages m).any (fun x => stages.contains x) then 1 else 0)) })

/-- Node values at a point, stage by stage (R61, R62). -/
def evalNodes (env : GraphEnv) (k : Ask) (vars : List W64) : FlM GraphVals :=
  env.im.stages.foldlM (fun g s => do
    if k.stages.contains s.stage then do
      let (vals, u) ← evalStageNodes env k s vars (env.im.stageNodes s) g.vals ({} : StageUnits)
      pure ⟨vals, g.units ++ [u]⟩
    else pure ⟨g.vals ++ List.replicate s.nodeCount 0, g.units ++ [({} : StageUnits)]⟩) ({} : GraphVals)

/-- An evaluation of the graphs at a point, dealt to the other units. -/
def evalGraph (env : GraphEnv) (k : Ask) (vars : List W64) : FlM GraphVals := do
  beginPass env.im k.stages
  evalNodes env k vars

/-- Every node of every stage. -/
def askAll (im : Image) (derivs : Bool) : Ask := ⟨im.stages.map StageRec.stage, fun _ => true, derivs⟩
/-- The nodes that a node needs, itself among them (R58: references go to lower indices of the same stage). -/
def needsFrom (im : Image) (s : StageRec) (roots : List Nat) : List Nat :=
  (im.stageNodes s).reverse.foldl (fun (l : List Nat) (n, i) =>
    if !l.contains i then l
    else
      let ops := ([n.a, n.b, n.c].filter (fun r => r != noneRef && r / 2 ^ 28 == 0)).map (fun r => r % 2 ^ 28)
      let ins := if n.op = 0x41 then (match im.findModel (n.imm % 2 ^ 32) with
          | some m => (List.range m.nIn).map (fun j => s.nodeFirst + m.inFirst + j)
          | none => []) else []
      l ++ (ops ++ ins).filter (fun j => !l.contains j)) roots
/-- The nodes that roles need: those an evaluation for residuals alone computes. -/
def needsRoles (im : Image) (roles : List Nat) : List Nat :=
  im.stages.flatMap (fun s => needsFrom im s (((im.stageNodes s).filter (fun n => roles.contains n.1.role)).map Prod.snd))
/-- The nodes that nodes of the given roles need, values only. -/
def askRoles (im : Image) (roles : List Nat) : Ask :=
  let l := needsRoles im roles
  ⟨im.stages.map StageRec.stage, fun i => l.contains i, false⟩
/-- Every node of one stage. -/
def askStage (k : Nat) (derivs : Bool) : Ask := ⟨[k], fun _ => true, derivs⟩

/-- The stage cost (R61): the COST nodes of the stage, added in ascending node index. -/
def stageCost (im : Image) (s : StageRec) (vals : List W64) : FlM W64 :=
  match ((im.stageNodes s).filter (fun n => n.1.role == 3)).map (fun n => vals.getD n.2 0) with
  | [] => pure 0
  | v :: t => t.foldlM nAdd v
/-- The cost of the graphs: the stage costs in stage order (R61, R255). -/
def graphCost (im : Image) (vals : List W64) : FlM W64 := do
  let cs ← im.stages.mapM (fun s => stageCost im s vals)
  sumR cs

/-- An inequality side is active with the committed parameters (R95). -/
def sideActive (params : List W64) (sd : Image.Side) : Bool :=
  match decodeF f64 (params.getD sd.param 0).toNat with
  | .inf _ => false
  | _ => true

/-- The value a side bounds: a variable or a CONSTRAINT node's value. -/
def sideValue (vars nodes : List W64) (sd : Image.Side) : W64 := if sd.isNode then nodes.getD sd.what 0 else vars.getD sd.what 0

/-- Signed slack of a side: value minus lower bound, or upper bound minus value: negative where the side is violated (log entry 127). -/
def sideGap (params vars nodes : List W64) (sd : Image.Side) : FlM W64 :=
  let b := params.getD sd.param 0
  let g := sideValue vars nodes sd
  if sd.upper then nSub b g else nSub g b

/-- The amount by which a side is violated before the comparison with 0 (R96): lower bound minus value, or value minus upper bound. -/
def sideExcess (params vars nodes : List W64) (sd : Image.Side) : FlM W64 :=
  let b := params.getD sd.param 0
  let g := sideValue vars nodes sd
  if sd.upper then nSub g b else nSub b g

/-- The equality defects in the order of R95: next-stage state minus node value. -/
def defects (env : GraphEnv) (vars nodes : List W64) : FlM (List W64) :=
  env.im.equalities.mapM (fun q => nSub (vars.getD q.2 0) (nodes.getD q.1 0))

/-- The violations of the active sides before the comparison with 0. -/
def excesses (env : GraphEnv) (vars nodes : List W64) : FlM (List W64) :=
  (env.im.sides.filter (sideActive env.params)).mapM (sideExcess env.params vars nodes)

/-- The primal residual of R96 from defects and violations: the largest magnitude of a defect, or violation above 0. -/
def residualOf (es vs : List W64) : FlM W64 := do
  let e ← normInf es
  vs.foldlM nMax e

/-- The primal residual of R96 at a point with evaluated nodes. -/
def primalResidual (env : GraphEnv) (vars nodes : List W64) : FlM W64 := do
  let es ← defects env vars nodes
  let vs ← excesses env vars nodes
  residualOf es vs

/-- A stored iterate: primal values, equality and inequality multipliers, slacks, residuals, covariance factor. -/
structure Iterate where
  /-- primal values, by global variable index -/
  primal : List W64 := []
  /-- equality multipliers (R95) -/
  eqMult : List W64 := []
  /-- inequality multipliers (R95) -/
  ineqMult : List W64 := []
  /-- slacks (R95) -/
  slack : List W64 := []
  /-- r_p -/
  rp : W64 := 0
  /-- r_d -/
  rd : W64 := 0
  /-- μ -/
  mu : W64 := 0
  /-- covariance factor S, lower triangle row by row (R153) -/
  cov : List W64 := []
  /-- certificate ŷ (R106, R109); empty for none -/
  cert : List W64 := []
  /-- z of ADMM (R107), one value for each equality and each inequality side -/
  z : List W64 := []
  /-- ρ of ADMM (R107, R108) -/
  rho : W64 := 0
  /-- ν of the line search (R111) -/
  nu : W64 := 0
  /-- x⁻ of an EKF step and the predicted factor, which its later iterations start from (R156) -/
  pred : List W64 × List W64 := ([], [])
  /-- the evaluation or factor that later iterations reuse: the sums and the model evaluations before it; none where it is still to be computed
  (Table 4-4) -/
  src : Option (Nat × List Nat) := none
deriving DecidableEq, Repr, Inhabited

/-- Duals by ROLE_INDEX: the old multiplier list keyed by stage and role index, for R86's shift. -/
def keyedDuals (im : Image) (role : Nat) : List (Nat × Nat) :=
  im.stages.flatMap (fun s => (im.roleNodes s role).map (fun n => (s.stage, n.1.roleIndex)))

/-- Keys of the inequality sides: (stage, block position in the stage or ROLE_INDEX, element, upper, isNode). -/
def sideKeys (im : Image) : List (Nat × Nat × Nat × Bool × Bool) :=
  im.blocks.zipIdx.flatMap (fun (b, bi) => if Image.pinnedBlock b then [] else
    let pos := ((im.blocks.take bi).filter (fun x => x.stage == b.stage)).length
    (List.range b.size).flatMap (fun i =>
      (if b.lo != noneRef then [(b.stage, pos, i, false, false)] else []) ++
      (if b.hi != noneRef then [(b.stage, pos, i, true, false)] else [])))
  ++ im.stages.flatMap (fun s => (im.roleNodes s 2).flatMap (fun n =>
      [(s.stage, n.1.roleIndex, 0, false, true), (s.stage, n.1.roleIndex, 0, true, true)]))

/-- Look a key up in a keyed list of values. -/
def assocGet [BEq κ] (ks : List κ) (vs : List α) (k : κ) : Option α :=
  ((ks.zip vs).find? (fun p => p.1 == k)).map Prod.snd

/-- The block at a position within a stage. -/
def blockAt (im : Image) (stage pos : Nat) : Option BlockRec := (im.stageBlocks stage)[pos]?
/-- Position of block `bi` within its stage. -/
def blockPos (im : Image) (bi : Nat) : Nat :=
  match im.blocks[bi]? with
  | none => 0
  | some b => ((im.blocks.take bi).filter (fun x => x.stage == b.stage)).length

/-- The block of the source that supplies target block `bi` (R86, R87): its position in the source's block table. -/
def sourceBlock (tgt src : Image) (bi : Nat) : Option Nat :=
  match tgt.blocks[bi]? with
  | none => none
  | some b =>
    let shift := if tgt.horizonShift then 1 else 0
    let s := min (b.stage + shift) (src.nStages - 1)
    if src.structSig = tgt.structSig then
      if shift = 0 then some bi
      else
        let cand := (List.range src.blocks.length).filter (fun i => ((src.blocks[i]?).map BlockRec.stage) == some s)
        match cand[blockPos tgt bi]? with
        | none => none
        | some i => match src.blocks[i]? with
          | some c => if c.kind = b.kind ∧ c.size = b.size then some i else none
          | none => none
    else
      let t := tgt.tagOf bi
      if t = 0 then none
      else (List.range src.blocks.length).find? (fun i => match src.blocks[i]? with
        | some c => src.tagOf i == t && c.stage == s && c.size == b.size && c.kind == b.kind
        | none => false)

/-- The warm-start point before R89: primal and duals, the number of matched blocks, and repairs (R86 to R88). -/
structure WarmPoint where
  /-- iterate, slacks not yet set -/
  it : Iterate
  /-- WARM_MAPPED -/
  mapped : Bool
  /-- WARM_COLD -/
  cold : Bool
  /-- values replaced under R88 -/
  repaired : Nat
deriving DecidableEq, Repr, Inhabited

/-- The initial multiplier of an inequality: 1 (R101); 0 for ADMM's y (R109). -/
def startMult (im : Image) : W64 := if im.method = 4 then 0 else one64
/-- What a warm-start point holds for the slack of a side before its distance is known: the least slack of R101, 1 without a source and 2^-10
with one; ADMM keeps no slacks (Table 4-6, log entry 128). -/
def startSlack (im : Image) (warm : Bool) : W64 := if im.method = 4 then 0 else if warm then tenth64 else one64

/-- The INIT_POOL point with initial duals (R85, R101, R109); its residuals are 0 until it is evaluated (R96, log entry 128). -/
def coldPoint (im : Image) : WarmPoint :=
  let n := im.nIneq
  ⟨{ primal := im.blocks.flatMap (fun b => (List.range b.size).map (im.initValue b)),
     eqMult := List.replicate im.nEq 0, ineqMult := List.replicate n (startMult im), slack := List.replicate n (startSlack im false) },
   false, false, 0⟩

/-- Map a source iterate onto the target (R86 to R88). -/
def mapWarm (tgt src : Image) (it : Iterate) : WarmPoint :=
  let same := src.structSig == tgt.structSig
  let shift := if tgt.horizonShift then 1 else 0
  let srcOf := (List.range tgt.blocks.length).map (sourceBlock tgt src)
  let parts : List (List W64 × Nat) := tgt.blocks.zipIdx.map (fun (b, bi) =>
    match (srcOf.getD bi none).bind (fun i => src.blocks[i]?) with
    | none => ((List.range b.size).map (tgt.initValue b), 0)
    | some c =>
      let vs := (List.range b.size).map (fun i => it.primal.getD (c.varFirst + i) 0)
      (vs.zipIdx.map (fun (v, i) => if isFin64 v then v else tgt.initValue b i), (vs.filter (fun v => !isFin64 v)).length))
  let srcStage (k : Nat) : Nat := min (k + shift) (src.nStages - 1)
  let eqs : List W64 := (keyedDuals tgt 1).map (fun (k, i) =>
    if !same then 0
    else ((assocGet (keyedDuals src 1) it.eqMult (if shift = 0 then k else srcStage k, i))).getD 0)
  let sk := sideKeys src
  let ineqs : List (Option W64) := (sideKeys tgt).map (fun (k, pos, i, up, isN) =>
    if isN then
      if !same then none else assocGet sk it.ineqMult (if shift = 0 then k else srcStage k, pos, i, up, true)
    else
      let cand := (List.range tgt.blocks.length).filter (fun x => ((tgt.blocks[x]?).map BlockRec.stage) == some k)
      let bi := cand.getD pos 0
      match srcOf.getD bi none with
      | none => none
      | some ci => match src.blocks[ci]? with
        | none => none
        | some c => assocGet sk it.ineqMult (c.stage, blockPos src ci, i, up, false))
  let fixD (d : W64) (v : W64) : W64 := if isFin64 v then v else d
  let matched := (srcOf.filter Option.isSome).length
  let badDual := (eqs.filter (fun v => !isFin64 v)).length + (ineqs.filter (fun v => match v with | some x => !isFin64 x | none => false)).length
  ⟨{ primal := (parts.map Prod.fst).flatMap id, eqMult := eqs.map (fixD 0),
     ineqMult := ineqs.map (fun v => fixD (startMult tgt) (v.getD (startMult tgt))), slack := ineqs.map (fun v => startSlack tgt v.isSome),
     cov := it.cov },
   !same && decide (0 < matched), !same && matched == 0,
   (parts.map Prod.snd).foldl (· + ·) 0 + badDual⟩

/-- R89: pinned blocks take their committed parameters. -/
def pinPoint (im : Image) (params primal : List W64) : List W64 :=
  im.blocks.flatMap (fun b => (List.range b.size).map (fun i =>
    if Image.pinnedBlock b then params.getD (b.lo + i) 0 else primal.getD (b.varFirst + i) 0))

/-- Slacks and multipliers at the starting point (R95, R101): the slack is the larger of its least value and the side's distance, the
multiplier at least 2^-10; an inactive side has multiplier 0 and slack +∞. ADMM takes y as it is and keeps no slacks (R109, Table 4-6). -/
def startDuals (env : GraphEnv) (it : Iterate) (nodes : List W64) : FlM Iterate := do
  let admm := env.im.method == 4
  let pairs ← (env.im.sides.zip (it.ineqMult.zip it.slack)).mapM (fun (s, m, sl) =>
    if !sideActive env.params s then pure (0, if admm then 0 else inf64)
    else if admm then pure (m, 0)
    else do
      let gap ← sideGap env.params it.primal nodes s
      let v ← nMax sl gap
      pure (maxW tenth64 m, v))
  pure { it with ineqMult := pairs.map Prod.fst, slack := pairs.map Prod.snd }

/-- R97 on residuals: the convergence test; ADMM omits μ. -/
def converged (im : Image) (rp rd mu : W64) : Bool :=
  fleF f64 rp.toNat im.tolP && fleF f64 rd.toNat im.tolD && (im.method == 4 || fleF f64 mu.toNat im.tolC)

/-- Primal-feasible within tolerance (R97). -/
def feasible (im : Image) (rp : W64) : Bool := fleF f64 rp.toNat im.tolP

/-- The result bytes of an iterate: the POUR blocks' values (after Table 3-6). -/
def resultWords (im : Image) (it : Iterate) : List W64 := im.pourVars.map (fun v => it.primal.getD v 0)

end Sys2Proof.Machine
end

