-- ==== Sys2Proof/Machine/StBase.lean ====
section
/-! DEFINITION. Sparse tables and byte memory in their canonical forms, and what leaves the block. -/
namespace Sys2Proof.Machine

/-- A sparse table: entries by number, ascending, no repeats; an unlisted number reads as the default entry. -/
abbrev Tbl (α : Type) := List (Nat × α)

/-- Entry `k`, the default when unlisted. -/
def Tbl.get [Inhabited α] : Tbl α → Nat → α
  | [], _ => default
  | (i, a) :: t, k => if i = k then a else Tbl.get t k

/-- Entry `k` where it is listed. -/
def Tbl.get? : Tbl α → Nat → Option α
  | [], _ => none
  | (i, a) :: t, k => if i = k then some a else Tbl.get? t k

/-- Write entry `k`, keeping the order. -/
def Tbl.set (t : Tbl α) (k : Nat) (a : α) : Tbl α :=
  match t with
  | [] => [(k, a)]
  | (i, b) :: r => if k < i then (k, a) :: (i, b) :: r else if k = i then (k, a) :: r else (i, b) :: Tbl.set r k a

/-- Remove entry `k`. -/
def Tbl.del (t : Tbl α) (k : Nat) : Tbl α := t.filter (fun e => e.1 != k)

/-- Change entry `k`. -/
def Tbl.mod [Inhabited α] (t : Tbl α) (k : Nat) (f : α → α) : Tbl α := t.set k (f (t.get k))

/-- Keys strictly rising: the canonical form of a table. -/
def Tbl.wf : Tbl α → Bool
  | [] => true
  | [_] => true
  | (i, _) :: (j, b) :: t => decide (i < j) && Tbl.wf ((j, b) :: t)

/-- Byte memory: address and byte, addresses strictly rising, no byte 0 listed; an unlisted address reads as 0
(log entry 7). -/
abbrev Mem := List Host.Cell

/-- The byte at an address. -/
def Mem.read : Mem → Nat → Byte
  | [], _ => 0
  | (i, b) :: t, a => if i = a then b else Mem.read t a

/-- Write one byte, keeping the canonical form: writing 0 removes the entry. -/
def Mem.write (m : Mem) (a : Nat) (v : Byte) : Mem :=
  match m with
  | [] => if v = 0 then [] else [(a, v)]
  | (i, b) :: t =>
    if a < i then (if v = 0 then (i, b) :: t else (a, v) :: (i, b) :: t)
    else if a = i then (if v = 0 then t else (a, v) :: t)
    else (i, b) :: Mem.write t a v

/-- Write bytes at ascending addresses. -/
def Mem.writeBytes (m : Mem) : Nat → List Byte → Mem
  | _, [] => m
  | a, b :: bs => Mem.writeBytes (m.write a b) (a + 1) bs

/-- Read `n` bytes from an address. -/
def Mem.readBytes (m : Mem) : Nat → Nat → List Byte
  | _, 0 => []
  | a, n + 1 => m.read a :: Mem.readBytes m (a + 1) n

/-- The canonical form of a memory. -/
def Mem.wf : Mem → Bool
  | [] => true
  | [(_, b)] => b != 0
  | (i, b) :: (j, c) :: t => b != 0 && decide (i < j) && Mem.wf ((j, c) :: t)

/-- Something the device sent or answered, newest first in `State.out`. -/
inductive Out where
  /-- a frame on an external port's medium or queue: YSP, mailbox or PTP bytes, to a destination -/
  | frame (dst : NetSrc) (bytes : List Byte)
  /-- an MSI-X message -/
  | msix (addr : W64) (data : W32)
  /-- words answered to a PCIe read -/
  | pcieRead (words : List W32)
  /-- a PCIe configuration completion: retry status or success -/
  | pcieConfig (retry : Bool)
  /-- a message to the twin over peer link 0: 0 barrier, 1 digest, 2 group notice -/
  | twin (kind : Nat) (problem : Nat) (words : List W64)
  /-- a peer-group record sent on a link -/
  | peerRecord (link : Nat) (bytes : List Byte)
  /-- a flit replay on a link -/
  | replay (link : Nat)
  /-- a frame forwarded to egress ports -/
  | forward (ports : List Nat) (e : EthIn)
  /-- a PTP message transmitted: kind, port, domain, timestamp (2^-16 ns), correction -/
  | ptp (kind : Nat) (port : Nat) (domain : Byte) (seqId : W16) (stamp : Nat) (corr : Int)
  /-- preemption hold asserted (true) or released on a port -/
  | hold (port : Nat) (on : Bool)
  /-- a debug challenge or TAP response -/
  | debug (n : Nat)
  /-- bits shifted out of the data register of a TAP: of the edge die or not, first bit first -/
  | scan (edge : Bool) (bits : List Bool)
deriving DecidableEq, Repr, Inhabited

end Sys2Proof.Machine
end

