-- ==== Sys2Proof/Machine/StMaster.lean ====
section
/-! DEFINITION. State of the mailbox, interrupts, event log, pour rings, leases and clients (chapters 15 and 18). -/
namespace Sys2Proof.Machine

/-- An accepted or queued master command (R415, R420): the descriptor with its opcode and acceptance number. -/
structure Cmd where
  /-- OPCODE; 16 bits; R415 -/
  op : W16 := 0
  /-- descriptor fields; R415 -/
  c : CmdIn := {}
  /-- PHASE differed from the expected phase; R416 -/
  phaseBad : Bool := false
  /-- source of the frame that bore it; R412 -/
  src : NetSrc := {}
  /-- SEQ of that frame, echoed in its COMPLETION frame; Table 15-7 -/
  fseq : W32 := 0
  /-- ACCEPT_NO; 64 bits; R417 -/
  acceptNo : W64 := 0
  /-- signed images were required when it was accepted; R456 -/
  signReq : Bool := false
  /-- NEXT_STEEP of the problem that it names when it was accepted; R259, R264 -/
  nextAt : W64 := 0
deriving DecidableEq, Repr, Inhabited

/-- What a command that has started and not completed waits for. -/
inductive Await where
  /-- IMAGE_LOAD: IMAGE_LOAD_COMPLETE (R71) -/
  | imageLoad
  /-- PROBLEM_RETIRE: the end of retirement (R51) -/
  | retire
  /-- PROBLEM_ENABLE or CHECKPOINT_RESUME held during a retirement (R53) or staging its weights (R182) -/
  | enable
  /-- CHECKPOINT_SAVE: the capture and its writing (R260) -/
  | checkpoint
  /-- JDU_QUERY (R141) -/
  | jduQuery
  /-- TRAIN_STOP of a model (R243) -/
  | trainStop (model : Nat)
  /-- TRAIN_SET held while the stop of its model is in progress -/
  | trainSet (model : Nat)
  /-- TB_DISABLE (R311) -/
  | tbDisable (tb : Nat)
  /-- TB_ENABLE held during a disable (R312) -/
  | tbEnable (tb : Nat)
  /-- PORT_SET, PORT_ENABLE or PORT_DISABLE waiting for the ports of a mask (R335) -/
  | ports (mask : W16)
  /-- PLK_DISABLE waiting for links (R358) -/
  | links (mask : Byte)
  /-- LOOP_STOP or a change of a binding waiting for the edge die -/
  | loops (mask : W32)
  /-- FIRMWARE_STAGE (R470) -/
  | firmware
  /-- SELF_TEST (R476) -/
  | selfTest
  /-- UNIT_FENCE or UNIT_UNFENCE of a unit -/
  | fence (kind index : Nat)
deriving DecidableEq, Repr, Inhabited

/-- A started command in flight. -/
structure Run where
  /-- the command -/
  cmd : Cmd := {}
  /-- what ends it -/
  await : Await := .imageLoad
  /-- it still holds its locks (R420) -/
  holds : Bool := true
deriving DecidableEq, Repr, Inhabited

/-- Command ring, completion ring and acceptance (R407 to R420, Table 18-16). -/
structure Mailbox where
  /-- MBX_RING_CTRL.ENABLE; 1 bit; R414; reset 0 -/
  enable : Bool := false
  /-- MBX_RING_CTRL.DISABLING; 1 bit; R419; reset 0 -/
  disabling : Bool := false
  /-- MBX_RING_CTRL.ENABLE_HELD; 1 bit; R419; reset 0 -/
  enableHeld : Bool := false
  /-- PERST_N is low: the PCIe link is down; R506; reset 0 -/
  perst : Bool := false
  /-- MBX_CMD_BASE; 64 bits, [11:0] reserved; R414; reset 0 -/
  cmdBase : W64 := 0
  /-- MBX_CPL_BASE; 64 bits, [11:0] reserved; R414; reset 0 -/
  cplBase : W64 := 0
  /-- MBX_CMD_TAIL; 8 bits; R416; reset 0 -/
  cmdTail : Byte := 0
  /-- MBX_CMD_HEAD.HEAD; 8 bits; R416; reset 0 -/
  cmdHead : Byte := 0
  /-- MBX_CMD_HEAD.PHASE; 1 bit; R416; reset 1 -/
  cmdPhase : Bool := true
  /-- MBX_CPL_HEAD.HEAD; 8 bits; R417; reset 0 -/
  cplHead : Byte := 0
  /-- MBX_CPL_HEAD.PHASE; 1 bit; R417; reset 1 -/
  cplPhase : Bool := true
  /-- MBX_CPL_TAIL; 8 bits; R417; reset 0 -/
  cplTail : Byte := 0
  /-- MBX_ACCEPT: commands accepted, the next ACCEPT_NO; 64 bits; R407, R408; reset 0 -/
  accepted : W64 := 0
  /-- latched MBX_ACCEPT_HI; 32 bits; R515; reset 0 -/
  acceptHi : W32 := 0
  /-- MBX_ACCEPT_PATH.PCIE; 16 bits; R408; reset 0 -/
  acceptPcie : W16 := 0
  /-- MBX_ACCEPT_PATH.MGMT; 16 bits; R408; reset 0 -/
  acceptMgmt : W16 := 0
  /-- MBX_FRAME_DROPPED; 32 bits, saturating, RC; R412; reset 0 -/
  frameDropped : W32 := 0
  /-- accepted commands that have not started, oldest first; R420; reset empty -/
  waiting : List Cmd := []
  /-- started commands that have not completed; R420; reset empty -/
  running : List Run := []
  /-- descriptors that wait for room, PCIe rows and frame-borne, in arrival order; R418; reset empty -/
  arrived : List Cmd := []
  /-- source addresses of the most recent mailbox frame accepted; R436; reset none -/
  lastSrc : Option NetSrc := none
  /-- LT of the last IRQ_NOTICE, ns; R436, R525; reset none -/
  lastNotice : Option Nat := none
  /-- LT of the last mailbox NOT_READY per source MAC; R412, R337, R525; reset empty -/
  notReadyAt : Tbl Nat := []
  /-- MBX_SHED_TOTAL; 32 bits, saturating, RC; Table 2-9; reset 0 -/
  shedTotal : W32 := 0
  /-- MBX_SHED_IRQ_INTERVAL; 24 bits, µs; Table 2-10; reset 0x2710 -/
  shedInterval : BitVec 24 := 0x2710
  /-- LT at which the present interval began; R46; reset 0 -/
  shedStart : Nat := 0
  /-- the count changed in the present interval; R46; reset 0 -/
  shedChanged : Bool := false
deriving DecidableEq, Repr, Inhabited

/-- One MSI-X table entry (R409, R436; PCI Express). -/
structure Msix where
  /-- message address; 64 bits; R436; reset 0 -/
  addr : W64 := 0
  /-- message data; 32 bits; R436; reset 0 -/
  data : W32 := 0
  /-- vector mask; 1 bit; R436; reset 1 -/
  mask : Bool := true
deriving DecidableEq, Repr, Inhabited

/-- Interrupt status, maps and MSI-X (R435, R436). -/
structure Irq where
  /-- MBX_IRQ_MAP s: bit 7 EN, bits 5:0 VECTOR, for the sources written since their reset; 48 of 8 bits; R435;
  reset EN 0, VECTOR s -/
  map : Tbl Byte := []
  /-- MBX_IRQ_STATUS0 and 1; 48 bits; R435; reset 0 -/
  status : BitVec 48 := 0
  /-- MSI-X table; 64 entries; R409; reset masked -/
  table : Tbl Msix := []
  /-- MSI-X pending bits; 64 bits; R409, R436; reset 0 -/
  pba : W64 := 0
deriving DecidableEq, Repr, Inhabited

/-- An event-log entry (R438, Table 22-5). -/
structure EvtEntry where
  /-- LT, ns; 64 bits; R438; reset 0 -/
  lt : W64 := 0
  /-- EVT_SEQ; 32 bits; R438; reset 0 -/
  seq : W32 := 0
  /-- CODE; 16 bits; R438; reset 0 -/
  code : W16 := 0
  /-- ARG; 16 bits; R438; reset 0 -/
  arg : W16 := 0
  /-- DATA; 48 bytes; R438; reset 0 -/
  data : List Byte := []
deriving DecidableEq, Repr, Inhabited

/-- The event log (R437, R440). -/
structure EvtLog where
  /-- entries by index 0 to 4095; 64 bytes each; R437; reset all zero -/
  entries : Tbl EvtEntry := []
  /-- EVT_HEAD; 32 bits; R437; reset 0 -/
  head : W32 := 0
  /-- EVT_TAIL; 32 bits; R437; reset 0 -/
  tail : W32 := 0
  /-- EVT_STATUS.OVERRUN; 1 bit; R437; reset 0 -/
  overrun : Bool := false
  /-- EVT_LOST; 32 bits, saturating, RC; R437; reset 0 -/
  lost : W32 := 0
deriving DecidableEq, Repr, Inhabited

/-- A pour ring (R425 to R427). -/
structure PourRing where
  /-- the problem bound, in force; R425; reset none -/
  problem : Option Nat := none
  /-- base; 64 bits; R425; reset 0 -/
  base : W64 := 0
  /-- ENTRIES_LOG2 of the last binding; R425, R517; reset 4 (16 entries) -/
  log2 : Nat := 4
  /-- entry bytes; 32 bits; R425; reset 0 -/
  entryBytes : Nat := 0
  /-- MBX_POUR_HEAD; 32 bits; R426; reset 0 -/
  head : W32 := 0
  /-- MBX_POUR_TAIL; 32 bits; R427; reset 0 -/
  tail : W32 := 0
  /-- MBX_POUR_DROPPED; 32 bits, saturating, RC; R427; reset 0 -/
  dropped : W32 := 0
  /-- LAP; 32 bits; R426; reset 1 -/
  lap : W32 := 1
deriving DecidableEq, Repr, Inhabited

/-- A client that waits for a lease (R428). -/
structure Waiter where
  /-- client; R428 -/
  client : Byte := 0
  /-- DURATION_US; R428 -/
  duration : Nat := 0
  /-- PROBLEM_FIRST; R428 -/
  first : Nat := 0
  /-- PROBLEM_COUNT; R428 -/
  count : Nat := 0
deriving DecidableEq, Repr, Inhabited

/-- A lease ID (R428, R434). -/
structure Lease where
  /-- HELD by a client; R428; reset none (FREE) -/
  client : Option Byte := none
  /-- epoch of the last grant; 32 bits; R428; reset 0 -/
  epoch : W32 := 0
  /-- GRANTED LT, ns; 64 bits; R428; reset 0 -/
  granted : Nat := 0
  /-- EXPIRY LT, ns; 64 bits; R428; reset 0 -/
  expiry : Nat := 0
  /-- DURATION_US; R428; reset 0 -/
  duration : Nat := 0
  /-- PROBLEM_FIRST; 16 bits; R428; reset 0 -/
  first : Nat := 0
  /-- PROBLEM_COUNT; 16 bits; R428; reset 0 -/
  count : Nat := 0
  /-- waiting clients, oldest first; R428; reset empty -/
  waiters : List Waiter := []
deriving DecidableEq, Repr, Inhabited

/-- A client table entry (R348, CLIENT_SET of Table 18-7). -/
structure Client where
  /-- the entry is set; R348; reset 0 -/
  used : Bool := false
  /-- transport; R347; reset IPv4 -/
  transport : Transport := .ipv4
  /-- MAC; 48 bits; R348; reset 0 -/
  mac : BitVec 48 := 0
  /-- IP address; 128 bits; R348; reset 0 -/
  ip : BitVec 128 := 0
  /-- UDP port; 16 bits; R348; reset 0 -/
  udp : W16 := 0
  /-- ports it may use; 16 bits; R348; reset 0 -/
  portMask : W16 := 0
  /-- PCP of frames sent to it; 3 bits; Table 18-7; reset 0 -/
  pcp : Byte := 0
  /-- SEQ of the next frame sent to it; 32 bits; R348; reset 0 -/
  outSeq : W32 := 0
  /-- LT of the last unrequested STATUS sent to it, ns; R350, R525; reset none -/
  lastStatus : Option Nat := none
deriving DecidableEq, Repr, Inhabited

end Sys2Proof.Machine
end

