-- ==== Sys2Proof/Machine/StSolve.lean ====
section
/-! DEFINITION. State of problems, steeps, resource sets and training jobs (chapters 2 to 11, 16 and 17). -/
namespace Sys2Proof.Machine

/-- Problem states (Table 2-1). -/
inductive PState where
  | empty | loaded | enabled | retiring
deriving DecidableEq, Repr, Inhabited

/-- Schedule parameters (Table 2-3). -/
structure Sched where
  /-- MODE 1 REQUESTED; 1 bit; R26 -/
  requested : Bool := false
  /-- TIME_BASE: 0 LT, 1 to 4 TB0 to TB3; 3 bits; R26 -/
  tb : Nat := 0
  /-- PERIOD T, ns; 32 bits; R26 -/
  period : Nat := 0
  /-- PHASE, ns; 64 bits; R26 -/
  phase : Nat := 0
  /-- DEADLINE D, ns; 32 bits; R26 -/
  deadline : Nat := 0
  /-- BUDGET E, ns; 32 bits; R26 -/
  budget : Nat := 0
  /-- ITER_TIME I, ns; 32 bits; R26 -/
  iterTime : Nat := 0
  /-- ITER_LIMIT L; 16 bits; R26 -/
  limit : Nat := 0
  /-- PRIORITY; 8 bits; R26 -/
  priority : Nat := 0
  /-- POLICY: 0 SKIP, 1 REPLACE, 2 DEGRADE; 2 bits; R26 -/
  policy : Nat := 0
  /-- CLUSTERS; 7 bits; R26 -/
  clusters : Nat := 0
  /-- QUADRANTS; 3 bits; R26 -/
  quadrants : Nat := 0
  /-- JDU_PIPES; 4 bits; R26 -/
  pipes : Nat := 0
deriving DecidableEq, Repr, Inhabited

/-- A pending entry's effect (R79). -/
inductive Pend where
  | set (v : W64) | add (v : W64)
deriving DecidableEq, Repr, Inhabited

/-- An infusion entry (Table 3-14). -/
structure Entry where
  /-- INDEX; 32 bits; R75 -/
  index : Nat := 0
  /-- OP; 8 bits; R75 -/
  op : Nat := 0
  /-- VALUE; binary64; R75 -/
  value : W64 := 0
deriving DecidableEq, Repr, Inhabited

/-- An open commit group of a lease (R76). -/
structure OpenGroup where
  /-- lease; R76 -/
  lease : Nat := 0
  /-- GROUP_SEQ; 16 bits; R76 -/
  seq : Nat := 0
  /-- TOTAL; 16 bits; R76 -/
  total : Nat := 0
  /-- entries held, by position; R76 -/
  held : Tbl Entry := []
  /-- ACK_REQ was set on a fragment; R350 -/
  ackReq : Bool := false
deriving DecidableEq, Repr, Inhabited

/-- Per-problem steep counters (Table 2-12). -/
structure Stats where
  /-- RELEASES; 64 bits; Table 2-12; reset 0 -/
  releases : W64 := 0
  /-- SHED; 64 bits; Table 2-12; reset 0 -/
  shed : W64 := 0
  /-- SUPERSEDED; 64 bits; Table 2-12; reset 0 -/
  superseded : W64 := 0
  /-- MERGED; 64 bits; Table 2-12; reset 0 -/
  merged : W64 := 0
  /-- DEGRADED; 64 bits; Table 2-12; reset 0 -/
  degraded : W64 := 0
  /-- STEPPED_OVER; 64 bits; Table 2-12; reset 0 -/
  steppedOver : W64 := 0
  /-- BUDGET_OVERRUNS; 64 bits; R37; reset 0 -/
  overruns : W64 := 0
  /-- ROLLED_BACK; 64 bits; Table 2-12; reset 0 -/
  rolledBack : W64 := 0
  /-- POURS_BY_CODE; 9 of 64 bits; Table 2-12; reset 0 -/
  byCode : List W64 := List.replicate 9 0
deriving DecidableEq, Repr, Inhabited

/-- A request held in the slot (R41). -/
structure HeldReq where
  /-- arrival LT, ns; R41 -/
  arrival : Nat := 0
  /-- deadline LT, ns; R41 -/
  deadline : Nat := 0
  /-- the time base's reading when the request was accepted, ns; R147 -/
  instant : Int := 0
deriving DecidableEq, Repr, Inhabited

/-- Steep states (Table 2-2); pouring is one with the freeze (log entry 12). -/
inductive SPhase where
  /-- QUEUED before its commit -/
  | queued
  /-- RUNNING, commit in progress -/
  | commit
  /-- RUNNING, first evaluation or an iteration in progress, or between two -/
  | running
  /-- SUSPENDED at an iteration boundary (R118) -/
  | suspended
deriving DecidableEq, Repr, Inhabited

/-- The weight generation of a model (R240, R242). -/
structure Gen where
  /-- generation number; 32 bits; R240 -/
  gen : W32 := 0
  /-- weight bytes in the image's layout; R236 -/
  weights : List Byte := []
deriving DecidableEq, Repr, Inhabited

/-- A steep in flight. -/
structure Steep where
  /-- steep number; 64 bits; R34 -/
  number : W64 := 0
  /-- release LT, ns; R28 -/
  release : Nat := 0
  /-- deadline LT, ns; R28 -/
  deadline : Nat := 0
  /-- release instant in the problem's time base, ns; R147 -/
  instant : Int := 0
  /-- state; R36 -/
  phase : SPhase := .queued
  /-- the set it was dispatched on, a former set where the sets have re-formed since; R389 -/
  onSet : Option Nat := none
  /-- iteration limit of this steep; R43, Table 2-8 -/
  limit : Nat := 0
  /-- budget, ns; R37, R43 -/
  budget : Nat := 0
  /-- DEGRADED; R43, Table 2-8 -/
  degraded : Bool := false
  /-- charge already metered, ns; R37 -/
  charge : Nat := 0
  /-- LT since which it runs; R37 -/
  since : Nat := 0
  /-- pending entries committed at its release; R82 -/
  commitEntries : Nat := 0
  /-- completed iterations; R115 -/
  count : Nat := 0
  /-- the warm-start point before R89, as its release found it; R84, R85, R260 -/
  warm : Iterate := {}
  /-- steep number of the source pour, all ones for none; R85, R261 -/
  source : W64 := 0xFFFFFFFFFFFFFFFF
  /-- a source iterate was found, or it is the first steep of a resume; R85, R153, R263 -/
  hasSource : Bool := false
  /-- it is the first steep of a resume: it binds nothing; R263 -/
  resumed : Bool := false
  /-- WARM_MAPPED; R87 -/
  warmMapped : Bool := false
  /-- WARM_COLD; R87 -/
  warmCold : Bool := false
  /-- RETRIED; R119 -/
  retried : Bool := false
  /-- released by a retirement; R51 -/
  byRetire : Bool := false
  /-- LC, the last completed iterate or the warm-start point; R115 -/
  lc : Iterate := {}
  /-- feasibility recorded for LC; R49 -/
  feasible : Bool := false
  /-- the first evaluation has completed; R49 -/
  evaluated : Bool := false
  /-- an iteration has begun and not completed; R47 -/
  iterating : Bool := false
  /-- an attempt of the commit or of an iteration was discarded, and its retry runs or waits; R119, R474 -/
  again : Bool := false
  /-- units (KIND, INDEX, DETECTOR) whose detectors fired in the attempt that was discarded; R474; reset none -/
  retrying : List (Nat × Nat × Nat) := []
  /-- the retry of a faulted attempt has begun; R474 -/
  retryBegun : Bool := false
  /-- JDU stages left in the present evaluation, per logical pipeline; R134 -/
  jduLeft : List (List Nat) := []
  /-- (model, quadrant) shares left in the present evaluation; R172 -/
  modelLeft : List (Nat × Nat) := []
  /-- stages of each evaluation of the iteration in progress that is still to be dealt out; R134, R172 -/
  passes : List (List Nat) := []
  /-- stages of each evaluation of the iteration in progress that has begun; Table 8-3 word c -/
  begun : List (List Nat) := []
  /-- evaluations per MODEL begun before the iteration in progress; Table 8-3 word c -/
  evals : List Nat := List.replicate 16 0
  /-- number of the order of arrival of fast mode's sums; R251 -/
  seed : Nat := 0
  /-- attempts discarded: each retry runs with sums of its own in fast mode; R119, R251 -/
  tries : Nat := 0
  /-- the problem matrices and vectors of the previous steep are reused; R114 -/
  reuse : Bool := false
  /-- stage-0 inputs of each model at the first evaluation; R180, R233 -/
  inputs : List (List W64) := []
  /-- scalar flags this steep has merged; 7 bits; R221 -/
  mScalar : BitVec 7 := 0
  /-- tensor flags this steep has merged; 5 bits; R206 -/
  mTensor : BitVec 5 := 0
  /-- factorisation breakdowns of the present iteration; R104 -/
  breakdowns : Nat := 0
  /-- the certificate condition held at the last completion; R106 -/
  certPrev : Bool := false
  /-- the twin barrier of its release is unresolved; R367 -/
  barrier : Bool := false
  /-- ROUNDS of the barrier message that its release sent; R240, R366 -/
  rounds : List W32 := []
  /-- PAIR_SEQ at its release; R367 -/
  pairSeq : W64 := 0
  /-- it is a PAIRED steep; R369 -/
  paired : Bool := false
  /-- this device found a chain mismatch at its barrier; R369 -/
  inputMismatch : Bool := false
  /-- parameters as committed and bound at its release; R81, R151 -/
  params : List W64 := []
  /-- weight generations in force at its release, where not 0; R174 -/
  gens : Tbl Gen := []
  /-- shed: it uses no set and pours SHED; R42 -/
  shed : Bool := false
  /-- shed after the problem had poured since it was enabled: REUSED_PREVIOUS; R42 -/
  reused : Bool := false
  /-- LT at which the present iteration began, ns; R47 -/
  iterSince : Nat := 0
  /-- its deadline or budget end was reached during its commit, which is never cut; R48 -/
  late : Bool := false
deriving DecidableEq, Repr, Inhabited

/-- The poured iterate and the last pour (R116). -/
structure Poured where
  /-- steep number; R121 -/
  steep : W64 := 0
  /-- status word; R121 -/
  status : W32 := 0
  /-- the iterate; `none` after an ITERATES_LOST line loss; R116, R383 -/
  it : Option Iterate := none
  /-- LT of the freeze, ns; R85 -/
  frozen : Nat := 0
  /-- result bytes as words; R42 -/
  result : List W64 := []
deriving DecidableEq, Repr, Inhabited

/-- Sticky flags of a problem with steep counts (R206, R221). -/
structure FlagRec where
  /-- FLAGS; R206, R221; reset 0 -/
  flags : Nat := 0
  /-- counters of steeps per flag; 64 bits each, saturating; R206, R221; reset 0 -/
  counts : List W64 := []
  /-- FIRST_STEEP; 64 bits; R206, R221; reset all ones (none) -/
  first : W64 := 0xFFFFFFFFFFFFFFFF
deriving DecidableEq, Repr, Inhabited

/-- An estimator channel (Table 6-2). -/
structure Chan where
  /-- CHANNEL; R144 -/
  chan : Nat := 0
  /-- SOURCE: 0 STREAM, 1 ANALOG_IN, 2 PULSE_POSITION; R144 -/
  source : Nat := 0
  /-- SOURCE_INDEX; R144 -/
  index : Nat := 0
  /-- Y_PARAM; R144 -/
  y : Nat := 0
  /-- W_PARAM; R144 -/
  w : Nat := 0
  /-- SIGMA; binary64; R144 -/
  sigma : W64 := 0
  /-- SCALE; binary64; R144 -/
  scale : W64 := 0
deriving DecidableEq, Repr, Inhabited

/-- Estimator configuration (Table 6-1). -/
structure EstCfg where
  /-- GRID, ns; R144 -/
  grid : Nat := 0
  /-- LAG, ns; R144 -/
  lag : Nat := 0
  /-- ALIGN_TOL, ns; R144 -/
  tol : Nat := 0
  /-- Q_PARAM; R144 -/
  q : Nat := 0
  /-- P0_PARAM; R144 -/
  p0 : Nat := 0
  /-- FEED_PROBLEM; R159 -/
  feed : Nat := 0xFFFF
  /-- FEED_PARAM; R159 -/
  feedParam : Nat := 0
  /-- FEED_STATUS_PARAM; R159 -/
  feedStatus : Nat := 0xFFFFFFFF
  /-- SD_MIN; binary64; R154 -/
  sdMin : W64 := 0
  /-- SD_MAX; binary64; R154 -/
  sdMax : W64 := 0
  /-- UKF_ALPHA; R157 -/
  alpha : W64 := 0
  /-- UKF_BETA; R157 -/
  beta : W64 := 0
  /-- UKF_KAPPA; R157 -/
  kappa : W64 := 0
  /-- channel entries; R144 -/
  chans : List Chan := []
deriving DecidableEq, Repr, Inhabited

/-- A stored measurement sample (R149). -/
structure Sample where
  /-- channel; R149 -/
  chan : Nat := 0
  /-- time in the problem's time base, ns; R148 -/
  time : Int := 0
  /-- VALUE; binary64; Table 6-3 -/
  value : W64 := 0
  /-- SIG; binary64; Table 6-3 -/
  sig : W64 := 0
  /-- it has been bound at least once; R149 -/
  bound : Bool := false
deriving DecidableEq, Repr, Inhabited

/-- A prior update that runs after a freeze of a CLASS 3 problem (R155). -/
structure PriorUpd where
  /-- the steep that froze, with what it has merged -/
  steep : Steep := {}
  /-- its code was SOLVED, DEADLINE_FEASIBLE or ITER_LIMIT -/
  usable : Bool := false
  /-- a start without a source has replaced the prior since; R153 -/
  void : Bool := false
  /-- rolling context as the steep read it; R180 -/
  ctx : Tbl (List (List W64)) := []
deriving DecidableEq, Repr, Inhabited

/-- Estimator state of a problem. -/
structure Est where
  /-- configuration; R144; reset none -/
  cfg : Option EstCfg := none
  /-- sample store, ascending time, at most 4096; R149; reset empty -/
  samples : List Sample := []
  /-- ACCEPTED, BOUND, REFUSED, REPLACED, OVERFLOW, LATE, MISSING, CLAMPED, WITHHELD, PRIOR_RESET; 64 bits each; R160; reset 0 -/
  counts : List W64 := List.replicate 10 0
  /-- prior z̄ of CLASS 3; binary64; R155; reset empty (none) -/
  zbar : List W64 := []
  /-- prior factor S of CLASS 3; binary64; R155; reset empty (none) -/
  cov : List W64 := []
  /-- prior updates that freezes have started and that have not completed, oldest first; R155; reset none -/
  updating : List PriorUpd := []
deriving DecidableEq, Repr, Inhabited

/-- Placement constraints (Table 17-6b). -/
structure Place where
  /-- FLAGS: bit 0 EXCLUSIVE, bit 1 CADDY_HBM; R387; reset 0 -/
  flags : Byte := 0
  /-- QUAD_MASK; 4 bits; R387; reset all ones -/
  quads : Byte := 0x0F
  /-- PIPE_MASK; 8 bits; R387; reset all ones -/
  pipes : Byte := 0xFF
  /-- CLUSTER_MASK; 64 bits; R387; reset all ones -/
  clusters : W64 := 0xFFFFFFFFFFFFFFFF
deriving DecidableEq, Repr, Inhabited

/-- Twin states (R371). -/
inductive TwinState where
  | none | forming | paired | solo
deriving DecidableEq, Repr, Inhabited

/-- A queued group of a PAIRED problem (R365). -/
structure TwinGroup where
  /-- PAIR_SEQ; R365 -/
  seq : W64 := 0
  /-- its commit sequence number; R80 -/
  cseq : W64 := 0
  /-- entries in position order; R365 -/
  entries : List Entry := []
deriving DecidableEq, Repr, Inhabited

/-- Twin pair of a problem (R363 to R371). -/
structure Twin where
  /-- state; R371; reset NONE -/
  state : TwinState := .none
  /-- START_STEEP; 64 bits; R363; reset 0 -/
  start : W64 := 0
  /-- TWIN_WAIT, ns; R363; reset 0 -/
  wait : Nat := 0
  /-- PAIR_SEQ; 64 bits; R365; reset 0 -/
  pairSeq : W64 := 0
  /-- chain digest; 64 bits; R365; reset FNV basis at pairing -/
  chain : W64 := 0
  /-- chain values D(s) of the queued groups and of the last merged one, by PAIR_SEQ; R365, R367; reset empty -/
  chains : List (W64 × W64) := []
  /-- twin queue; R365; reset empty -/
  queue : List TwinGroup := []
  /-- MATCHED; 64 bits, saturating; R371; reset 0 -/
  matched : W64 := 0
  /-- DIVERGED; 64 bits, saturating; R371; reset 0 -/
  diverged : W64 := 0
  /-- BARRIER_TIMEOUTS; 64 bits, saturating; R371; reset 0 -/
  timeouts : W64 := 0
  /-- partner barrier message that came before the local release; R367; reset none -/
  early : Option BarrierIn := none
  /-- own digests awaiting the partner's, oldest first: steep, masked status, digest, LT of the freeze; R369; reset none -/
  own : List (W64 × W32 × W64 × Nat) := []
  /-- partner digests that came before the own freeze: steep, status, digest; R369; reset none -/
  partner : List (W64 × W32 × W64) := []
deriving DecidableEq, Repr, Inhabited

/-- Destination of a pour stream (R526). -/
structure Dest where
  /-- CLIENT; R526 -/
  client : Byte := 0
  /-- TC; R526 -/
  tc : Nat := 0
  /-- CB entry or 0xFFFF; R526 -/
  cb : Nat := 0xFFFF
deriving DecidableEq, Repr, Inhabited

/-- A pending checkpoint (R259). -/
structure Ckpt where
  /-- AT_STEEP; R259 -/
  atSteep : W64 := 0
  /-- record captured, waiting to be written; R259 -/
  captured : Option (List Byte) := none
deriving DecidableEq, Repr, Inhabited

/-- The warm-start section of a checkpoint record (Table 11-4). -/
structure WarmRec where
  /-- the iterate; R263 -/
  it : Iterate := {}
  /-- STATUS, bits 9 and 10; R263 -/
  flags : W32 := 0
  /-- STEEP: the source pour's steep number, all ones for none; R261 -/
  source : W64 := 0xFFFFFFFFFFFFFFFF
deriving DecidableEq, Repr, Inhabited

/-- What a resumed problem's first release still takes from its record (R263). -/
structure Resume where
  /-- parameters, until a release's commit has taken them; R263 -/
  params : Option (List W64) := none
  /-- warm-start point, until a steep has taken it; R263 -/
  warm : Option WarmRec := none
deriving DecidableEq, Repr, Inhabited

/-- The trap record kept (Table 9-4), with its own values; TRAPS and PROBLEM are added at the read. -/
structure TrapRec where
  /-- STEEP; R220 -/
  steep : W64 := 0
  /-- ITERATION; 16 bits; R220 -/
  iteration : Nat := 0
  /-- MODE; 8 bits; R220 -/
  mode : Byte := 0
  /-- EXCEPTION; R220 -/
  exception : Nat := 0
  /-- the remaining fields; R220 -/
  t : TrapOp := {}
deriving DecidableEq, Repr, Inhabited

/-- A problem (1024 of them, R12). -/
structure Prob where
  /-- state; Table 2-1; reset EMPTY -/
  st : PState := .empty
  /-- image of the caddy; R71; reset none -/
  im : Option Image := none
  /-- CADDY_BYTES as the caddy was built; R72; reset 0 -/
  caddyBytes : Nat := 0
  /-- bytes of the iterate region it holds; R378; reset 0 -/
  iterBytes : Nat := 0
  /-- LC and W are in the iterate region; R378; reset 0 -/
  lcInPool : Bool := false
  /-- parameter space; N_PARAMS binary64; R71; reset none -/
  params : List W64 := []
  /-- pending store; R79; reset empty -/
  pend : Tbl Pend := []
  /-- COMMIT_SEQ; 64 bits; R80; reset 0 -/
  commitSeq : W64 := 0
  /-- COMMITTED_SEQ; 64 bits; R81; reset 0 -/
  committedSeq : W64 := 0
  /-- HOME: true HBM; R72; reset 0 -/
  inHbm : Bool := false
  /-- WARM_REPAIRED; 32 bits, saturating; R88; reset 0 -/
  warmRepaired : W32 := 0
  /-- GROUPS_DISCARDED; 64 bits; R76; reset 0 -/
  groupsDiscarded : W64 := 0
  /-- ENTRIES_COALESCED; 64 bits; R79; reset 0 -/
  coalesced : W64 := 0
  /-- open groups; R76; reset empty -/
  groups : List OpenGroup := []
  /-- warm-start MODE; R84; reset SELF -/
  warmMode : Nat := 0
  /-- warm-start SOURCE; R84; reset 0 -/
  warmSrc : Nat := 0
  /-- schedule in force; R26; reset none -/
  sched : Sched := {}
  /-- NEXT_STEEP; 64 bits; R34; reset 0 -/
  nextSteep : W64 := 0
  /-- LT of the previous release, ns; R32; reset none -/
  lastRelease : Option Nat := none
  /-- last release instant in the time base, ns; R29; reset none -/
  lastInstant : Option Int := none
  /-- time-base value from which release instants count: the enable or a restart of the time base, ns; R27, R30; reset 0 -/
  notBefore : Int := 0
  /-- held-request slot; R41; reset empty -/
  held : Option HeldReq := none
  /-- overload level, 0 to 4; R44; reset 0 -/
  level : Nat := 0
  /-- LT of the last change of its overload level, ns; R45; reset none -/
  levelAt : Option Nat := none
  /-- counters; Table 2-12; reset 0 -/
  stats : Stats := {}
  /-- steep in flight; R34; reset none -/
  steep : Option Steep := none
  /-- steeps released while one is in flight, oldest first: shed ones and one released by a retirement pour after it, any other
  follows it; R28, R42, R51; reset none -/
  after : List Steep := []
  /-- poured iterate since the last enable; R116; reset none -/
  poured : Option Poured := none
  /-- the last pour whose iterate was frozen before `poured`'s was; R85; reset none -/
  older : Option Poured := none
  /-- parameters that graphs read, as the problem matrices and vectors were last computed; R114; reset none -/
  linAt : Option (List W64) := none
  /-- final steep and status for PROBLEM_RETIRE; R52; reset none -/
  final : Option (W64 × W32) := none
  /-- PROBLEM_ENABLE parameters held during a retirement; R53; reset none -/
  heldEnable : Option Sched := none
  /-- fixed-order mode; R249; reset 0 -/
  fixed : Bool := false
  /-- DIGEST; 64 bits; R264; reset the FNV basis at enable -/
  digest : W64 := 0
  /-- DIGEST_FROM; 64 bits; R264; reset 0 -/
  digestFrom : W64 := 0
  /-- POURS absorbed; 64 bits; R265; reset 0 -/
  digestPours : W64 := 0
  /-- LAST_STEEP absorbed; 64 bits; R265; reset all ones -/
  digestLast : W64 := 0xFFFFFFFFFFFFFFFF
  /-- pending checkpoint; R259; reset none -/
  ckpt : Option Ckpt := none
  /-- what is still to be taken from a resume's record; R263; reset none -/
  resume : Resume := {}
  /-- scalar flags; R217, R221; reset 0 -/
  scalar : FlagRec := { counts := List.replicate 7 0 }
  /-- tensor flags; R206; reset 0 -/
  tensor : FlagRec := { counts := List.replicate 5 0 }
  /-- trap record; R220; reset none -/
  trap : Option TrapRec := none
  /-- TRAPS; 64 bits, saturating; R220; reset 0 -/
  traps : W64 := 0
  /-- rolling context per model with CONTEXT above 0: vectors, entry 1 first; R180; reset zero at enable -/
  ctx : Tbl (List (List W64)) := []
  /-- weights in force where the generation is not 0; R174; reset none (generation 0) -/
  gens : Tbl Gen := []
  /-- previous generation of a model; R242; reset none -/
  prev : Tbl Gen := []
  /-- models staged in the quadrants of the set: MODEL, quadrant, generation; R182, R241; reset none -/
  staged : List (Nat × Nat × Nat) := []
  /-- PROBLEM_ENABLE admitted and weights being staged; R182; reset 0 -/
  staging : Bool := false
  /-- estimator; chapter 6; reset none -/
  est : Est := {}
  /-- placement constraints; R387; reset all ones -/
  place : Place := {}
  /-- resource set held; R35; reset none -/
  set : Option Nat := none
  /-- twin pair; R363; reset NONE -/
  twin : Twin := {}
  /-- pour-stream destinations; R526; reset none -/
  dests : List Dest := []
  /-- a line of it is lost: it is unloaded when retired; R383; reset 0 -/
  lost : Bool := false
  /-- spans a peer group; R360; reset 0 -/
  spans : Bool := false
  /-- a pre-warm for its next release has begun; R30, R184; reset 0 -/
  prewarm : Bool := false
deriving DecidableEq, Repr, Inhabited

/-- A resource set (R385, R390): numbers 0 to 63; a set that a search re-formed while a steep ran on it goes on under a number
from 64 until that steep ends (R389). -/
structure RSet where
  /-- physical cluster of each logical cluster; R385; reset none -/
  clusters : List Nat := []
  /-- physical quadrant of each logical quadrant; R385; reset none -/
  quads : List Nat := []
  /-- physical pipeline of each logical pipeline; R385; reset none -/
  pipes : List Nat := []
  /-- problem whose steep runs on the set or whose prior update holds it; R36, R50; reset none -/
  running : Option Nat := none
  /-- units fenced by command whose replacement waits for the steep in flight (KIND, INDEX); R390; reset none -/
  fencing : List (Nat × Nat) := []
  /-- former sets (numbers 64 and up) whose steeps in flight must end before its first dispatch; R389; reset none -/
  blockers : List Nat := []
  /-- physical quadrants whose weight regions are to be staged; R182; reset none -/
  toStage : List Nat := []
  /-- bytes of the staging region reserved for the set; R380; reset 0 -/
  staging : Nat := 0
deriving DecidableEq, Repr, Inhabited

/-- A training sample (R233). -/
structure TSample where
  /-- steep number; R233 -/
  steep : W64 := 0
  /-- inputs, then context vectors, binary32; R233 -/
  x : List W32 := []
  /-- target, binary32; R233 -/
  y : List W32 := []
deriving DecidableEq, Repr, Inhabited

/-- Training job states (Table 10-2). -/
inductive JState where
  | waiting | training | validating | suspended | stopped
deriving DecidableEq, Repr, Inhabited

/-- A training job's record (Table 10-1). -/
structure JobCfg where
  /-- OPTIMISER: true ADAMW; R232 -/
  adam : Bool := false
  /-- TARGET_LAG; R232 -/
  lag : Nat := 0
  /-- VAL_EVERY; R232 -/
  valEvery : Nat := 2
  /-- BATCH; R232 -/
  batch : Nat := 1
  /-- START_STEEP; R232 -/
  start : Nat := 0
  /-- ROUND_SPAN; R232 -/
  span : Nat := 100
  /-- ROUND_STEPS; R232 -/
  steps : Nat := 1
  /-- PROMOTE_DELAY; R232 -/
  delay : Nat := 0
  /-- TARGET_PARAM; R232 -/
  target : Nat := 0
  /-- RING; R232 -/
  ring : Nat := 1024
  /-- VAL_MAX; R232 -/
  valMax : Nat := 1
  /-- LR, BETA1, BETA2, EPS, DECAY, GRAD_CLIP, ACCEPT_RATIO; binary32; R232 -/
  hyper : List W32 := []
  /-- WATCH; R242 -/
  watch : Nat := 0
  /-- WATCH_LIMIT; R242 -/
  watchLimit : Nat := 1
  /-- loss weights λ; binary32; R232 -/
  lambda : List W32 := []
deriving DecidableEq, Repr, Inhabited

/-- A training job (R231 to R248). -/
structure Job where
  /-- problem; R232 -/
  problem : Nat := 0
  /-- MODEL; R232 -/
  model : Nat := 0
  /-- record; R232 -/
  cfg : JobCfg := {}
  /-- STATE; R248; reset WAITING -/
  state : JState := .waiting
  /-- ring of samples, ascending steep number; R234; reset empty -/
  ring : List TSample := []
  /-- inputs of recent steeps waiting for their target: steep, code usable, model inputs and context; R233; reset empty -/
  recent : List (W64 × Bool × List W64) := []
  /-- master weights, biases last of each DENSE layer, binary32; R236 -/
  master : List W32 := []
  /-- first moments; binary32; R237; reset 0 -/
  m : List W32 := []
  /-- second moments; binary32; R237; reset 0 -/
  v : List W32 := []
  /-- steps applied since the optimiser state was last zeroed; R237; reset 0 -/
  t : Nat := 0
  /-- ROUND; R235; reset 1 -/
  round : Nat := 1
  /-- round in progress: steps done of it; R235; reset none -/
  stepsDone : Option Nat := none
  /-- training snapshot; R235 -/
  train : List TSample := []
  /-- validation snapshot; R235 -/
  val : List TSample := []
  /-- masters, moments and t at the start of the round, for a rejection; R239 -/
  base : List W32 × List W32 × List W32 × Nat := ([], [], [], 0)
  /-- accepted, unpromoted generations: round and weights; R239; reset empty -/
  accepted : List (Nat × List Byte) := []
  /-- PROMOTED_AT; 64 bits; R248; reset 0 -/
  promotedAt : W64 := 0
  /-- STEPS, SKIPPED_STEP, CAPTURED, CAPTURE_REFUSED, NOT_CAPTURED, OVERWRITTEN; 64 bits, saturating; R248; reset 0 -/
  c64 : List W64 := List.replicate 6 0
  /-- ACCEPTED, REJECTED, SKIPPED_GEN, AUTO_ROLLBACK; 32 bits, saturating; R248; reset 0 -/
  c32 : List W32 := List.replicate 4 0
  /-- LAST_TRAIN_LOSS, LAST_L_CAND, LAST_L_CUR; binary32; R248; reset 0 -/
  losses : List W32 := List.replicate 3 0
  /-- end of the present watch (first steep after it) and bad pours counted; R242; reset none -/
  watch : Option (Nat × Nat) := none
  /-- pending rollbacks: steep, target (0 previous, 1 generation 0), commanded; R242, R243; reset none -/
  rollbacks : List (Nat × Nat × Bool) := []
  /-- TFLAGS; 5 bits, sticky; R248; reset 0 -/
  tflags : BitVec 5 := 0
  /-- SFLAGS; 7 bits, sticky; R248; reset 0 -/
  sflags : BitVec 7 := 0
  /-- SUSPENDED_US; R248; reset 0 -/
  suspendedUs : Nat := 0
  /-- LT at which the present suspension began, ns; R248; reset none -/
  suspendedAt : Option Nat := none
  /-- a stop is in progress; R247; reset 0 -/
  stopping : Bool := false
  /-- TRAIN_SET held during the stop, with its TRAIN_POWER; R247; reset none -/
  held : Option (JobCfg × Nat) := none
deriving DecidableEq, Repr, Inhabited

end Sys2Proof.Machine
end

