-- ==== Sys2Proof/Machine/StNet.lean ====
section
/-! DEFINITION. State of the ports, the TSN switch, YSP and the peer links (chapters 15 and 16). -/
namespace Sys2Proof.Machine

/-- Device addresses (Table 15-2). -/
structure NetCfg where
  /-- MAC; 48 bits; R334; reset 0 -/
  mac : BitVec 48 := 0
  /-- UDP_PORT as given, 0 selects 47110; 16 bits; R334; reset 0 -/
  udp : W16 := 0
  /-- IPV4; 32 bits; R334; reset 0 -/
  ipv4 : W32 := 0
  /-- IPV6; 128 bits; R334; reset 0 -/
  ipv6 : BitVec 128 := 0
  /-- YSP_VLAN; 12 bits; R334; reset 0 -/
  vlan : W16 := 0
deriving DecidableEq, Repr, Inhabited

/-- A port entry (Table 15-3). -/
structure PortCfg where
  /-- MODE; R331; reset 0 -/
  mode : Nat := 0
  /-- FEC; R331; reset 0 -/
  fec : Nat := 0
  /-- FLAGS: AN, YSP, MGMT, PREEMPT, VERIFY; 5 bits; Table 15-3; reset 0 -/
  flags : Byte := 0
  /-- EXPRESS; 8 bits; R342; reset 0 -/
  express : Byte := 0
  /-- MTU; R338; reset 0 -/
  mtu : Nat := 0
  /-- PVID; Table 15-3; reset 0 -/
  pvid : Nat := 0
  /-- DELAY_ASYM, 2^-16 ns; R322; reset 0 -/
  asym : Int := 0
  /-- HOLD_ADVANCE, ns; R342; reset 0 -/
  hold : Nat := 0
  /-- ADD_FRAG; R342; reset 0 -/
  addFrag : Nat := 0
  /-- PTP_TC; Table 15-3; reset 0 -/
  ptpTc : Nat := 0
deriving DecidableEq, Repr, Inhabited

/-- Port states (R335). -/
inductive PortState where
  | disabled | training | up | downing
deriving DecidableEq, Repr, Inhabited

/-- A gate control list (Table 15-5). -/
structure GateList where
  /-- TIME_BASE; R340 -/
  tb : Nat := 0
  /-- FALLBACK_GATES; R341 -/
  fallback : Byte := 0
  /-- BASE_TIME, ns; R340 -/
  base : Nat := 0
  /-- CYCLE_TIME, ns; R340 -/
  cycle : Nat := 0
  /-- entries: GATES and INTERVAL ns; R340 -/
  entries : List (Byte × Nat) := []
deriving DecidableEq, Repr, Inhabited

/-- A frame waiting at an egress port. -/
inductive QItem where
  /-- a transit frame -/
  | transit (e : EthIn)
  /-- a pour set of a destination, its frames in part order; `begun` once one of them has left (R343) -/
  | pour (client : Byte) (problem : Nat) (steep : W64) (begun : Bool) (dst : NetSrc) (frames : List (List Byte))
deriving DecidableEq, Repr, Inhabited

/-- An external port. -/
structure Port where
  /-- entry in force; R334; reset 0 -/
  cfg : PortCfg := {}
  /-- STATE; 3 bits; R335; reset DISABLED -/
  state : PortState := .disabled
  /-- ENABLE_HELD; 1 bit; R335; reset 0 -/
  enableHeld : Bool := false
  /-- entry that a shut-down in progress restarts with; R334; reset none -/
  restart : Option PortCfg := none
  /-- the shut-down in progress was the partner's; R335; reset 0 -/
  byPartner : Bool := false
  /-- it was in use before SLEEP and restarts at the wake; R467; reset 0 -/
  resume : Bool := false
  /-- LINK_CHANGED; W1C; Table 15-11; reset 0 -/
  linkChanged : Bool := false
  /-- FEC_UNCORR_SEEN; W1C; Table 15-11; reset 0 -/
  fecSeen : Bool := false
  /-- PREEMPT_ACTIVE; 1 bit; R342; reset 0 -/
  preemptActive : Bool := false
  /-- preemption hold is asserted; R342; reset 0 -/
  holding : Bool := false
  /-- SWX_PORT_DROPS; 32 bits, saturating, RC; Table 15-12; reset 0 -/
  drops : W32 := 0
  /-- SWX_FEC_CORR; 32 bits, saturating, RC; Table 15-12; reset 0 -/
  fecCorr : W32 := 0
  /-- SWX_FEC_UNCORR; 32 bits, saturating, RC; Table 15-12; reset 0 -/
  fecUncorr : W32 := 0
  /-- SWX_POUR_DROPPED; 32 bits, saturating, RC; R343; reset 0 -/
  pourDropped : W32 := 0
  /-- gate list in force; R340; reset none -/
  gate : Option GateList := none
  /-- gate list that takes effect at a cycle start of its own, and the LT of GATE_SET; R340; reset none -/
  gateNext : Option (GateList × Nat) := none
  /-- entry of the list in force now; R340; reset none -/
  gatePos : Option Nat := none
  /-- frames waiting: traffic class and item, oldest first; R338, R343; reset empty -/
  queue : List (Nat × QItem) := []
deriving DecidableEq, Repr, Inhabited

/-- A filtering-database entry (R338). -/
structure Fdb where
  /-- MAC; R338 -/
  mac : BitVec 48 := 0
  /-- VLAN; R338 -/
  vid : BitVec 12 := 0
  /-- port; R338 -/
  port : Nat := 0
  /-- static; R336 -/
  static : Bool := false
  /-- LT last seen, ns; R338 -/
  seen : Nat := 0
deriving DecidableEq, Repr, Inhabited

/-- A stream filter (Table 15-6). -/
structure StreamFilter where
  /-- ingress port mask -/
  ports : W16 := 0
  /-- destination MAC -/
  mac : BitVec 48 := 0
  /-- VLAN -/
  vlan : Nat := 0
  /-- PCP, or 0xFF any -/
  pcp : Nat := 0
  /-- MAX_SDU -/
  maxSdu : Nat := 0
  /-- BLOCK_OVERSIZE -/
  blockOversize : Bool := false
  /-- stream gate or 0xFFFF -/
  gate : Nat := 0xFFFF
  /-- flow meter or 0xFFFF -/
  meter : Nat := 0xFFFF
  /-- closed by an oversize frame; R345; reset 0 -/
  closed : Bool := false
deriving DecidableEq, Repr, Inhabited

/-- A stream gate (Table 15-6). -/
structure StreamGate where
  /-- time base -/
  tb : Nat := 0
  /-- BASE_TIME, ns -/
  base : Nat := 0
  /-- CYCLE_TIME, ns -/
  cycle : Nat := 0
  /-- entries: open and interval ns -/
  entries : List (Bool × Nat) := []
deriving DecidableEq, Repr, Inhabited

/-- A flow meter (Table 15-6); bucket contents in bytes · 10^9 · 8 / 1000 units are kept as rationals over ns. -/
structure Meter where
  /-- CIR, kb/s -/
  cir : Nat := 0
  /-- EIR, kb/s -/
  eir : Nat := 0
  /-- CBS, bytes -/
  cbs : Nat := 0
  /-- EBS, bytes -/
  ebs : Nat := 0
  /-- committed bucket, bits · 10^6; IEEE 802.1Qci; reset full -/
  c : Nat := 0
  /-- excess bucket, bits · 10^6; reset full -/
  e : Nat := 0
  /-- LT of the last update, ns -/
  at' : Nat := 0
deriving DecidableEq, Repr, Inhabited

/-- Stream identification (R346): null (MAC is the destination) or source MAC and VLAN. -/
structure StreamId where
  /-- 0 null, 1 source MAC and VLAN -/
  kind : Nat := 0
  /-- MAC compared -/
  mac : BitVec 48 := 0
  /-- VLAN -/
  vlan : Nat := 0
deriving DecidableEq, Repr, Inhabited

/-- A sequence-generation entry (Table 15-6). -/
structure SeqGen where
  /-- stream -/
  id : StreamId := {}
  /-- egress port pair -/
  p0 : Nat := 0
  /-- second port -/
  p1 : Nat := 0
  /-- next sequence number; 16 bits; reset 0 -/
  seq : W16 := 0
deriving DecidableEq, Repr, Inhabited

/-- A sequence-recovery entry (Table 15-6), vector algorithm. -/
structure SeqRec where
  /-- stream -/
  id : StreamId := {}
  /-- history length -/
  history : Nat := 1
  /-- reset time, ms -/
  resetMs : Nat := 1
  /-- newest sequence number accepted; reset none -/
  newest : Option W16 := none
  /-- sequence numbers seen within the history; reset empty -/
  seen : List W16 := []
deriving DecidableEq, Repr, Inhabited

/-- Boot network configuration kept in nonvolatile store (R336). -/
structure NetStore where
  /-- PORT_SET record; R336; reset none -/
  ports : Option (NetCfg × List PortCfg) := none
  /-- GATE_SET records by port; R336; reset none -/
  gates : Tbl GateList := []
  /-- STREAM_SET records by KIND · 1024 + INDEX; R344; reset none -/
  streams : Tbl (List Byte) := []
deriving DecidableEq, Repr, Inhabited

/-- The switch and YSP (chapter 15). -/
structure Net where
  /-- device addresses; R334; reset 0 -/
  cfg : NetCfg := {}
  /-- ports by number; R335; reset DISABLED -/
  ports : Tbl Port := []
  /-- filtering database; 16,384 entries; R338; reset empty -/
  fdb : List Fdb := []
  /-- stream filters; 512; R344; reset empty -/
  filters : Tbl StreamFilter := []
  /-- stream gates; 64; R344; reset empty -/
  sgates : Tbl StreamGate := []
  /-- flow meters; 256; R344; reset empty -/
  meters : Tbl Meter := []
  /-- sequence generation; 128; R344; reset empty -/
  gens : Tbl SeqGen := []
  /-- sequence recovery; 256; R344; reset empty -/
  recs : Tbl SeqRec := []
  /-- SWX_YSP_DROPPED; 32 bits, saturating, RC; Table 15-12; reset 0 -/
  yspDropped : W32 := 0
  /-- SWX_NOT_READY_SENT; 32 bits, saturating, RC; R337; reset 0 -/
  notReadySent : W32 := 0
  /-- SWX_NOT_READY_SUPPRESSED; 32 bits, saturating, RC; R337; reset 0 -/
  notReadySupp : W32 := 0
  /-- SWX_STATUS_SUPPRESSED; 32 bits, saturating, RC; R351; reset 0 -/
  statusSupp : W32 := 0
  /-- SWX_QCI_DROPPED; 32 bits, saturating, RC; R345; reset 0 -/
  qciDropped : W32 := 0
  /-- SWX_CB_DISCARDED; 32 bits, saturating, RC; R346; reset 0 -/
  cbDiscarded : W32 := 0
  /-- LT of the last NOT_READY per CLIENT value, ns; R337; reset none -/
  notReadyAt : Tbl Nat := []
  /-- boot network configuration; nonvolatile; R336; reset none (log entry 18) -/
  store : NetStore := {}
deriving DecidableEq, Repr, Inhabited

/-- Peer-link states (R358). -/
inductive LinkState where
  | disabled | training | up | draining
deriving DecidableEq, Repr, Inhabited

/-- A peer link. -/
structure Link where
  /-- STATE; R358; reset DISABLED -/
  state : LinkState := .disabled
  /-- LANES_UP; 4 bits; Table 16-4; reset 0 -/
  lanes : BitVec 4 := 0
  /-- ENABLE_HELD; R358; reset 0 -/
  enableHeld : Bool := false
  /-- LINK_CHANGED; W1C; Table 16-4; reset 0 -/
  linkChanged : Bool := false
  /-- cause of the shut-down in progress: 0 commanded, 1 partner, 2 lanes; Table 18-15; reset 0 -/
  cause : Nat := 0
  /-- PLK_REPLAYS; 32 bits, saturating, RC; R356; reset 0 -/
  replays : W32 := 0
  /-- PLK_CREDIT_WAIT; 32 bits, saturating, RC; Table 16-5; reset 0 -/
  creditWait : W32 := 0
  /-- PLK_PEER.GROUP; 8 bits; R359; reset 0 -/
  peerGroup : Byte := 0
  /-- PLK_PEER.RANK; 8 bits; R359; reset 0 -/
  peerRank : Byte := 0
  /-- enabled when last in service; nonvolatile; R358; reset 0 -/
  wasEnabled : Bool := false
  /-- LT at which each VC2 flit was sent whose credit the receiver has not returned, oldest first; at most 16; R357; reset none -/
  vc2Sent : List Nat := []
  /-- VC2 messages that wait for credit, oldest first: flits and message; R357; reset none -/
  vc2Wait : List (Nat × Out) := []
  /-- quarters of a CK21 cycle in which VC0 waited, not yet counted in PLK_CREDIT_WAIT; 0 to 3; Table 16-5; reset 0 -/
  waitPart : Nat := 0
deriving DecidableEq, Repr, Inhabited

/-- Peer-group membership (R359). -/
structure Group where
  /-- group ID, 0 none; R359; reset 0 -/
  id : Byte := 0
  /-- rank; R359; reset 0 -/
  rank : Byte := 0
  /-- members n; R359; reset 0 -/
  n : Nat := 0
  /-- link per rank; R359; reset 0 -/
  links : List Byte := []
  /-- the group carries no problem: a record or a partner disagreed; R359; reset 0 -/
  invalid : Bool := false
deriving DecidableEq, Repr, Inhabited

end Sys2Proof.Machine
end

