-- ==== Sys2Proof/Machine/StFault.lean ====
section
/-! DEFINITION. State of the units and their faults, LIMP, recovery and test sessions (chapter 20), and of the memories
and arbiters (chapter 17). -/
namespace Sys2Proof.Machine

/-- A unit of Table 20-2 (R478, R488); units are kept under KIND · 256 + INDEX. -/
structure Unit' where
  /-- STATE: 0 in service, 1 fenced by fault, 2 fenced by command, 3 fenced by self-test; R488; reset 0 -/
  state : Nat := 0
  /-- DETECTOR of the last fault; R488; reset 0 -/
  detector : Nat := 0
  /-- TRANSIENTS; 32 bits, saturating; R488; reset 0 -/
  transients : W32 := 0
  /-- LAST_FAULT_LT; 64 bits; R488; reset 0 -/
  lastFault : Nat := 0
  /-- FENCED_LT; 64 bits; R488; reset 0 -/
  fencedAt : Nat := 0
  /-- a background test of R475 is pending; R475; reset 0 -/
  unresolved : Bool := false
deriving DecidableEq, Repr, Inhabited

/-- Faults, LIMP, recovery and test sessions. -/
structure Faults where
  /-- units; 446; R488; reset in service -/
  units : Tbl Unit' := []
  /-- TRANSIENT_TOTAL; 64 bits; R488; reset 0 -/
  transientTotal : W64 := 0
  /-- LASTING_TOTAL; 64 bits; R488; reset 0 -/
  lastingTotal : W64 := 0
  /-- UNRESOLVED_TOTAL; 32 bits; R488; reset 0 -/
  unresolvedTotal : W32 := 0
  /-- MBX_LIMP.PORTS; 16 bits; R491; reset 0 -/
  limpPorts : W16 := 0
  /-- MBX_LIMP.ENABLE; 1 bit; R491; reset 0 -/
  limpEnable : Bool := false
  /-- MBX_LIMP.MIN_PRIORITY; 8 bits; R491; reset 0xFF -/
  limpMin : Byte := 0xFF
  /-- MBX_FAULT_STATUS.LIMP_SEEN; W1C; R491; reset 0 -/
  limpSeen : Bool := false
  /-- LIMP is exhausted and the limp set is being retired; R483; reset false -/
  exhausted : Bool := false
  /-- MBX_FAULT_STATUS.COOLANT_LOST; R491; reset 0 -/
  coolantLost : Bool := false
  /-- LIMP is entered or being entered: LT of the detection, ns; R481; reset none -/
  limp : Option Nat := none
  /-- problems of the limp set; R482; reset empty -/
  limpSet : List Nat := []
  /-- LT since which no condition of Table 20-3 has held, ns; R484; reset none -/
  calmSince : Option Nat := none
  /-- flow samples of the last 20 ms, mL/min, newest first; R480; reset empty -/
  flows : List Nat := []
  /-- inlet samples of the last 20 ms, °C, newest first; R480; reset empty -/
  inlets : List Int := []
  /-- main junction samples of the last 1 ms, °C, newest first; R480; reset empty -/
  junctions : List Int := []
  /-- MBX_FAULT_STATUS.RECOVERY; R485; reset 0 -/
  recovery : Bool := false
  /-- MBX_FAULT_STATUS.RECOVERY_CAUSE; 2 bits; R485; reset 0 -/
  recoveryCause : Nat := 0
  /-- a FIRMWARE_STAGE has completed with OK since recovery began; R485; reset 0 -/
  staged : Bool := false
  /-- RECOVERY_EXIT has asked for a restart of the main die; R485; reset 0 -/
  restart : Bool := false
  /-- MBX_FAULT_STATUS.TEST_SESSION; R487; reset 0 -/
  testSession : Bool := false
  /-- the warden keeps the main die off after a failed self-test of a main-die part; R477; reset 0 -/
  mainDead : Bool := false
  /-- MAIN_DIE_LOST to copy into the log at READY: ARG and DETECTOR; R477; reset none -/
  lostRecord : Option (W16 × Byte) := none
deriving DecidableEq, Repr, Inhabited

/-- Memory counters and spares (R384). -/
structure MemSt where
  /-- HBM_CORRECTED, HBM_UNCORRECTED, HBM_ROWS_SPARED, HBM_BANKS_REMOVED, HBM_LANES_REPAIRED, POOL_CORRECTED,
  POOL_UNCORRECTED, LOCAL_CORRECTED, CADDY_LOST, ITERATES_LOST; 64 bits each, saturating; R384; reset 0 -/
  counts : List W64 := List.replicate 10 0
  /-- POOL_SPARES_USED; 0 to 2; R384; reset 0 -/
  spares : Nat := 0
deriving DecidableEq, Repr, Inhabited

/-- An arbiter (R394 to R403). -/
structure Arb where
  /-- FREEZE; 1 bit; R399; reset 0 -/
  freeze : Bool := false
  /-- STARVE_IRQ_EN; 1 bit; R400; reset 1 -/
  irqEn : Bool := true
  /-- STARVED; 8 bits, W1C; R400; reset 0 -/
  starved : Byte := 0
  /-- POINTER; 3 bits; R395; reset 0 -/
  pointer : Nat := 0
  /-- LT of the emergency requester's last access, from which EMERGENCY is computed; R397; reset none -/
  emergencyAt : Option Nat := none
  /-- ARB_WEIGHTS; 32 bits; R401; reset 0x21422848 -/
  weights : W32 := 0x21422848
  /-- ARB_STARVE_LIMIT.LIMIT; 16 bits; R400; reset 0x0400 -/
  limit : W16 := 0x0400
  /-- ARB_STARVE_CNT0 to 7; 32 bits each, saturating, RC; R400; reset 0 -/
  cnt : List W32 := List.replicate 8 0
  /-- pending requests: class and bursts, oldest first; R396; reset empty -/
  queue : List (Nat × Nat) := []
  /-- consecutive grants the class under the pointer has had since the pointer moved onto it; R395; reset 0 -/
  used : Nat := 0
  /-- grants to other classes since each class's oldest pending request arrived; R400; reset 0 -/
  waits : List Nat := List.replicate 8 0
  /-- transfer in progress: class and bursts; R394; reset none -/
  cur : Option (Nat × Nat) := none
deriving DecidableEq, Repr, Inhabited

end Sys2Proof.Machine
end

