-- ==== Sys2Proof/Machine/StTime.lean ====
section
/-! DEFINITION. State of the time-base unit (chapter 14). -/
namespace Sys2Proof.Machine

/-- Time-base states (Table 14-1). -/
inductive TbState where
  | disabled | free | acquiring | locked | holdover | disabling
deriving DecidableEq, Repr, Inhabited

/-- A time-base record (Table 14-2). -/
structure TbCfg where
  /-- SOURCE; R310; reset 0 -/
  source : Nat := 0
  /-- DOMAIN; R310; reset 0 -/
  domain : Nat := 0
  /-- INIT_MODE 1 FROM_VALUE; R310; reset 0 -/
  fromValue : Bool := false
  /-- PORTS; 16 bits; R310; reset 0 -/
  ports : W16 := 0
  /-- PRIORITY1; R310; reset 0 -/
  prio1 : Byte := 0
  /-- PRIORITY2; R310; reset 0 -/
  prio2 : Byte := 0
  /-- CLOCK_CLASS; R310; reset 0 -/
  cls : Byte := 0
  /-- LOG_SYNC; R310; reset 0 -/
  logSync : Int := 0
  /-- INIT_VALUE, ns; R310; reset 0 -/
  initValue : Nat := 0
  /-- STEP_LIMIT, ns; R310; reset 0 -/
  stepLimit : Nat := 0
  /-- SLEW_PPB; R310; reset 0 -/
  slew : Nat := 0
  /-- LOCK_NS; R310; reset 0 -/
  lockNs : Nat := 0
deriving DecidableEq, Repr, Inhabited

/-- The master a time base follows (R313, R329). -/
structure Master where
  /-- its Announce; R329 -/
  ann : AnnounceIn := {}
  /-- log2 of its sync interval; R316 -/
  logSync : Int := 0
deriving DecidableEq, Repr, Inhabited

/-- A time base (TB0 to TB3). -/
structure TBase where
  /-- STATE; 3 bits; Table 14-1; reset DISABLED -/
  state : TbState := .disabled
  /-- value, 2^-40 ns; 104 bits; R307; reset 0 -/
  value : Nat := 0
  /-- RATE, 2^-40 ns per ns; signed 32 bits; R309; reset 0 -/
  rate : Int := 0
  /-- integ, 2^-48 ppb; R313; reset 0 -/
  integ : Int := 0
  /-- rate_ppb, 2^-48 ppb; R313; reset 0 -/
  ratePpb : Int := 0
  /-- record in force; R310; reset 0 -/
  cfg : TbCfg := {}
  /-- DOMAIN followed now; 8 bits; Table 14-6; reset 0 -/
  domain : Nat := 0
  /-- ports in use now; 16 bits; R327; reset 0 -/
  ports : W16 := 0
  /-- SOURCE in use now; R327; reset 0 -/
  source : Nat := 0
  /-- consecutive measurements below LOCK_NS; R314; reset 0 -/
  lockRun : Nat := 0
  /-- consecutive measurements at or above STEP_LIMIT; R314; reset 0 -/
  unlockRun : Nat := 0
  /-- ENABLE_HELD with the held record; R312; reset none -/
  held : Option TbCfg := none
  /-- SWITCH_BLOCKED; W1C; R326; reset 0 -/
  switchBlocked : Bool := false
  /-- SWITCHED; W1C; R327; reset 0 -/
  switched : Bool := false
  /-- STEPPED; W1C; R315; reset 0 -/
  stepped : Bool := false
  /-- CONVERGING; R327; reset 0 -/
  converging : Bool := false
  /-- PAIRED with PARTNER; R326; reset none -/
  partner : Option Nat := none
  /-- ROLE 1 standby; R326; reset 0 -/
  standby : Bool := false
  /-- master chosen by the BMCA; R329; reset none -/
  master : Option Master := none
  /-- port of the master, PORT with PORT_VALID; Table 14-6; reset none -/
  slavePort : Option Nat := none
  /-- OFFSET, ns, signed 32 bits saturating; Table 14-6; reset 0 -/
  offset : Int := 0
  /-- STEPS; 16 bits, saturating, RC; Table 14-6; reset 0 -/
  steps : W16 := 0
  /-- SWITCHES; 16 bits, saturating, RC; Table 14-6; reset 0 -/
  switches : W16 := 0
  /-- LT of the last valid Sync of the master, ns; R316; reset none -/
  lastSync : Option Nat := none
  /-- two-step Sync waiting for its Follow_Up: sequenceId, time-base value at ingress (2^-40 ns), correction; R313; reset none -/
  twoStep : Option (W16 × Int × Int) := none
  /-- mean path delay of the end-to-end mechanism, 2^-16 ns; R313; reset 0 -/
  pathDelay : Int := 0
  /-- Sync-side data for the end-to-end exchange: master time less time-base value at the last Sync, 2^-16 ns; R313; reset none -/
  syncDiff : Option Int := none
  /-- egress time of the pending Delay_Req in the time base, 2^-16 ns, and its sequenceId; R313; reset none -/
  delayReq : Option (W16 × Int) := none
  /-- sequenceId of the next PTP message sent; R323; reset 0 -/
  seqId : W16 := 0
  /-- log2 of the announce interval in use, as Signaling asked; Table 14-4; reset 0 -/
  logAnnounce : Int := 0
  /-- log2 of the sync interval in use as master; Table 14-4; reset LOG_SYNC -/
  logSync : Int := 0
deriving DecidableEq, Repr, Inhabited

/-- PTP state of a port (R322, R324). -/
structure PtpPort where
  /-- mean link delay measured, 2^-16 ns; R313; reset none -/
  delay : Option Int := none
  /-- pending Pdelay_Req: sequenceId and egress LT, 2^-16 ns; R313; reset none -/
  req : Option (W16 × Int) := none
  /-- log2 of the Pdelay interval in use; Table 14-4; reset 0 -/
  logPdelay : Int := 0
  /-- sequenceId of the next Pdelay_Req; reset 0 -/
  seqId : W16 := 0
deriving DecidableEq, Repr, Inhabited

/-- The time-base unit besides LT. -/
structure TimeSt where
  /-- TB0 to TB3; R307; reset DISABLED -/
  tbs : Tbl TBase := []
  /-- PTP state per port; R322; reset none -/
  ports : Tbl PtpPort := []
  /-- latched LT, ns; R330, R515; reset 0 -/
  latchLt : Nat := 0
  /-- latched values of TB0 to TB3, 2^-40 ns; R330; reset 0 -/
  latchTb : List Nat := [0, 0, 0, 0]
  /-- TBU_TC_UNPARSED; 32 bits, saturating, RC; R325; reset 0 -/
  unparsed : W32 := 0
  /-- TBU_PTP_IGNORED; 32 bits, saturating, RC; R329; reset 0 -/
  ignored : W32 := 0
deriving DecidableEq, Repr, Inhabited

end Sys2Proof.Machine
end

