-- ==== Sys2Proof/Machine/StPower.lean ====
section
/-! DEFINITION. State of power, clocks, start-up, keys, firmware and the debug port (chapters 19 and 21). -/
namespace Sys2Proof.Machine

/-- Power states (Table 1-10, R441); `unpowered` before power good. -/
inductive Power where
  | unpowered | run | idle | sleep | limp | off
deriving DecidableEq, Repr, Inhabited

/-- States of a power domain (R443). -/
inductive PdState where
  | off | kettle | on | goingOff
deriving DecidableEq, Repr, Inhabited

/-- A power domain. -/
structure Pd where
  /-- state; 2 bits; R443; reset OFF -/
  state : PdState := .off
  /-- a wake from KETTLE or OFF is under way; R445; reset 0 -/
  waking : Bool := false
  /-- a wake request is held while GOING_OFF; R446; reset 0 -/
  heldWake : Bool := false
  /-- LT of the last use, ns; R448; reset 0 -/
  lastUse : Nat := 0
deriving DecidableEq, Repr, Inhabited

/-- A kettle class (R448). -/
structure Kettle where
  /-- POLICY: 0 AUTO, 1 ALWAYS_KETTLE, 2 ALWAYS_RUN; R448; reset AUTO -/
  policy : Nat := 0
  /-- HOLD_US; R448; reset 1000 -/
  holdUs : Nat := 1000
deriving DecidableEq, Repr, Inhabited

/-- A Rankoaz bank in the nonvolatile store (R453). -/
structure FwBank where
  /-- the package verifies under R452; R453; reset 1 (log entry 20) -/
  valid : Bool := true
  /-- security version; R452; reset 0 (log entry 20) -/
  version : W32 := 0
  /-- the staged package bytes; R457; reset empty (the factory package, not given) -/
  bytes : List Byte := []
deriving DecidableEq, Repr, Inhabited

/-- Boot stages (Table 19-4). -/
inductive Stage where
  /-- before power good, or in OFF or SLEEP with the main die unpowered -/
  | down
  /-- power good: the always-on logic counts -/
  | good
  /-- the warden runs -/
  | warden
  /-- PD58 powered, field I/O configuration applied -/
  | edge
  /-- boot loop profile handled -/
  | profile
  /-- main die powered -/
  | mainOn
  /-- switch core runs -/
  | switchOn
  /-- boot self-test complete -/
  | tested
  /-- HBM trained -/
  | hbm
  /-- MBX_READY.READY -/
  | ready
  /-- MBX_READY.FULL_SERVICE -/
  | full
deriving DecidableEq, Repr, Inhabited

/-- Nonvolatile items of the warden and Rankoaz (R458). -/
structure NvStore where
  /-- power cap stored, W; R460; reset none -/
  cap : Option Nat := none
  /-- key slots 0 to 7: 96 bytes each; R455; reset none -/
  keys : Tbl (List Byte) := []
  /-- IMAGE_SIGN_REQUIRE mode; R456; reset 0 -/
  sign : Nat := 0
  /-- Rankoaz banks A and B; R453; reset valid (log entry 20) -/
  banks : List FwBank := [{}, {}]
  /-- the bank most recently staged; R453; reset A -/
  boot : Nat := 0
  /-- minimum security version; R452; reset 0 -/
  minVersion : W32 := 0
  /-- writes to the store that are not complete: 0 profile, 1 boot profile, 2 field I/O, 3 key slot, 4 cap, 5 network,
  with index and bytes; R288, R344, R455; reset empty -/
  pendingWrites : List (Nat × Nat × List Byte) := []
deriving DecidableEq, Repr, Inhabited

/-- Power, boot and security. -/
structure PowerSt where
  /-- power state; R441; reset unpowered -/
  power : Power := .unpowered
  /-- boot stage reached; Table 19-4; reset down -/
  stage : Stage := .down
  /-- full service has been reached since power good; R337; reset 0 -/
  everFull : Bool := false
  /-- ns since power good or the wake event, counted by the always-on logic; R450; reset 0 -/
  since : Nat := 0
  /-- power domains by number; R443; reset OFF -/
  pds : Tbl Pd := []
  /-- kettle classes 0 to 4; R448; reset AUTO, 1000 µs -/
  kettle : Tbl Kettle := []
  /-- HELD_WAKES; 32 bits, saturating; R446; reset 0 -/
  heldWakes : W32 := 0
  /-- COLD_WAKES; 32 bits, saturating; R468; reset 0 -/
  coldWakes : W32 := 0
  /-- CAP, W; R460; reset 720 -/
  cap : Nat := 720
  /-- thermal limit, mW; R463; reset none (does not restrict) -/
  thermal : Option Nat := none
  /-- THROTTLING; R463; reset 0 -/
  throttling : Bool := false
  /-- governor actions in force, newest first: step of Table 19-6 and what it lowered (step 1: 0 reduced, 1 suspended; steps 3
  and 4: mask of quadrants, bit 4 CK09); R461; reset none -/
  gov : List (Nat × Nat) := []
  /-- LT of the last governor action, ns; R461; reset none -/
  govAt : Option Nat := none
  /-- LT of the last change of the thermal limit, ns; R463; reset none -/
  thermalAt : Option Nat := none
  /-- CK02 of PD03 to PD17, MHz; R461; reset 2500 (log entry 21) -/
  hostClk : Nat := 2500
  /-- clocks of Q0 to Q3, MHz; R461; reset 1800 -/
  quadClk : List Nat := [1800, 1800, 1800, 1800]
  /-- CK09, MHz; R461; reset 1800 -/
  vecClk : Nat := 1800
  /-- factor G in eighths; R461; reset 8 -/
  g : Nat := 8
  /-- the clocks are lowered for LIMP; R481; reset 0 -/
  limpClocks : Bool := false
  /-- 1 ms mean input power, mW; R461; reset 0 -/
  meanMw : Nat := 0
  /-- PEAK_MW; R468; reset 0 -/
  peakMw : Nat := 0
  /-- input voltage, 10 mV; R468; reset 0 -/
  voltage : Nat := 0
  /-- main-die junction, 1/16 °C; R468; reset 0 -/
  mainTj : Int := 0
  /-- edge-die junction, 1/16 °C; R468; reset 0 -/
  edgeTj : Int := 0
  /-- coolant inlet, 1/16 °C; R468; reset 0 -/
  coolantIn : Int := 0
  /-- coolant flow, 0.01 L/min; R468; reset 0 -/
  flow : Nat := 0
  /-- PWR_WAKE_CAUSE; 4 bits, W1C; R466; reset 0x8 -/
  wakeCause : BitVec 4 := 0x8
  /-- entry to SLEEP (2) or OFF (4) in progress; R464; reset none -/
  entering : Option Nat := none
  /-- wake sources enabled; 3 bits; R442; reset 0 -/
  wakeMask : BitVec 3 := 0
  /-- TIMER_MS; R442; reset 0 -/
  timerMs : Nat := 0
  /-- wake event held during the entry; R466; reset none -/
  heldWake : Option WakeSource := none
  /-- LT at entry to SLEEP or OFF, and the always-on count then, ns; R308, R466; reset none -/
  sleepCount : Option (Nat × Nat) := none
  /-- source of the wake in progress and whether from OFF; R466; reset none -/
  waking : Option (WakeSource × Bool) := none
  /-- FW_BANK running; R453; reset A -/
  bank : Nat := 0
  /-- FW_FALLBACK; R453; reset 0 -/
  fallback : Bool := false
  /-- boot self-test of the main die is under way: Heritage mode; Table 19-4; reset 0 -/
  selfTesting : Bool := false
  /-- FIRMWARE_STAGE in progress: bank, package; R457; reset none -/
  staging : Option (Nat × List Byte) := none
  /-- DEBUG_UNLOCKED; R459; reset 0 -/
  unlocked : Bool := false
  /-- challenge presented and not yet answered; R459; reset none -/
  challenge : Option (List W64) := none
  /-- invalid responses; R459; reset 0 -/
  invalid : Nat := 0
  /-- no new challenge is offered; R459; reset 0 -/
  lockout : Bool := false
  /-- the always-on count from which the 60 s of the lockout run, ns; R459; reset 0 -/
  lockoutAt : Nat := 0
  /-- POWER_FAIL to copy into the log at READY: cause, the edge die survived; R500; reset none -/
  failRecord : Option (Nat × Bool) := none
  /-- REF_SWITCHED to copy into the log at READY; R505; reset none -/
  refRecord : Option Nat := none
  /-- CK01 runs from REF25; R503; reset 0 -/
  ref25 : Bool := false
  /-- instruction of the edge-die TAP; R507; reset IDCODE -/
  edgeIr : JtagIr := .idcode
  /-- instruction of the main-die TAP; R507; reset IDCODE -/
  mainIr : JtagIr := .idcode
  /-- update stage of the boundary-scan register, one bit a cell in the order of `scanCells`; 35 bits; R508; reset 0 (log entry 139) -/
  scan : List Bool := List.replicate 35 false
  /-- nonvolatile store; R458; reset as a new module (log entry 18) -/
  nv : NvStore := {}
deriving DecidableEq, Repr, Inhabited

end Sys2Proof.Machine
end

