-- ==== Sys2Proof/Machine/StEdge.lean ====
section
/-! DEFINITION. State of the edge die: loop engine (chapter 12) and field inputs and outputs (chapter 13). -/
namespace Sys2Proof.Machine

/-- Loop states (Table 12-5). -/
inductive LoopState where
  | stopped | running | stopping
deriving DecidableEq, Repr, Inhabited

/-- A loop: its 15 configuration words as written and as in force, and its computing state. -/
structure Loop where
  /-- LE_CFG to LE_SAFE as read (last written), 15 words by offset / 4; R280; reset Table 12-5 -/
  written : List W32 := [0, 0x2710, 0, 0, 0, 0, 0, 0, 0x7FFF8000, 0, 0, 0, 0, 0, 0x00010000]
  /-- the same in force; R267; reset Table 12-5 -/
  force : List W32 := [0, 0x2710, 0, 0, 0, 0, 0, 0, 0x7FFF8000, 0, 0, 0, 0, 0, 0x00010000]
  /-- writes received and not yet in force, oldest first: word number (16 HOLD, 17 CLEAR_SAFE), value, LE_TICK of receipt; R267; reset empty -/
  queue : List (Nat × W32 × Nat) := []
  /-- LE_CTRL.RUN; R283; reset 0 -/
  run : Bool := false
  /-- LE_CTRL.HOLD as written; R281; reset 0 -/
  hold : Bool := false
  /-- HOLD in force; R281; reset 0 -/
  holdForce : Bool := false
  /-- STATE; R283; reset STOPPED -/
  state : LoopState := .stopped
  /-- LE_TICK at which a start was accepted whose first boundary has not come; R283; reset none -/
  starting : Option Nat := none
  /-- LE_TICK at which the stop in progress began; R285; reset 0 -/
  stopTick : Nat := 0
  /-- START_HELD; R286; reset 0 -/
  startHeld : Bool := false
  /-- PV_FAULT; W1C; R275; reset 0 -/
  pvFault : Bool := false
  /-- LIMITS_INVERTED; W1C; R269; reset 0 -/
  limitsInverted : Bool := false
  /-- CFG_ERR; W1C; R284; reset 0 -/
  cfgErr : Bool := false
  /-- CFG_IGNORED; W1C; R280; reset 0 -/
  cfgIgnored : Bool := false
  /-- SAFE_LATCHED; R278; reset 0 -/
  safeLatched : Bool := false
  /-- FALLBACK; R278; reset 0 -/
  fallback : Bool := false
  /-- CLAMPED; Table 12-5; reset 0 -/
  clamped : Bool := false
  /-- IN_CONTROL; R270; reset 0 -/
  inControl : Bool := false
  /-- LE_OUT.SP, sp_prev; Q1.15; R274; reset 0 -/
  sp : Int := 0
  /-- LE_OUT.U; Q1.15; R269; reset 0 -/
  u : Int := 0
  /-- pv_prev; Q1.15; R269; reset 0 -/
  pvPrev : Int := 0
  /-- derivative state dst; Q1.15; R269; reset 0 -/
  dst : Int := 0
  /-- integrator i, LE_INTEG is bits 39:8; 40-bit Q9.30; R268; reset 0 -/
  integ : Int := 0
  /-- output it applied, or offered to its selector, at the last boundary; R275, R281; reset 0 -/
  applied : Int := 0
  /-- the process input was faulted at the last boundary; R275; reset 0 -/
  wasFaulted : Bool := false
  /-- output held since before a process-input fault; R275; reset 0 -/
  faultHold : Int := 0
  /-- output held since before HOLD took effect; R281; reset 0 -/
  holdVal : Int := 0
  /-- LE_TICK and count latched at the last tick of the boundary grid; R273; reset none -/
  latch : Option (Nat × Int) := none
  /-- LE_TICK of the last boundary computed; R266; reset none -/
  last : Option Nat := none
deriving DecidableEq, Repr, Inhabited

/-- A selector (R271). -/
structure Selector where
  /-- LE_SEL_MEMBERS; 32 bits; R272; reset 0 -/
  members : W32 := 0
  /-- LE_SEL_CFG; 6 bits; R272; reset 0 -/
  cfg : W32 := 0
  /-- CHOSEN; 5 bits; R271; reset 0 -/
  chosen : Nat := 0
  /-- U applied; Q1.15; R271; reset 0 -/
  u : Int := 0
deriving DecidableEq, Repr, Inhabited

/-- An entry of a slot binding (Table 12-3). -/
structure SlotEntry where
  /-- SLOT; R276 -/
  slot : Nat := 0
  /-- ELEMENT; R276 -/
  element : Nat := 0
  /-- SCALE; binary64; R277 -/
  scale : W64 := 0
  /-- OFFSET; binary64; R277 -/
  offset : W64 := 0
deriving DecidableEq, Repr, Inhabited

/-- A slot binding of a problem (R276). -/
structure Binding where
  /-- ACCEPT; 16 bits; R276 -/
  accept : W16 := 0
  /-- STALE_US; R276 -/
  staleUs : Nat := 0
  /-- entries; R276 -/
  entries : List SlotEntry := []
  /-- LE tick of the last accepted pour applied: the age runs from it; R276; reset none -/
  fresh : Option Nat := none
  /-- NONFINITE; 32 bits, saturating; R277; reset 0 -/
  nonfinite : W32 := 0
  /-- REFUSED; 32 bits, saturating; R277; reset 0 -/
  refused : W32 := 0
  /-- pours on the way to the edge die: slot and code pairs; R277; reset empty -/
  pours : List (List (Nat × Int)) := []
deriving DecidableEq, Repr, Inhabited

/-- An analog input. -/
structure Ain where
  /-- MODE 1 CURRENT; R304; reset VOLTAGE -/
  current : Bool := false
  /-- FILTER; R298; reset 0 -/
  filter : Nat := 0
  /-- FLAGS.LIVE_ZERO; R304; reset 0 -/
  liveZero : Bool := false
  /-- TRIM_OFFSET; R305; reset 0 -/
  trimOff : Int := 0
  /-- TRIM_GAIN; R305; reset 0 -/
  trimGain : Int := 0
  /-- last raw codes, newest first, at most 64; R298; reset empty -/
  raw : List Int := []
  /-- latest delivered code; R298; reset 0 -/
  code : Int := 0
  /-- history: LT stamp, ns, where LT was provided, and code, newest first, at most 65,536; R299; reset empty -/
  hist : List (Option Nat × Int) := []
  /-- OPEN, OVER_RANGE, SHORT, OVERVOLT live; R301; reset 0 -/
  live : BitVec 4 := 0
  /-- sticky OPEN, OVER_RANGE, SHORT, OVERVOLT; W1C; Table 13-5; reset 0 -/
  seen : BitVec 4 := 0
  /-- consecutive failed and passed tests; R301; reset 0 -/
  tests : Nat × Nat := (0, 0)
  /-- consecutive codes below and at or above 3.6 mA; R301; reset 0 -/
  zeroRun : Nat × Nat := (0, 0)
  /-- CAL_INVALID; R305; reset 0 -/
  calInvalid : Bool := false
deriving DecidableEq, Repr, Inhabited

/-- A pulse input. -/
structure Pin where
  /-- MODE: 0 QUAD_X4, 1 SINGLE_UP, 2 STEP_DIR; R300; reset 0 -/
  mode : Nat := 0
  /-- GLITCH; R300; reset 4 -/
  glitch : Nat := 4
  /-- count; 32 bits; R300; reset 0 -/
  count : W32 := 0
  /-- level of A; R300; reset 0 -/
  a : Bool := false
  /-- level of B; R300; reset 0 -/
  b : Bool := false
  /-- QUAD_ERR; 8 bits, saturating, RC; R300; reset 0 -/
  quadErr : Byte := 0
  /-- counts latched each µs with LT stamp, ns, newest first; R299; reset empty -/
  hist : List (Option Nat × Int) := []
  /-- OPEN live; R301; reset 0 -/
  live : Bool := false
  /-- OPEN_SEEN; W1C; Table 13-5; reset 0 -/
  seen : Bool := false
deriving DecidableEq, Repr, Inhabited

/-- An analog output. -/
structure Aout where
  /-- TRIM_OFFSET; R305; reset 0 -/
  trimOff : Int := 0
  /-- TRIM_GAIN; R305; reset 0 -/
  trimGain : Int := 0
  /-- DEFAULT; R296; reset 0 -/
  dflt : Int := 0
  /-- FIO_AOUT_SET.CODE; 16 bits; R296; reset 0 -/
  set : Int := 0
  /-- code commanded now; R295, R296; reset 0 -/
  code : Int := 0
  /-- WRITE_IGNORED; W1C; R296; reset 0 -/
  ignored : Bool := false
  /-- OPEN (bit 0), SHORT (bit 2) live; R301; reset 0 -/
  live : BitVec 4 := 0
  /-- sticky OPEN, SHORT, same bits; W1C; Table 13-5; reset 0 -/
  seen : BitVec 4 := 0
  /-- consecutive tests below and at or above 1 µS; R301; reset 0 -/
  tests : Nat × Nat := (0, 0)
  /-- CAL_INVALID; R305; reset 0 -/
  calInvalid : Bool := false
deriving DecidableEq, Repr, Inhabited

/-- A digital/PWM output. -/
structure Dout where
  /-- MODE 1 PWM; R304; reset DIGITAL -/
  pwm : Bool := false
  /-- SHORT_ACT 1 LATCH; R301; reset RETRY -/
  latchAct : Bool := false
  /-- PERIOD, CK13 ticks; R304; reset 64000 -/
  period : Nat := 64000
  /-- FIO_DOUT_SET.CODE; 16 bits; R296; reset 0 -/
  set : Int := 0
  /-- code commanded now; R295; reset 0 -/
  code : Int := 0
  /-- on-time of the present PWM period, CK13 ticks; R295; reset 0 -/
  onTicks : Nat := 0
  /-- WRITE_IGNORED; W1C; R296; reset 0 -/
  ignored : Bool := false
  /-- LATCHED; R301; reset 0 -/
  latched : Bool := false
  /-- LE_TICK at which SHORT switched it off, waiting for the retry; R301; reset none -/
  shortOff : Option Nat := none
  /-- OPEN (bit 0), SHORT (bit 2), OVERVOLT (bit 3) live; R301; reset 0 -/
  live : BitVec 4 := 0
  /-- sticky OPEN, SHORT, OVERVOLT, same bits; W1C; Table 13-5; reset 0 -/
  seen : BitVec 4 := 0
deriving DecidableEq, Repr, Inhabited

/-- An output computed at a boundary and applied tLOOPOUT later (R267). -/
structure OutDue where
  /-- loop 0 to 31, or 32 + selector; R267 -/
  owner : Nat := 0
  /-- LE_TICK of the boundary; R267 -/
  tick : Nat := 0
  /-- OUT_DEST; Table 12-4 -/
  dest : Nat := 0
  /-- OUT_INDEX; Table 12-4 -/
  index : Nat := 0
  /-- code; R297 -/
  code : Int := 0
  /-- the loops due at the boundary that belong to the owner; R267, R271 -/
  members : W32 := 0
  /-- the stop that gave it is complete: the set register takes it too; R296 -/
  final : Bool := false
deriving DecidableEq, Repr, Inhabited

/-- The edge die. -/
structure Edge where
  /-- PD58 is powered; R266; reset 0 -/
  on : Bool := false
  /-- LE_TICK; 64 bits; R266; reset 0 -/
  tick : Nat := 0
  /-- ns into the present tick of 5 ns; R266; reset 0 -/
  sub : Nat := 0
  /-- latched LE_TICK_HI; 32 bits; R515; reset 0 -/
  tickHi : W32 := 0
  /-- loops LP0 to LP31; R279; reset Tables 12-4 and 12-5 -/
  loops : Tbl Loop := []
  /-- selectors SEL0 to SEL7; R271; reset 0 -/
  sels : Tbl Selector := []
  /-- slot values, Q1.15; 64 of 16 bits; R278; reset 0 -/
  slots : Tbl Int := []
  /-- bindings by problem; R276; reset none -/
  binds : Tbl Binding := []
  /-- outputs computed and not yet applied, oldest first; R267; reset empty -/
  outs : List OutDue := []
  /-- LE_BOOT STARTED, INVALID; R290; reset 0 -/
  bootStarted : Bool := false
  /-- LE_BOOT.INVALID; R290; reset 0 -/
  bootInvalid : Bool := false
  /-- BOOT_PROFILE outcome waiting for the log: index and DATA; R290; reset none -/
  bootRecord : Option (Nat × Nat) := none
  /-- profiles stored, 2,240 bytes each; nonvolatile; R287; reset none -/
  profiles : Tbl (List Byte) := []
  /-- boot profile index; nonvolatile; R289; reset none -/
  bootProfile : Option Nat := none
  /-- field I/O configuration stored; nonvolatile; R304; reset none -/
  fioStore : Option (List Byte) := none
  /-- field I/O configuration record in force; R306; reset none (defaults) -/
  fioForce : Option (List Byte) := none
  /-- CFG_INVALID; R304; reset 0 -/
  cfgInvalid : Bool := false
  /-- VIO_LOW live; R301; reset 0 -/
  vioLow : Bool := false
  /-- VIO_REVERSED live; R301; reset 0 -/
  vioReversed : Bool := false
  /-- analog inputs; 8; chapter 13 -/
  ains : Tbl Ain := []
  /-- pulse inputs; 8; chapter 13 -/
  pins : Tbl Pin := []
  /-- analog outputs; 8; chapter 13 -/
  aouts : Tbl Aout := []
  /-- digital outputs; 8; chapter 13 -/
  douts : Tbl Dout := []
deriving DecidableEq, Repr, Inhabited

end Sys2Proof.Machine
end

