-- ==== Sys2Proof/Machine/State.lean ====
section
/-! DEFINITION. The state of the block, its stops, and the state after reset: before power good (R441, R520). -/
namespace Sys2Proof.Machine

/-- Why a step stops with a fault. No command of this block does: every one has an effect that the spec gives. -/
inductive Fault where
  /-- Raised by nothing: the spec stops the block on no command (safe). -/
  | unused
deriving DecidableEq, Repr

/-- Why a command has no meaning. -/
inductive Refusal where
  /-- Raised by `exec` for a command whose meaning is not written yet (safe). -/
  | notModelled (mnemonic : String)
deriving DecidableEq, Repr

/-- Memory spaces that hold records: master memory (PCIe) and the exchange buffer (R413). -/
inductive Space where
  | host | xbuf
deriving DecidableEq, Repr, Inhabited

/-- A write posted by the step, carried out when it ends. -/
structure Post where
  /-- space; R413 -/
  space : Space := .host
  /-- first byte address; R413 -/
  addr : Nat := 0
  /-- bytes; R417 -/
  bytes : List Byte := []
deriving DecidableEq, Repr, Inhabited

/-- The state of the block. -/
structure State where
  /-- commands that wait, first in, first out (the model's own); reset empty -/
  pending : List Instr := []
  /-- number of free values drawn (the model's own, log entry 1); reset 0 -/
  free : Nat := 0
  /-- writes posted by the present step (the model's own, log entry 8); empty between steps -/
  posts : List Post := []
  /-- what left the block, newest first (the model's own, log entry 9); reset empty -/
  out : List Out := []
  /-- LT, ns; 64 bits; R308; reset 0 -/
  lt : Nat := 0
  /-- master memory as the device sees it (outside the block, log entry 7); R413; reset all zero -/
  hostMem : Mem := []
  /-- exchange buffer, 64 MiB; R413; reset all zero (log entry 7) -/
  xbuf : Mem := []
  /-- mailbox -/
  mbx : Mailbox := {}
  /-- interrupts -/
  irq : Irq := {}
  /-- event log -/
  log : EvtLog := {}
  /-- pour rings 0 to 31; R425 -/
  rings : Tbl PourRing := []
  /-- leases 0 to 511; R428 -/
  leases : Tbl Lease := []
  /-- clients 0 to 255; R348 -/
  clients : Tbl Client := []
  /-- problems 0 to 1023; R12 -/
  probs : Tbl Prob := []
  /-- resource sets 0 to 63; R385 -/
  sets : Tbl RSet := []
  /-- output record of the JDU query in progress, computed from the parameters committed at its start; R139; reset none -/
  query : Option (List Byte) := none
  /-- training jobs, at most 16; R232 -/
  jobs : List Job := []
  /-- TRAIN_POWER, W; R232; reset 0 (log entry 19) -/
  trainPower : Nat := 0
  /-- training is suspended; R246; reset 0 -/
  trainSuspended : Bool := false
  /-- a junction has been at or above 90 °C and none has been measured at or below 85 °C since; R246; reset 0 -/
  trainHot : Bool := false
  /-- time-base unit besides LT -/
  time : TimeSt := {}
  /-- switch and YSP -/
  net : Net := {}
  /-- peer links PL0 to PL7; R358 -/
  links : Tbl Link := []
  /-- peer group; R359 -/
  group : Group := {}
  /-- memory counters; R384 -/
  mem : MemSt := {}
  /-- arbiters 0 to 201; R394 -/
  arbs : Tbl Arb := []
  /-- units, LIMP, recovery -/
  faults : Faults := {}
  /-- power, boot, security -/
  pwr : PowerSt := {}
  /-- edge die -/
  edge : Edge := {}
deriving DecidableEq, Repr, Inhabited

/-- The machine right after reset: unpowered, every register at its reset word (Tables 22-3 and 22-4), nothing stored. -/
def State.reset : State := {}

end Sys2Proof.Machine
end

