-- ==== Sys2Proof/Machine/Ops.lean ====
section
/-! DEFINITION. Operations shared by the meanings: the end of a step, posted writes, records in memory, free values,
events, interrupts, frames and the rate limit of R525. -/
namespace Sys2Proof.Machine

/-- Carry out posted writes of one space, oldest first. -/
def applyPosts (sp : Space) (m : Mem) : List Post → Mem
  | [] => m
  | p :: ps => applyPosts sp (if p.space = sp then m.writeBytes p.addr p.bytes else m) ps

/-- The end of every step: the posted writes are carried out; the queue of commands is untouched by a command. -/
def finish (s t : State) : Host.Outcome State Fault Refusal :=
  .next { t with pending := s.pending, posts := [], hostMem := applyPosts .host s.hostMem t.posts,
                 xbuf := applyPosts .xbuf s.xbuf t.posts }

/-- A state change by a meaning whose condition may fail: an event whose condition does not hold does not take place
(log entry 10). -/
def when (c : Bool) (f : State → State) (s : State) : State := if c then f s else s

/-- Post a write. -/
def post (sp : Space) (a : Nat) (bs : List Byte) (s : State) : State := { s with posts := s.posts ++ [⟨sp, a, bs⟩] }

/-- The space and offset that a descriptor address names (R413). -/
def spaceOf (a : W64) : Space × Nat := if a.getLsbD 63 then (.xbuf, a.toNat % 2 ^ 26) else (.host, a.toNat)

/-- Write a record at a descriptor address. -/
def putRecord (a : W64) (bs : List Byte) (s : State) : State := post (spaceOf a).1 (spaceOf a).2 bs s

/-- Memory of a space as this step sees it: with the writes it has posted. -/
def memView (s : State) (sp : Space) : Mem := applyPosts sp (match sp with | .host => s.hostMem | .xbuf => s.xbuf) s.posts

/-- Read a record at a descriptor address. -/
def getRecord (s : State) (a : W64) (n : Nat) : List Byte := (memView s (spaceOf a).1).readBytes (spaceOf a).2 n

/-- Something leaves the block. -/
def emit (o : Out) (s : State) : State := { s with out := o :: s.out }

/-- Draw a free value (log entry 1). -/
def draw (s : State) : W64 × State := (Config.freeWord s.free, { s with free := s.free + 1 })

/-- Draw `n` free values. -/
def drawN : Nat → State → List W64 × State
  | 0, s => ([], s)
  | n + 1, s => ((draw s).1 :: (drawN n (draw s).2).1, (drawN n (draw s).2).2)

/-- R525: something sent at most once in any `t` ns may be sent now. -/
def rateOk (last : Option Nat) (now t : Nat) : Bool :=
  match last with
  | none => true
  | some l => decide (t ≤ now - l)

/-- LT as a 64-bit register. -/
def ltWord (s : State) : W64 := BitVec.ofNat 64 s.lt

/-- EN and VECTOR of an interrupt source (R435). -/
def irqMap (s : State) (src : Nat) : Byte := ((Tbl.get? s.irq.map src).getD (BitVec.ofNat 8 src)) &&& 0xBF

/-- Send the MSI-X message of a vector, or set its pending bit when it is masked (R436). -/
def sendVector (v : Nat) (s : State) : State :=
  let e := s.irq.table.get v
  if e.mask then { s with irq := { s.irq with pba := s.irq.pba ||| ((1#64) <<< v) } } else emit (.msix e.addr e.data) s

/-- The header of a mailbox frame to the master (Table 15-7 with MAGIC 0x4D59, R411). -/
def mbxFrame (type seq : Nat) (payload : List Byte) : List Byte :=
  leBytes 2 0x4D59 ++ leBytes 1 1 ++ leBytes 1 type ++ leBytes 2 0 ++ leBytes 2 payload.length ++ leBytes 4 seq ++ zeros 4 ++ payload

/-- UDP_PORT; 0 selects 47110 (Table 15-2). -/
def udpPort (n : NetCfg) : W16 := if n.udp = 0 then 47110 else n.udp

/-- The device's addressing of a frame to a partner: YSP_VLAN, and UDP_PORT as the source port (R348, R352). -/
def addressed (s : State) (d : NetSrc) : NetSrc :=
  { d with vid := s.net.cfg.vlan.setWidth 12, sport := if d.transport = .raw then 0 else udpPort s.net.cfg, rtag := none }

/-- Send an IRQ_NOTICE, at most one in any 1 ms (R436). -/
def irqNotice (s : State) : State :=
  match s.mbx.lastSrc with
  | none => s
  | some src =>
    if rateOk s.mbx.lastNotice s.lt 1000000 then
      { emit (.frame (addressed s src) (mbxFrame 0x87 0 (leBytes 4 (s.irq.status.toNat % 2 ^ 32) ++ leBytes 4 (s.irq.status.toNat / 2 ^ 32)))) s with
          mbx := { s.mbx with lastNotice := some s.lt } }
    else s

/-- Raise an interrupt source (R436). -/
def raise (src : Nat) (s : State) : State :=
  if s.irq.status.getLsbD src then s
  else
    let s1 := { s with irq := { s.irq with status := s.irq.status ||| ((1#48) <<< src) } }
    irqNotice (if (irqMap s src).getLsbD 7 then sendVector ((irqMap s src).toNat % 64) s1 else s1)

/-- Interrupt source that an event raises besides EVENT (Table 18-14). -/
def eventSource (code : Nat) : Option Nat :=
  if code ≤ 2 then some 11 else if code = 3 then some 8 else if code ≤ 0x12 then some 9 else if code ≤ 0x21 then some 10
  else if code = 0x30 then some 2 else if code = 0x31 then some 3 else if code ≤ 0x41 then some 4 else if code = 0x50 then some 12
  else if code = 0x61 then some 5 else if code < 0x100 then none else if code < 0x200 then some 6 else some 7

/-- Put an entry in at number `h` of the log; entries of its own cycle with a higher CODE, at most `n` of them, move up behind it
(R437). -/
def placeEntry (t : Tbl EvtEntry) (e : EvtEntry) : Nat → W32 → Tbl EvtEntry
  | 0, h => t.set (h.toNat % 4096) { e with seq := h }
  | n + 1, h =>
    let b := t.get ((h - 1).toNat % 4096)
    if b.seq + 1 = h ∧ b.lt = e.lt ∧ e.code < b.code then placeEntry (t.set (h.toNat % 4096) { b with seq := h }) e n (h - 1)
    else t.set (h.toNat % 4096) { e with seq := h }

/-- Write an event-log entry, those of one cycle in ascending CODE, and raise the EVENT source (R437, R438). -/
def logEntry (code arg : Nat) (data : List Byte) (s : State) : State :=
  let e : EvtEntry := ⟨ltWord s, s.log.head, BitVec.ofNat 16 code, BitVec.ofNat 16 arg, padTo 48 data⟩
  let h := s.log.head + 1
  let full := decide (4096 < (h - s.log.tail).toNat)
  raise 1 { s with log := { s.log with
    entries := placeEntry s.log.entries e 4096 s.log.head, head := h,
    tail := if full then s.log.tail + 1 else s.log.tail,
    lost := if full then satInc s.log.lost else s.log.lost,
    overrun := s.log.overrun || full } }

/-- Record an event: its entry, and its own interrupt source (R435 to R438). -/
def event (code arg : Nat) (data : List Byte) (s : State) : State :=
  match eventSource code with
  | some k => raise k (logEntry code arg data s)
  | none => logEntry code arg data s

/-- Heritage mode is in force (R485, Table 19-4): boot self-test, recovery mode or a test session. -/
def heritage (s : State) : Bool := s.pwr.selfTesting || s.faults.recovery || s.faults.testSession

/-- MBX_READY.READY (R410). -/
def ready (s : State) : Bool := s.pwr.stage == .ready || s.pwr.stage == .full
/-- MBX_READY.FULL_SERVICE (R410). -/
def full (s : State) : Bool := s.pwr.stage == .full
/-- The main die is powered (R519). -/
def mainOn (s : State) : Bool :=
  match s.pwr.stage with
  | .mainOn | .switchOn | .tested | .hbm | .ready | .full => true
  | _ => false
/-- The switch core runs (R336). -/
def switchOn (s : State) : Bool := mainOn s && s.pwr.stage != .mainOn

/-- Change a problem. -/
def modProb (p : Nat) (f : Prob → Prob) (s : State) : State := { s with probs := s.probs.mod p f }
/-- A problem. -/
def prob (s : State) (p : Nat) : Prob := s.probs.get p
/-- Change a loop. -/
def modLoop (n : Nat) (f : Loop → Loop) (s : State) : State := { s with edge := { s.edge with loops := s.edge.loops.mod n f } }
/-- Change the edge die. -/
def modEdge (f : Edge → Edge) (s : State) : State := { s with edge := f s.edge }
/-- Change the power state. -/
def modPwr (f : PowerSt → PowerSt) (s : State) : State := { s with pwr := f s.pwr }
/-- Change the switch. -/
def modNet (f : Net → Net) (s : State) : State := { s with net := f s.net }
/-- Change a port. -/
def modPort (p : Nat) (f : Port → Port) (s : State) : State := modNet (fun n => { n with ports := n.ports.mod p f }) s
/-- Change a link. -/
def modLink (l : Nat) (f : Link → Link) (s : State) : State := { s with links := s.links.mod l f }
/-- Send the first waiting VC2 messages for which the link has credit, of 16 flits in all (R357): the message leaves whole. -/
def sendVc2 (lt : Nat) : List (Nat × Out) → List Nat → List Out → List (Nat × Out) × List Nat × List Out
  | [], sent, outs => ([], sent, outs)
  | (n, m) :: t, sent, outs =>
    if sent.length + n ≤ 16 then sendVc2 lt t (sent ++ List.replicate n lt) (m :: outs) else ((n, m) :: t, sent, outs)

/-- VC2 of link `l` sends what its credit allows; it does not wait for VC0 or VC1 (R357). -/
def pumpVc2 (l : Nat) (s : State) : State :=
  let k := s.links.get l
  let r := sendVc2 s.lt k.vc2Wait k.vc2Sent []
  { modLink l (fun k => { k with vc2Wait := r.1, vc2Sent := r.2.1 }) s with out := r.2.2 ++ s.out }

/-- A message of so many flits on VC2 of link `l`, behind those that wait (R357). -/
def putVc2 (l flits : Nat) (m : Out) (s : State) : State :=
  pumpVc2 l (modLink l (fun k => { k with vc2Wait := k.vc2Wait ++ [(flits, m)] }) s)

/-- Change a time base. -/
def modTb (t : Nat) (f : TBase → TBase) (s : State) : State := { s with time := { s.time with tbs := s.time.tbs.mod t f } }
/-- Change the fault state. -/
def modFaults (f : Faults → Faults) (s : State) : State := { s with faults := f s.faults }
/-- Change the mailbox. -/
def modMbx (f : Mailbox → Mailbox) (s : State) : State := { s with mbx := f s.mbx }

/-- Shed events device-wide (R46). -/
def shedEvents (n : Nat) (s : State) : State :=
  if n = 0 then s else modMbx (fun b => { b with shedTotal := satPlus b.shedTotal n, shedChanged := true }) s

/-- Key of a unit (Table 20-2). -/
def unitKey (kind index : Nat) : Nat := kind * 256 + index
/-- A unit. -/
def unit (s : State) (kind index : Nat) : Unit' := s.faults.units.get (unitKey kind index)
/-- A unit is fenced (R488). -/
def fenced (s : State) (kind index : Nat) : Bool := (unit s kind index).state != 0

/-- Change a unit (R488). -/
def modUnit (kind i : Nat) (f : Unit' → Unit') (s : State) : State := modFaults (fun x => { x with units := x.units.mod (unitKey kind i) f }) s

/-- Count a transient fault against its unit (R474, R488); it is not recorded (R489). -/
def countTransient (kind i det : Nat) (s : State) : State :=
  modFaults (fun f => { f with transientTotal := satInc f.transientTotal })
    (modUnit kind i (fun u => { u with transients := satInc u.transients, detector := det, lastFault := s.lt, unresolved := false }) s)

/-- A fault in work that its deadline, its budget or a shut-down ends (R475): the unit is tested in the background. -/
def leaveUnresolved (kind i det : Nat) (s : State) : State :=
  modFaults (fun f => { f with unresolvedTotal := satInc f.unresolvedTotal })
    (modUnit kind i (fun u => { u with unresolved := true, detector := det, lastFault := s.lt }) s)

/-- Fold a state change over a list. -/
def forAll (l : List α) (f : α → State → State) (s : State) : State := l.foldl (fun t a => f a t) s

/-- A saturating addition of one to counter `i` of a list of counters. -/
def bumpAt {w : Nat} (l : List (BitVec w)) (i n : Nat) : List (BitVec w) := l.modify i (fun x => satPlus x n)

/-- Round `a / b` to the nearest integer, ties to even (`b` positive). -/
def rneDiv (a : Int) (b : Nat) : Int :=
  let q := a / (b : Int)
  let r := a - q * b
  if 2 * r < b then q else if 2 * r > b then q + 1 else if q % 2 = 0 then q else q + 1

/-- Clamp an integer. -/
def clampI (lo hi x : Int) : Int := max lo (min hi x)

end Sys2Proof.Machine
end

