-- ==== Sys2Proof/Machine/Operands.lean ====
section
/-! DEFINITION. The operand forms of commands: descriptor fields, the general checks of R422 in the order of R524, records
at descriptor addresses. -/
namespace Sys2Proof.Machine

/-- How a command's effect ends: completed with a status and RESULT bytes, or started and waiting; in the second case
`locks` says whether it keeps its locks, the effect not being in force yet (R420). -/
inductive Reply where
  | done (st : Status) (res : List Byte)
  | held (a : Await) (locks : Bool)
deriving DecidableEq, Repr, Inhabited

/-- The first check that fails gives the status (R422, R524). -/
def firstFail : List (Bool × Status) → Option Status
  | [] => none
  | (b, st) :: cs => if b then some st else firstFail cs

/-- Run an effect after its checks: the first that fails completes the command with the state unchanged. -/
def checked (cs : List (Bool × Status)) (s : State) (ok : State × Reply) : State × Reply :=
  match firstFail cs with
  | some st => (s, .done st [])
  | none => ok

/-- Complete with OK and no result. -/
def okay (s : State) : State × Reply := (s, .done stOk [])

/-- ARGS as bytes (Table 18-4). -/
def argBytes (c : CmdIn) : List Byte := leBytes 32 c.args.toNat
/-- A[i] as a number. -/
def argN (c : CmdIn) (i n : Nat) : Nat := fieldN (argBytes c) i n
/-- The problem a descriptor names. -/
def pOf (m : Cmd) : Nat := m.c.problem.toNat
/-- LENGTH. -/
def lenOf (m : Cmd) : Nat := m.c.length.toNat

/-- R422: the checks that need only the descriptor: reserved bits (ADDR2 counts as reserved where no second address is
named, Table 18-4), PROBLEM where none is named, PROBLEM above 1,023. -/
def descChecks (named usesAddr2 : Bool) (m : Cmd) : List (Bool × Status) :=
  [(decide (m.c.flags.toNat / 4 ≠ 0 ∨ m.c.rsvd ≠ 0) || (!usesAddr2 && m.c.addr2 != 0), stDescReserved),
   (!named && m.c.problem != 0xFFFF, stDescReserved),
   (named && decide (1023 < pOf m), stNotLoaded)]

/-- R413, R422: an address that cannot be used: not 8-byte aligned, outside the exchange buffer, or in master memory for
a frame-borne command. -/
def addrBad (m : Cmd) (a : W64) (n : Nat) : Bool :=
  a.toNat % 8 != 0 || (a.getLsbD 63 && decide (2 ^ 26 < a.toNat % 2 ^ 26 + n)) || (m.c.agent == .mgmt && !a.getLsbD 63)

/-- The input record: LENGTH bytes at ADDR. -/
def inRec (s : State) (m : Cmd) : List Byte := getRecord s m.c.addr (lenOf m)

/-- R422 for an input record: its own PROBLEM field, its size, its address. -/
def inChecks (m : Cmd) (ownProblem : Option Nat) (size : Nat) : List (Bool × Status) :=
  [(match ownProblem with | some q => q != pOf m | none => false, stProblemMismatch),
   (lenOf m != size, stBadLength), (addrBad m m.c.addr (lenOf m), stBadAddress)]

/-- R422 for an output record of a size. -/
def outChecks (m : Cmd) (size : Nat) : List (Bool × Status) :=
  [(decide (lenOf m < size), stBadLength), (addrBad m m.c.addr size, stBadAddress)]

/-- Write the output record and complete with OK. -/
def putOut (m : Cmd) (bs : List Byte) (s : State) : State × Reply := okay (putRecord m.c.addr bs s)

end Sys2Proof.Machine
end

