-- ==== Sys2Proof/Machine/MailboxOps.lean ====
section
/-! DEFINITION. Acceptance, locks, start and completion of commands (R407, R408, R416 to R421). -/
namespace Sys2Proof.Machine

/-- The locks of Table 18-6. -/
inductive Lock where
  | loader | problem (p : Nat) | jduQuery | time | network | peer | edge | power | lease
deriving DecidableEq, Repr, Inhabited

/-- The locks a command takes; `none` means every lock (Table 18-6). -/
def locksOf (m : Cmd) : Option (List Lock) :=
  let op := m.op.toNat
  let g := op / 256
  let p := Lock.problem (pOf m)
  if m.phaseBad then some []
  else if op = 0x0201 then some [.loader]
  else if op = 0x0306 then some [.jduQuery, p]
  else if op = 0x0603 then some [p, .edge]
  else if op = 0x0516 then some [p, .network]
  else if op = 0x0523 then some [p, .peer]
  else if op = 0x0121 ∨ op = 0x0122 then some [.lease]
  else if 2 ≤ g ∧ g ≤ 4 then some [p]
  else if 0x0501 ≤ op ∧ op ≤ 0x0504 then some [.time]
  else if 0x0510 ≤ op ∧ op ≤ 0x0516 then some [.network]
  else if 0x0520 ≤ op ∧ op ≤ 0x0524 then some [.peer]
  else if g = 6 then some [.edge]
  else if g = 7 then some [.power]
  else if g = 8 then none
  else some []

/-- Two commands want a lock in common (R420). A command that takes every lock shares one with each that takes any. -/
def conflict (a b : Cmd) : Bool :=
  match locksOf a, locksOf b with
  | none, none => true
  | none, some l => !l.isEmpty
  | some l, none => !l.isEmpty
  | some l, some k => l.any (fun x => k.contains x)

/-- Commands in flight (R418): accepted and not completed. -/
def inFlight (s : State) : Nat := s.mbx.waiting.length + s.mbx.running.length

/-- R418: there is room to accept a command. -/
def hasRoom (s : State) : Bool :=
  decide (inFlight s < 64 ∧ inFlight s + (s.mbx.cplHead - s.mbx.cplTail).toNat < 255)

/-- A command with what its acceptance fixes: its number (R408), whether signatures are required (R456), its problem's NEXT_STEEP (R259,
R264). -/
def stamped (m : Cmd) (s : State) : Cmd :=
  { m with acceptNo := s.mbx.accepted, signReq := decide (0 < s.pwr.nv.sign), nextAt := (prob s (pOf m)).nextSteep }

/-- Accept a command: it takes the next acceptance number and waits for its locks (R407, R408). -/
def accept (m : Cmd) (s : State) : State :=
  modMbx (fun b => { b with
    accepted := b.accepted + 1
    acceptPcie := if m.c.agent = .pcie then b.acceptPcie + 1 else b.acceptPcie
    acceptMgmt := if m.c.agent = .mgmt then b.acceptMgmt + 1 else b.acceptMgmt
    waiting := b.waiting ++ [stamped m s] }) s

/-- R420, R421: a waiting command may start: the oldest on each of its locks, all of them free, any fence satisfied. -/
def canStart (m : Cmd) (s : State) : Bool :=
  s.mbx.running.all (fun r => !(r.holds && conflict r.cmd m))
  && s.mbx.waiting.all (fun w => !(decide (w.acceptNo.toNat < m.acceptNo.toNat) && conflict w m))
  && (!m.c.flags.getLsbD 1
      || (s.mbx.running.all (fun r => decide (m.acceptNo.toNat ≤ r.cmd.acceptNo.toNat))
          && s.mbx.waiting.all (fun w => decide (m.acceptNo.toNat ≤ w.acceptNo.toNat))))

/-- A completion (Table 18-5). -/
def completionBytes (m : Cmd) (phase : Bool) (st : Status) (res : List Byte) : List Byte :=
  wBytes 4 m.c.seq ++ wBytes 2 m.op ++ wBytes 2 st ++ wBytes 8 m.acceptNo
  ++ (match m.c.agent with
      | .pcie => wBytes 2 m.c.index ++ [0#8]
      | .mgmt => [0xFF#8, 0xFF#8, 1#8])
  ++ [BitVec.ofNat 8 (b2n phase)] ++ padTo 12 res

/-- COMPLETION_POST (R417, R408): post the completion while the ring is enabled, raise source 0 when its descriptor asks
for it (R436), and send the COMPLETION frame of a frame-borne command (R412). -/
def complete (m : Cmd) (st : Status) (res : List Byte) (s : State) : State :=
  let s1 :=
    if s.mbx.enable then
      let t := post .host (s.mbx.cplBase.toNat + 32 * s.mbx.cplHead.toNat) (completionBytes m s.mbx.cplPhase st res) s
      let t := modMbx (fun b => { b with cplHead := b.cplHead + 1, cplPhase := b.cplPhase != (b.cplHead == 0xFF) }) t
      if m.c.flags.getLsbD 0 then raise 0 t else t
    else s
  match m.c.agent with
  | .pcie => s1
  | .mgmt => emit (.frame (addressed s m.src) (mbxFrame 0x83 m.fseq.toNat (completionBytes m s.mbx.cplPhase st res))) s1

/-- R410, R485, R487: a status that a command completes with before its own checks. -/
def gateStatus (m : Cmd) (s : State) : Option Status :=
  let g := m.op.toNat / 256
  if m.phaseBad then some stRingPhase
  else if !full s && decide (2 ≤ g ∧ g ≤ 6) then some stNotReady
  else none

/-- Start a command that is in the waiting list: it leaves the list and has its effect (R420). -/
def startCmd (eff : Cmd → State → State × Reply) (m : Cmd) (s : State) : State :=
  let s1 := modMbx (fun b => { b with waiting := b.waiting.filter (fun w => w.acceptNo != m.acceptNo) }) s
  match gateStatus m s with
  | some st => complete m st [] s1
  | none =>
    let r := eff m s1
    match r.2 with
    | .done st res => complete m st res r.1
    | .held a k => modMbx (fun b => { b with running := b.running ++ [⟨m, a, k⟩] }) r.1

/-- The commands of a path are taken: Rankoaz is ready (R410) and, for PCIe, the ring fetches (R414, R419). -/
def pathOpen (a : Agent) (s : State) : Bool :=
  ready s && (match a with | .pcie => s.mbx.enable && !s.mbx.disabling && !s.mbx.perst | .mgmt => true)

/-- A master command as one row: it is accepted when there is room (R418), and starts in the same step when its locks are
free and no fence holds it (R420, R421); otherwise it waits. -/
def submit (op : W16) (eff : Cmd → State → State × Reply) (c : CmdIn) (s : State) : State :=
  if pathOpen c.agent s then
    if hasRoom s && s.mbx.arrived.isEmpty then
      let m : Cmd := stamped { op := op, c := c, src := s.mbx.lastSrc.getD {} } s
      let s1 := accept m s
      if canStart m s1 then startCmd eff m s1 else s1
    else modMbx (fun b => { b with arrived := b.arrived ++ [{ op := op, c := c, src := s.mbx.lastSrc.getD {} }] }) s
  else s

/-- End the started commands that a predicate picks, oldest first, with a status and RESULT. -/
def endRuns (p : Run → Bool) (st : Status) (res : List Byte) (s : State) : State :=
  forAll (s.mbx.running.filter p) (fun r t => complete r.cmd st res t)
    (modMbx (fun b => { b with running := b.running.filter (fun r => !p r) }) s)

/-- End the started commands that wait for something. -/
def endAwait (a : Await) (st : Status) (res : List Byte) (s : State) : State := endRuns (fun r => r.await == a) st res s

/-- End the started command of a problem that waits for something. -/
def endAwaitP (a : Await) (p : Nat) (st : Status) (res : List Byte) (s : State) : State :=
  endRuns (fun r => r.await == a && pOf r.cmd == p) st res s

/-- The started commands of a problem that wait for something. -/
def runsOf (s : State) (a : Await) (p : Nat) : List Run := s.mbx.running.filter (fun r => r.await == a && pOf r.cmd == p)

end Sys2Proof.Machine
end

