-- ==== Sys2Proof/Machine/Infuse.lean ====
section
/-! DEFINITION. Commit groups: fragments, completion, merging and the commit (R74 to R83, R365). -/
namespace Sys2Proof.Machine

/-- A group header (Table 3-14). -/
structure GroupHdr where
  /-- PROBLEM -/
  problem : Nat := 0
  /-- CLIENT -/
  client : Nat := 0
  /-- LEASE -/
  lease : Nat := 0
  /-- GROUP_SEQ -/
  seq : Nat := 0
  /-- EPOCH -/
  epoch : Nat := 0
  /-- TOTAL -/
  total : Nat := 0
  /-- FIRST -/
  first : Nat := 0
  /-- COUNT -/
  count : Nat := 0
  /-- a reserved field is not zero -/
  rsvd : Bool := false
deriving DecidableEq, Repr, Inhabited

/-- Read a group header (Table 3-14). -/
def parseHdr (bs : List Byte) : GroupHdr :=
  ⟨u16 bs 0, u8 bs 2, u16 bs 4, u16 bs 6, u32 bs 8, u16 bs 12, u16 bs 14, u16 bs 16, !zeroAt bs 3 1 || !zeroAt bs 18 6⟩

/-- The entries after a group header. -/
def entryRecs (bs : List Byte) : List (List Byte) := chunks 16 (parseHdr bs).count (bs.drop 24)
/-- Read an entry. -/
def parseEntry (e : List Byte) : Entry := ⟨u32 e 0, u8 e 4, w64At e 8⟩
/-- A reserved field of an entry is not zero, or OP is none of Table 3-14 (R75; its status: log entry 144). -/
def entryBad (e : List Byte) : Bool := !zeroAt e 5 3 || decide (1 < u8 e 4)
/-- An entry's 16 bytes. -/
def entryBytes (e : Entry) : List Byte := leBytes 4 e.index ++ leBytes 1 e.op ++ zeros 3 ++ wBytes 8 e.value

/-- R76: the checks of a fragment on its own, in order. -/
def fragmentChecks (bs : List Byte) : List (Bool × Status) :=
  let h := parseHdr bs
  [(h.rsvd || (entryRecs bs).any entryBad, stInfuseMalformed), (decide (4096 < h.total), stInfuseSize),
   (decide (h.total = 0 ∨ h.count = 0 ∨ h.total < h.first + h.count), stInfuseMalformed)]

/-- A binary64 addition in RNE without flags (R79). -/
def addRne (a b : W64) : W64 := b64 (fadd f64 (rndOf 0) a.toNat b.toNat).v

/-- Merge an entry with the pending entry of its parameter (Table 3-16). -/
def mergePend (old : Option Pend) (e : Entry) : Pend :=
  match old with
  | none => if e.op = 0 then .set e.value else .add e.value
  | some (.set v) => if e.op = 0 then .set e.value else .set (addRne v e.value)
  | some (.add a) => if e.op = 0 then .set e.value else .add (addRne a e.value)

/-- Merge entries in order into the pending store, counting those that coalesce (R40, R79). -/
def mergeEntries (es : List Entry) (p : Prob) : Prob :=
  es.foldl (fun p e =>
    let old := p.pend.get? e.index
    { p with pend := p.pend.set e.index (mergePend old e), coalesced := if old.isSome then satInc p.coalesced else p.coalesced }) p

/-- Open-group positions in use (R78, R365). -/
def positionsUsed (s : State) : Nat :=
  (s.probs.map (fun e => (e.2.groups.map (fun g => g.held.length)).foldl (· + ·) 0
    + (e.2.twin.queue.map (fun g => g.entries.length)).foldl (· + ·) 0)).foldl (· + ·) 0

/-- An entry names no parameter (R74). -/
def indexBad (p : Prob) (es : List Entry) : Bool :=
  es.any (fun e => decide ((match p.im with | some im => im.nParams | none => 0) ≤ e.index))

/-- The chain digest over a group's entries (R365). -/
def chainOver (d : W64) (es : List Entry) : W64 := es.foldl (fun h e => fnv h (entryBytes e)) d

/-- GROUP_COMPLETION (R79, R80, R365): a group takes its commit sequence number and merges; for a PAIRED problem it takes the
next PAIR_SEQ and waits in the twin queue, or is discarded as INFUSE_FULL. -/
def completeGroup (p : Nat) (es : List Entry) (s : State) : State × Status :=
  let q := prob s p
  if q.twin.state = .paired then
    if 256 ≤ q.twin.queue.length ∨ 131072 < positionsUsed s + es.length then
      (modProb p (fun q => { q with groupsDiscarded := satInc q.groupsDiscarded }) s, stInfuseFull)
    else
      let d := chainOver q.twin.chain es
      let n := q.twin.pairSeq + 1
      (modProb p (fun q => { q with
        commitSeq := q.commitSeq + 1
        twin := { q.twin with pairSeq := n, chain := d, chains := q.twin.chains ++ [(n, d)],
                              queue := q.twin.queue ++ [⟨n, q.commitSeq + 1, es⟩] } }) s, stOk)
  else (modProb p (fun q => mergeEntries es { q with commitSeq := q.commitSeq + 1 }) s, stOk)

/-- The highest commit sequence number merged (R81): those of the groups still queued for the twin lie above it. -/
def mergedSeq (p : Prob) : W64 :=
  match p.twin.queue with
  | [] => p.commitSeq
  | g :: _ => g.cseq - 1

/-- R81: the commit: every pending entry has its effect, the store empties, COMMITTED_SEQ follows. -/
def commitParams (p : Prob) : Prob :=
  { p with
    params := p.pend.foldl (fun ps e => match e.2 with
      | .set v => ps.set e.1 v
      | .add d => ps.set e.1 (addRne (ps.getD e.1 0) d)) p.params
    pend := [], committedSeq := mergedSeq p }

/-- R364, R367: merge the queued groups numbered up to `c`. -/
def mergeQueued (c : W64) (p : Prob) : Prob :=
  let take := p.twin.queue.filter (fun g => decide (g.seq.toNat ≤ c.toNat))
  mergeEntries (take.flatMap TwinGroup.entries)
    { p with twin := { p.twin with queue := p.twin.queue.filter (fun g => decide (c.toNat < g.seq.toNat)),
                                   chains := p.twin.chains.filter (fun x => decide (c.toNat ≤ x.1.toNat)) } }

/-- What a fragment comes to: refused or discarded with a status, held, or completing its group. -/
inductive FragOut where
  | status (st : Status)
  | held
  | complete (es : List Entry) (ack : Bool)
deriving DecidableEq, Repr, Inhabited

/-- Discard the open group of a lease on a problem. -/
def dropGroup (lease : Nat) (q : Prob) : Prob :=
  { q with groups := q.groups.filter (fun g => g.lease != lease),
           groupsDiscarded := satPlus q.groupsDiscarded (q.groups.filter (fun g => g.lease == lease)).length }

/-- Discard every open group of a lease (R77). -/
def dropLeaseGroups (lease : Nat) (s : State) : State := { s with probs := s.probs.map (fun e => (e.1, dropGroup lease e.2)) }

/-- Add entries at their positions; none when a position already held has different bytes (R76). -/
def addHeld (held : Tbl Entry) : Nat → List Entry → Option (Tbl Entry)
  | _, [] => some held
  | i, e :: es =>
    match held.get? i with
    | some o => if o = e then addHeld held (i + 1) es else none
    | none => addHeld (held.set i e) (i + 1) es

/-- A client fragment that passed its own checks and the lease test, for a problem that is not EMPTY (R74, R76, R78); the order of its last
tests and what counts as discarded: log entry 144. -/
def takeFragment (bs : List Byte) (ack : Bool) (s : State) : State × FragOut :=
  let h := parseHdr bs
  let es := (entryRecs bs).map parseEntry
  let s1 := if (prob s h.problem).groups.any (fun g => g.lease == h.lease && g.seq != h.seq) then modProb h.problem (dropGroup h.lease) s else s
  let q := prob s1 h.problem
  let old := q.groups.find? (fun g => g.lease == h.lease)
  let g : OpenGroup := old.getD { lease := h.lease, seq := h.seq, total := h.total }
  let discard (st : Status) : State × FragOut :=
    (modProb h.problem (fun q => if old.isSome then dropGroup h.lease q else { q with groupsDiscarded := satInc q.groupsDiscarded }) s1, .status st)
  if indexBad q es then discard stInfuseIndex
  else if g.total ≠ h.total then discard stInfuseMalformed
  else
    match addHeld g.held h.first es with
    | none => discard stInfuseMalformed
    | some held =>
      if held.length = h.total then
        (modProb h.problem (fun q => { q with groups := q.groups.filter (fun g => g.lease != h.lease) }) s1,
         .complete (held.map Prod.snd) (g.ackReq || ack))
      else if 131072 < positionsUsed s1 + (held.length - g.held.length) then discard stInfuseFull
      else
        (modProb h.problem (fun q => { q with
          groups := q.groups.filter (fun g => g.lease != h.lease) ++ [{ g with held := held, ackReq := g.ackReq || ack }] }) s1, .held)

/-- INFUSE (R76, R78, R83, R406): a whole group from the master. -/
def effInfuse (m : Cmd) (s : State) : State × Reply :=
  let bs := inRec s m
  let h := parseHdr bs
  let es := (entryRecs bs).map parseEntry
  checked (descChecks true false m ++ inChecks m (some h.problem) (24 + 16 * h.count)
      ++ [((prob s (pOf m)).st == .empty, stNotLoaded)] ++ fragmentChecks bs
      ++ [(decide (h.first ≠ 0 ∨ h.count ≠ h.total), stInfuseMalformed), (indexBad (prob s (pOf m)) es, stInfuseIndex)]) s
    (let r := completeGroup (pOf m) es s
     (r.1, .done r.2 (if r.2 = stOk then wBytes 8 (prob r.1 (pOf m)).commitSeq else [])))

/-- INFUSE, 0x0203 (R78). -/
def execInfuse (c : CmdIn) (s : State) : Host.Outcome State Fault Refusal := finish s (submit 0x0203 effInfuse c s)

end Sys2Proof.Machine
end

