-- ==== Sys2Proof/Machine/Images.lean ====
section
/-! DEFINITION. Loading and unloading images, image information, warm-start sources (R69 to R73, R84). -/
namespace Sys2Proof.Machine

/-- A big-endian number. -/
def beAt (bs : List Byte) (off n : Nat) : Nat := leNat ((bs.drop off).take n).reverse

/-- R69, R456: the signature of an image is missing where one is required, or does not verify. -/
def imageAuthBad (s : State) (m : Cmd) (bs : List Byte) (im : Image) : Bool :=
  if im.signed then
    !ecdsaVerify ((s.pwr.nv.keys.get? im.keySlot).getD []) (sha384 (bs.take (im.sigOff + 0x20))) (beAt bs (im.sigOff + 0x20) 48) (beAt bs (im.sigOff + 0x50) 48)
  else m.signReq

/-- A sum over the loaded problems. -/
def sumProbs (f : Prob → Nat) (s : State) : Nat := (s.probs.map (fun e => f e.2)).foldl (· + ·) 0

/-- Bytes of the caddy region in use (R72, R377). -/
def caddyUsed (s : State) : Nat := sumProbs (fun p => if p.st != .empty && !p.inHbm then p.caddyBytes else 0) s
/-- Bytes of the iterate region in use (R377, R378). -/
def iterUsed (s : State) : Nat := sumProbs (fun p => if p.st != .empty then p.iterBytes else 0) s

/-- A caddy fits the caddy region of 32 MiB (R72, Table 17-3). -/
def caddyFits (s : State) (n : Nat) : Bool := decide (caddyUsed s + n ≤ 32 * 2 ^ 20)

/-- CADDY_SPACE (R72, R378): no home for the caddy, no place for the weights, or no room in the iterate region of 24 MiB. -/
def spaceBad (s : State) (im : Image) (r : LoadIn) : Bool :=
  (!caddyFits s r.caddy.toNat && !r.hbmRoom) || (!im.models.isEmpty && !r.hbmRoom)
  || decide (24 * 2 ^ 20 < iterUsed s + r.iter.toNat)

/-- A problem as a successful load leaves it: LOADED, its parameters from the pool, source SELF, its mode of execution from
FIXED_ORDER_BUILT (R69, R71, R84, R249, R387). -/
def loadedProb (s : State) (im : Image) (r : LoadIn) : Prob :=
  { st := .loaded, im := some im, caddyBytes := r.caddy.toNat, iterBytes := r.iter.toNat, lcInPool := r.lcInPool,
    params := im.pool.take im.nParams, inHbm := !caddyFits s r.caddy.toNat, fixed := im.fixedOrderBuilt }

/-- R70: the status of a load, its checks in order. -/
def loadVerdict (s : State) (m : Cmd) (bs : List Byte) (r : LoadIn) : Status :=
  let im := parseImage bs
  if imageVerdict bs (lenOf m) ≠ stOk then imageVerdict bs (lenOf m)
  else if imageAuthBad s m bs im then stImageAuth
  else if spaceBad s im r then stCaddySpace
  else stOk

/-- IMAGE_LOAD (R71): accepted for an EMPTY problem; its checks and the caddy build end in IMAGE_LOAD_COMPLETE. -/
def effImageLoad (m : Cmd) (s : State) : State × Reply :=
  checked (descChecks true false m ++ [(addrBad m m.c.addr (lenOf m), stBadAddress),
      ((prob s (pOf m)).st != .empty || !(runsOf s .imageLoad (pOf m)).isEmpty, stNotEmpty)]) s (s, .held .imageLoad true)

/-- IMAGE_LOAD_COMPLETE (R70 to R72): the oldest load ends; a refused one leaves the problem EMPTY. -/
def doImageLoadComplete (r : LoadIn) (s : State) : State :=
  match s.mbx.running.find? (fun x => x.await == .imageLoad) with
  | none => s
  | some x =>
    let bs := inRec s x.cmd
    let st := loadVerdict s x.cmd bs r
    let t := if st = stOk then { s with probs := s.probs.set (pOf x.cmd) (loadedProb s (parseImage bs) r) } else s
    endRuns (fun y => y.await == .imageLoad && y.cmd.acceptNo == x.cmd.acceptNo) st [] t

/-- R276: a binding is removed; its slots are unbound and stale and keep their values. -/
def dropBinding (p : Nat) (e : Edge) : Edge :=
  { e with binds := e.binds.del p }

/-- Groups that an unload discards: open ones and those queued for the twin (R73). -/
def groupsHeld (p : Prob) : Nat := p.groups.length + p.twin.queue.length
/-- Entries that an unload discards (R73). -/
def entriesHeld (p : Prob) : Nat :=
  p.pend.length + (p.groups.map (fun g => g.held.length)).foldl (· + ·) 0 + (p.twin.queue.map (fun g => g.entries.length)).foldl (· + ·) 0

/-- The RESULT of TRAIN_STOP (R247): the generation in force and the steps done. -/
def stopResult (q : Prob) (j : Job) : List Byte := wBytes 4 (((q.gens.get? j.model).map Gen.gen).getD 0) ++ wBytes 8 (j.c64.getD 0 0)

/-- The stop of an unloaded problem's job ends with it: a TRAIN_STOP completes, a TRAIN_SET held behind it finds the problem EMPTY (R232,
R247). -/
def endJob (q : Prob) (j : Job) (s : State) : State :=
  endAwaitP (.trainSet j.model) j.problem stNotLoaded [] (endAwaitP (.trainStop j.model) j.problem stOk (stopResult q j) s)

/-- R73, R247, R276: a problem becomes EMPTY: its caddy, entries, groups and iterates go, and what was bound to it: training
jobs, slots, its pour ring and its pour streams (log entry 14). -/
def unloadProb (p : Nat) (s : State) : State :=
  forAll (s.jobs.filter (fun j => j.problem == p)) (endJob (prob s p)) { s with
    probs := s.probs.del p
    jobs := s.jobs.filter (fun j => j.problem != p)
    rings := s.rings.map (fun e => (e.1, if e.2.problem = some p then { e.2 with problem := none } else e.2))
    edge := dropBinding p s.edge }

/-- IMAGE_UNLOAD (R73). -/
def effImageUnload (m : Cmd) (s : State) : State × Reply :=
  let q := prob s (pOf m)
  checked (descChecks true false m ++ [(q.st == .empty, stNotLoaded), (q.st != .loaded, stProblemBusy)]) s
    (unloadProb (pOf m) s, .done stOk (leBytes 4 (groupsHeld q) ++ leBytes 4 (entriesHeld q)))

/-- STATE codes of the records (Table 2-12). -/
def PState.code : PState → Nat
  | .empty => 0 | .loaded => 1 | .enabled => 2 | .retiring => 3

/-- The image information record (Table 3-13). -/
def imageInfo (q : Prob) : List Byte :=
  wBytes 8 (match q.im with | some im => im.structSig | none => 0) ++ wBytes 8 q.commitSeq ++ wBytes 8 q.committedSeq
  ++ leBytes 8 q.caddyBytes ++ leBytes 1 (b2n q.inHbm) ++ leBytes 1 q.st.code ++ zeros 2 ++ leBytes 4 q.pend.length
  ++ leBytes 4 q.groups.length ++ wBytes 4 q.warmRepaired ++ wBytes 8 q.groupsDiscarded ++ wBytes 8 q.coalesced

/-- IMAGE_INFO (R73). -/
def effImageInfo (m : Cmd) (s : State) : State × Reply :=
  checked (descChecks true false m ++ outChecks m 64 ++ [((prob s (pOf m)).st == .empty, stNotLoaded)]) s
    (putOut m (imageInfo (prob s (pOf m))) s)

/-- WARM_SOURCE_SET (R84): it takes effect at the next release. -/
def effWarmSource (m : Cmd) (s : State) : State × Reply :=
  let mode := argN m.c 0 1
  let src := argN m.c 2 2
  checked (descChecks true false m ++ [((prob s (pOf m)).st == .empty, stNotLoaded),
      (decide (2 < mode ∨ (mode = 1 ∧ 1023 < src)), stSourceRange)]) s
    (okay (modProb (pOf m) (fun q => { q with warmMode := mode, warmSrc := src }) s))

/-- IMAGE_LOAD, 0x0201 (R71). -/
def execImageLoad (c : CmdIn) (s : State) : Host.Outcome State Fault Refusal := finish s (submit 0x0201 effImageLoad c s)
/-- IMAGE_LOAD_COMPLETE (R70). -/
def execImageLoadComplete (r : LoadIn) (s : State) : Host.Outcome State Fault Refusal := finish s (doImageLoadComplete r s)
/-- IMAGE_UNLOAD, 0x0202 (R73). -/
def execImageUnload (c : CmdIn) (s : State) : Host.Outcome State Fault Refusal := finish s (submit 0x0202 effImageUnload c s)
/-- IMAGE_INFO, 0x0204 (R73). -/
def execImageInfo (c : CmdIn) (s : State) : Host.Outcome State Fault Refusal := finish s (submit 0x0204 effImageInfo c s)
/-- WARM_SOURCE_SET, 0x0205 (R84). -/
def execWarmSourceSet (c : CmdIn) (s : State) : Host.Outcome State Fault Refusal := finish s (submit 0x0205 effWarmSource c s)

end Sys2Proof.Machine
end

