-- ==== Sys2Proof/Machine/Loops.lean ====
section
/-! DEFINITION. The loop engine: arithmetic, sources, the loop, selectors, starting and stopping, the sample boundary (R266 to R275,
R278, R281 to R286). -/
namespace Sys2Proof.Machine

/-- sat40 of R268. -/
def sat40 (x : Int) : Int := clampI (-(2 ^ 39)) (2 ^ 39 - 1) x
/-- sh of R268; shifts 9 to 15 act as 8 (Table 12-5). -/
def shL (p : Int) (s : Nat) : Int := sat40 (p * 2 ^ min s 8)
/-- q15 of R268: to nearest, an exact half towards +∞. -/
def q15 (x : Int) : Int := clampI (-32768) 32767 ((x + 2 ^ 14) / 2 ^ 15)
/-- sat15 of R268. -/
def sat15 (y : Int) : Int := clampI (-32768) 32767 y
/-- The signed low 16 bits of a word. -/
def lo16 (n : Nat) : Int := (BitVec.ofNat 16 n).toInt
/-- The signed high 16 bits of a word. -/
def hi16 (n : Nat) : Int := (BitVec.ofNat 16 (n / 65536)).toInt

/-- Word `i` in force: 0 LE_CFG, 1 LE_PERIOD, 2 LE_PHASE, 3 LE_PV_ORIGIN, 4 LE_KP, 5 LE_KI, 6 LE_KD, 7 LE_KF, 8 LE_OUT_LIM,
9 LE_SP_SCALE, 10 LE_SP_OFFSET, 11 LE_PV_SCALE, 12 LE_PV_OFFSET, 13 LE_SLEW, 14 LE_SAFE (Table 12-5). -/
def Loop.f (l : Loop) (i : Nat) : Nat := (l.force.getD i 0).toNat
/-- A field of LE_CFG in force (Table 12-4). -/
def Loop.cfg (l : Loop) (hi lo : Nat) : Nat := bitsN (l.f 0) hi lo
/-- Writable bits of each word (Tables 12-4 and 12-5, R8). -/
def loopMask : List Nat :=
  [0x7FFFFFFF, 0xFFFFFF, 0xFFFFFF, 0xFFFFFFFF, 0xFFFFF, 0xFFFFF, 0xFFFFF, 0xFFFF, 0xFFFFFFFF, 0xFFFFFF, 0xFFFF, 0xFFFFFF, 0xFFFF, 0x7FFF, 0xFFFFFFFF]
/-- A written value without its reserved bits (R8). -/
def loopWord (i : Nat) (v : W32) : W32 := v &&& BitVec.ofNat 32 (loopMask.getD i 0)
/-- A gain times an operand: mantissa and shift of a gain word (R268). -/
def gainOf (w : Nat) (x : Int) : Int := shL (lo16 w * x) (bitsN w 19 16)
/-- scale of R268 with a scaling word and its offset. -/
def scaleBy (w off : Nat) (raw : Int) : Int := q15 (sat40 (gainOf w raw + lo16 off * 2 ^ 15))
/-- SAFE of a loop (Table 12-5). -/
def Loop.safe (l : Loop) : Int := lo16 (l.f 14)

/-- Loop `n`. -/
def loopN (e : Edge) (n : Nat) : Loop := e.loops.get n
/-- Change a loop of the edge die. -/
def Edge.modLoop (e : Edge) (n : Nat) (f : Loop → Loop) : Edge := { e with loops := e.loops.mod n f }

/-- A binding is stale (R278). -/
def Binding.stale (b : Binding) (tick : Nat) : Bool :=
  match b.fresh with
  | none => true
  | some t => decide (b.staleUs ≤ (tick - t) / 200)
/-- The binding that a slot belongs to. -/
def slotOwner (e : Edge) (slot : Nat) : Option (Nat × Binding) := e.binds.find? (fun b => b.2.entries.any (fun x => x.slot == slot))
/-- A slot is stale or unbound (R278). -/
def slotStale (e : Edge) (slot : Nat) : Bool :=
  match slotOwner e slot with
  | none => true
  | some b => b.2.stale e.tick

/-- The code of an analog input (R294). -/
def ainCode (e : Edge) (i : Nat) : Int := if (e.ains.get i).live.getLsbD 2 then 32767 else (e.ains.get i).code
/-- PULSE_POS (R273). -/
def pulsePos (e : Edge) (l : Loop) (idx pshift : Nat) : Int :=
  sat15 (((e.pins.get idx).count - BitVec.ofNat 32 (l.f 3)).toInt / 2 ^ pshift)
/-- PULSE_RATE at a boundary (R273). -/
def pulseRate (e : Edge) (l : Loop) (idx pshift : Nat) : Int :=
  match l.latch with
  | some (t, c) => if t + l.f 1 = e.tick then sat15 (((e.pins.get idx).count - BitVec.ofInt 32 c).toInt * 2 ^ pshift) else 0
  | none => 0

/-- A set-point from a source of Table 12-1 (R273). -/
def spFrom (e : Edge) (l : Loop) (src idx : Nat) : Int :=
  match src with
  | 0 => lo16 (l.f 10)
  | 1 => e.slots.get idx
  | 2 => scaleBy (l.f 9) (l.f 10) (ainCode e idx)
  | _ => scaleBy (l.f 9) (l.f 10) (pulsePos e l idx (bitsN (l.f 9) 23 20))

/-- The process value (R273). -/
def pvOf (e : Edge) (l : Loop) : Int :=
  let idx := l.cfg 17 12
  match l.cfg 11 10 with
  | 0 => scaleBy (l.f 11) (l.f 12) (ainCode e idx)
  | 1 => scaleBy (l.f 11) (l.f 12) (pulsePos e l idx (bitsN (l.f 11) 23 20))
  | 2 => scaleBy (l.f 11) (l.f 12) (pulseRate e l idx (bitsN (l.f 11) 23 20))
  | _ => e.slots.get idx

/-- The process input is faulted (R275, R303). -/
def pvFaulted (e : Edge) (l : Loop) : Bool :=
  match l.cfg 11 10 with
  | 0 => (e.ains.get (l.cfg 17 12)).live != 0
  | 1 | 2 => (e.pins.get (l.cfg 17 12)).live
  | _ => false

/-- The enabled selector that a loop belongs to (R271). -/
def selOf (e : Edge) (n : Nat) : Option Nat :=
  (List.range 8).find? (fun m => (e.sels.get m).cfg.getLsbD 0 && (e.sels.get m).members.getLsbD n)

/-- What drives for a loop: owner, OUT_DEST and OUT_INDEX (R271). -/
def targetOf (e : Edge) (n : Nat) : Nat × Nat × Nat :=
  match selOf e n with
  | some m => (32 + m, bitsN (e.sels.get m).cfg.toNat 2 1, bitsN (e.sels.get m).cfg.toNat 5 3)
  | none => (n, (loopN e n).cfg 26 25, (loopN e n).cfg 29 27)

/-- A loop is RUNNING or STOPPING, or a start of it is accepted or held (R283, R286). -/
def Loop.busy (l : Loop) : Bool := l.state != .stopped || l.starting.isSome || l.startHeld

/-- R284: a start of loop `n` is refused, beside the loops of `taken`. -/
def startBad (e : Edge) (n : Nat) (taken : List Nat) : Bool :=
  let l := loopN e n
  let t := targetOf e n
  let sels := (List.range 8).filter (fun m => (e.sels.get m).cfg.getLsbD 0 && (e.sels.get m).members.getLsbD n)
  decide (1 < l.cfg 1 0 ∨ l.cfg 19 18 = 3 ∨ l.cfg 21 20 = 1 ∨ l.cfg 26 25 = 3 ∨ t.2.1 = 3
    ∨ (2 ≤ l.cfg 3 2 ∧ 7 < l.cfg 9 4) ∨ (l.cfg 11 10 < 3 ∧ 7 < l.cfg 17 12) ∨ l.f 1 < 1000 ∨ l.f 1 ≤ l.f 2 ∨ 1 < sels.length)
  || taken.any (fun j => j != n && selOf e j == selOf e n && (selOf e n).isSome && decide ((loopN e j).f 1 ≠ l.f 1 ∨ (loopN e j).f 2 ≠ l.f 2))
  || taken.any (fun j => let o := targetOf e j; j != n && t.2.1 != 0 && o.2 == t.2 && o.1 != t.1)

/-- The loops that run or are to run. -/
def takenLoops (e : Edge) : List Nat := (List.range 32).filter (fun n => (loopN e n).busy)

/-- An accepted start: at the next boundary, or held while the loop is STOPPING (R283, R286). -/
def askStart (n : Nat) (e : Edge) : Edge :=
  e.modLoop n (fun l =>
    if l.state = .running ∨ l.busy && l.state == .stopped then l
    else if l.state = .stopping then { l with startHeld := true, run := true }
    else { l with starting := some e.tick, run := true })

/-- A start of one loop: refused with CFG_ERR under R284. -/
def startOne (n : Nat) (e : Edge) : Edge :=
  if startBad e n (takenLoops e) then e.modLoop n (fun l => { l with cfgErr := true }) else askStart n e

/-- A stop: a start not yet carried out goes; a running loop begins to stop (R285, R286). -/
def askStop (n : Nat) (e : Edge) : Edge :=
  e.modLoop n (fun l =>
    let l := { l with run := false, starting := none, startHeld := false }
    if l.state = .running then { l with state := .stopping, stopTick := e.tick } else l)

/-- One write comes into force (R267, R273, R278, R281); of a loop that runs, only KP_COMP of LE_CFG does, and the latched count stands (R280). -/
def forceOne (l : Loop) (w : Nat × W32) : Loop :=
  if w.1 = 16 then
    if w.2 = 0 then { l with holdForce := false } else if l.holdForce then l else { l with holdForce := true, holdVal := l.applied }
  else if w.1 = 17 then { l with safeLatched := false }
  else { l with force := l.force.set w.1 w.2, latch := if w.1 = 1 ∨ w.1 = 2 ∨ (w.1 = 0 ∧ l.state = .stopped) then none else l.latch }

/-- Every write received before tick `k` comes into force, in order (R267). -/
def forceBefore (k : Nat) (l : Loop) : Loop :=
  let now := l.queue.filter (fun w => decide (w.2.2 < k))
  { now.foldl (fun l w => forceOne l (w.1, w.2.1)) l with queue := l.queue.filter (fun w => !decide (w.2.2 < k)) }

/-- What a loop offers at a boundary. -/
structure Calc where
  /-- output offered: u, or a held or SAFE value -/
  offer : Int
  /-- v and i1 of a PID loop -/
  pid : Option (Int × Int)
  /-- neither q15 nor the limits changed the output -/
  exact : Bool
  /-- held or forced -/
  forced : Bool
deriving DecidableEq, Repr, Inhabited

/-- The set-point part of a boundary (R274, R278): target with SAFE latch and FALLBACK, then the slew limit. -/
def setPoint (e : Edge) (first : Bool) (l : Loop) : Loop :=
  let src := l.cfg 3 2
  let idx := l.cfg 9 4
  let stale := src == 1 && slotStale e idx
  let act := l.cfg 19 18
  let fb := stale && act == 1
  let target := if fb then spFrom e l (l.cfg 21 20) (l.cfg 24 22) else spFrom e l src idx
  let prev := if first then target else l.sp
  let slew : Int := l.f 13
  let step := target - prev
  { l with sp := prev + (if slew = 0 then step else clampI (-slew) slew step), fallback := fb,
           safeLatched := l.safeLatched || (stale && act == 2) }

/-- min(max(y, OUT_LO), OUT_HI) (R269). -/
def limited (l : Loop) (y : Int) : Int := min (max y (lo16 (l.f 8))) (hi16 (l.f 8))

/-- What is applied: SAFE before HOLD before a fault's hold (R275, R278, R281). -/
def offered (l : Loop) (fault : Bool) (u : Int) : Int :=
  if l.safeLatched then l.safe else if l.holdForce then l.holdVal else if fault then l.faultHold else u

/-- One running loop at a boundary (R269, R274, R275, R278, R281 to R283). -/
def computeLoop (e : Edge) (first : Bool) (kpOld : Nat) (l0 : Loop) : Loop × Calc :=
  let u0 := l0.applied
  let l := setPoint e first l0
  let l := { l with limitsInverted := l.limitsInverted || decide (hi16 (l.f 8) < lo16 (l.f 8)) }
  if l.cfg 1 0 = 1 then
    let u := limited l l.sp
    let o := offered l false u
    ({ l with u := u, clamped := u != l.sp, applied := o }, ⟨o, none, u == l.sp, l.safeLatched || l.holdForce⟩)
  else
    let fault := pvFaulted e l
    let act := l.cfg 19 18
    let l := { l with
      pvFault := l.pvFault || fault, safeLatched := l.safeLatched || (fault && act == 2)
      faultHold := if fault && !l.wasFaulted then l.applied else l.faultHold }
    let pv := pvOf e l
    let l := if first || (l.wasFaulted && !fault) then { l with pvPrev := pv, dst := 0 } else l
    let er := sat15 (l.sp - pv)
    let d := sat15 (l.pvPrev - pv)
    let p := gainOf (l.f 4) er
    let i := if first then sat40 (u0 * 2 ^ 15 - p)
      else if (l.f 0).testBit 30 && l.f 4 != kpOld then sat40 (l.integ + gainOf kpOld er - p) else l.integ
    let i1 := sat40 (i + gainOf (l.f 5) er)
    let dn := q15 (sat40 (lo16 (l.f 7) * l.dst + gainOf (l.f 6) d))
    let v := sat40 (p + i1 + dn * 2 ^ 15)
    let u := limited l (q15 v)
    let exact := u == (v + 2 ^ 14) / 2 ^ 15
    let o := offered l fault u
    ({ l with dst := dn, pvPrev := pv, integ := i, u := u, clamped := !exact, applied := o, wasFaulted := fault },
     ⟨o, some (v, i1), exact, l.safeLatched || l.holdForce || fault⟩)

/-- R270 with the output applied: IN_CONTROL and the integrator. -/
def trackLoop (ua : Int) (chosen : Bool) (c : Calc) (l : Loop) : Loop :=
  let ctl := chosen && !c.forced && c.exact
  { l with inControl := ctl, integ := match c.pid with
      | none => l.integ
      | some (v, i1) => if ctl then i1 else sat40 (i1 + ua * 2 ^ 15 - v) }

/-- One boundary of a stop from output `val` (R285): the new output and whether the stop completes. -/
def stopStep (l : Loop) (val : Int) : Int × Bool :=
  match bitsN (l.f 14) 31 30 with
  | 1 => (l.safe, true)
  | 2 =>
    let r : Int := max 1 (bitsN (l.f 14) 29 16)
    let v := val + clampI (-r) r (l.safe - val)
    (v, v == l.safe)
  | _ => (val, true)

/-- A stop is complete (R285, R286): writes that wait come into force, a held start is taken. -/
def stopDone (k : Nat) (final : Int) (l : Loop) : Loop :=
  let l := { l.queue.foldl (fun l w => forceOne l (w.1, w.2.1)) l with queue := [], state := .stopped, inControl := false, applied := final }
  if l.startHeld then { l with startHeld := false, starting := some k } else l

/-- The code that an output is commanded to (R296, R297): 1 analog, 2 digital. -/
def outCode (e : Edge) (dest idx : Nat) : Option Int :=
  match dest with
  | 1 => some (e.aouts.get idx).code
  | 2 => some (e.douts.get idx).code
  | _ => none

/-- u0 of a start (R283): what the selector with other running members, or the destination, is driving. -/
def drivenNow (e : Edge) (n : Nat) : Int :=
  match selOf e n with
  | some m =>
    if (List.range 32).any (fun j => j != n && (e.sels.get m).members.getLsbD j && (loopN e j).state != .stopped) then (e.sels.get m).u
    else (outCode e (bitsN (e.sels.get m).cfg.toNat 2 1) (bitsN (e.sels.get m).cfg.toNat 5 3)).getD (e.sels.get m).u
  | none => (outCode e ((loopN e n).cfg 26 25) ((loopN e n).cfg 29 27)).getD (loopN e n).applied

/-- A loop has a boundary at tick `k` (R266). -/
def onGrid (l : Loop) (k : Nat) : Bool := decide (0 < l.f 1) && decide ((k + l.f 1 - l.f 2 % l.f 1) % l.f 1 = 0)

/-- What a boundary has computed so far: the edge die, stops completed with their final outputs. -/
abbrev Bound := Edge × List (Nat × Int)

/-- The loops that an output belongs to: the loop, or the members of the selector (R271). -/
def ownersOf (e : Edge) (owner : Nat) : W32 := if owner < 32 then (1#32) <<< owner else (e.sels.get (owner - 32)).members

/-- Queue an output for tLOOPOUT later (R267). -/
def pushOut (owner dest idx : Nat) (code : Int) (final : Bool) (e : Edge) : Edge :=
  if dest = 0 ∨ dest = 3 then e else { e with outs := e.outs ++ [⟨owner, e.tick, dest, idx, code, ownersOf e owner, final⟩] }

/-- A stop completes inside a boundary. -/
def Bound.stop (b : Bound) (n : Nat) (final : Int) : Bound := (b.1.modLoop n (stopDone b.1.tick final), b.2 ++ [(n, final)])

/-- A standalone loop at its boundary (R270, R285). -/
def standalone (n : Nat) (c : Option Calc) (b : Bound) : Bound :=
  let l := loopN b.1 n
  match c with
  | some c => (pushOut n (l.cfg 26 25) (l.cfg 29 27) c.offer false (b.1.modLoop n (trackLoop c.offer true c)), b.2)
  | none =>
    let r := stopStep l l.applied
    let e := pushOut n (l.cfg 26 25) (l.cfg 29 27) r.1 r.2 (b.1.modLoop n (fun l => { l with applied := r.1, inControl := false }))
    if r.2 then Bound.stop (e, b.2) n r.1 else (e, b.2)

/-- The chosen member: the lowest output, on a tie the lowest number (R271). -/
def lowest (l : List (Nat × Calc)) : Option (Nat × Calc) :=
  l.foldl (fun b x => match b with | none => some x | some y => if x.2.offer < y.2.offer then some x else some y) none

/-- A selector at its boundary (R271, R285): `live` its running members, `going` those that stop. -/
def selectorAt (m : Nat) (live : List (Nat × Calc)) (going : List Nat) (b : Bound) : Bound :=
  let s := b.1.sels.get m
  let dest := bitsN s.cfg.toNat 2 1
  let idx := bitsN s.cfg.toNat 5 3
  match lowest live with
  | some w =>
    let e := live.foldl (fun e x => e.modLoop x.1 (trackLoop w.2.offer (x.1 == w.1) x.2)) b.1
    let e := { e with sels := e.sels.set m { s with chosen := w.1, u := w.2.offer } }
    going.foldl (fun (b : Bound) n => Bound.stop b n (loopN b.1 n).applied) (pushOut (32 + m) dest idx w.2.offer false e, b.2)
  | none =>
    match going with
    | [] => b
    | g :: _ =>
      let gov := if going.contains s.chosen then s.chosen else g
      let r := stopStep (loopN b.1 gov) s.u
      let e := { b.1 with sels := b.1.sels.set m { s with chosen := gov, u := r.1 } }
      let e := e.modLoop gov (fun l => { l with applied := r.1, inControl := false })
      let b := (going.filter (· != gov)).foldl (fun (b : Bound) n => Bound.stop b n (loopN b.1 n).applied) ((pushOut (32 + m) dest idx r.1 r.2 e, b.2) : Bound)
      if r.2 then Bound.stop b gov r.1 else b

/-- A loop begins (R283). -/
def beginLoop (u0 : Int) (l : Loop) : Loop :=
  { l with state := .running, starting := none, safeLatched := false, wasFaulted := false, applied := u0, holdVal := u0, faultHold := u0 }

/-- An accepted start that the registers in force at its boundary no longer allow is refused there (R284, log entry 136). -/
def refuseStart (l : Loop) : Loop := { l with starting := none, run := false, cfgErr := true }

/-- The boundary of every loop due at the present tick (R267): writes in force, starts, loops, selectors, stops, count latches. -/
def boundaryAt (e : Edge) : Bound :=
  let k := e.tick
  let due := (List.range 32).filter (fun n => onGrid (loopN e n) k && (loopN e n).last != some k)
  let kpOld := due.map (fun n => (n, (loopN e n).f 4))
  let e1 := due.foldl (fun e n => e.modLoop n (forceBefore k)) e
  let asked := due.filter (fun n => match (loopN e1 n).starting with | some t => decide (t < k) | none => false)
  let e1 := asked.foldl (fun e n => if startBad e n (takenLoops e) then e.modLoop n refuseStart else e) e1
  let firsts := asked.filter (fun n => (loopN e1 n).starting.isSome)
  let e2 := firsts.foldl (fun e n => e.modLoop n (beginLoop (drivenNow e1 n))) e1
  let runs := due.filter (fun n => let l := loopN e2 n; l.state == .running || (l.state == .stopping && decide (k ≤ l.stopTick)))
  let going := due.filter (fun n => let l := loopN e2 n; l.state == .stopping && decide (l.stopTick < k))
  let calcs := runs.map (fun n => (n, computeLoop e2 (firsts.contains n) (((kpOld.find? (fun x => x.1 == n)).map Prod.snd).getD 0) (loopN e2 n)))
  let e3 := calcs.foldl (fun e x => e.modLoop x.1 (fun _ => x.2.1)) e2
  let cs := calcs.map (fun x => (x.1, x.2.2))
  let b := cs.foldl (fun b x => if (selOf e3 x.1).isNone then standalone x.1 (some x.2) b else b) ((e3, []) : Bound)
  let b := going.foldl (fun b n => if (selOf e3 n).isNone then standalone n none b else b) b
  let b := (List.range 8).foldl (fun b m =>
    selectorAt m (cs.filter (fun x => selOf e3 x.1 == some m)) (going.filter (fun n => selOf e3 n == some m)) b) b
  (due.foldl (fun e n => e.modLoop n (fun l => { l with last := some k, latch := some (k, (e.pins.get (l.cfg 17 12)).count.toInt) })) b.1, b.2)

/-- An event of the edge die is recorded while the main die is powered (R437). -/
def edgeEvent (code arg : Nat) (data : List Byte) (s : State) : State := if mainOn s then event code arg data s else s

/-- The commands that wait for stops no longer wait for loop `n` (R285). -/
def loopDone (n : Nat) (s : State) : State :=
  endRuns (fun r => r.await == .loops 0) stOk []
    (modMbx (fun b => { b with running := b.running.map (fun r =>
      match r.await with
      | .loops mk => { r with await := .loops (mk &&& ~~~((1#32) <<< n)) }
      | _ => r) }) s)

/-- Stops have completed: each is recorded, and ends what waits for it (R285). -/
def stopsDone (l : List (Nat × Int)) (s : State) : State :=
  forAll l (fun x t => loopDone x.1 (edgeEvent 2 x.1 (wBytes 2 (BitVec.ofInt 16 x.2)) t)) s

/-- SAMPLE_BOUNDARY (R267): the boundary of the loop and of every other loop due at the same tick. -/
def doBoundary (n : Fin 32) (s : State) : State :=
  if s.edge.on && onGrid (loopN s.edge n) s.edge.tick && (loopN s.edge n).last != some s.edge.tick then
    let b := boundaryAt s.edge
    stopsDone b.2 { s with edge := b.1 }
  else s

/-- One output takes its code (R296); in DIGITAL mode and on analog outputs at once, in PWM mode at the next period (R295). -/
def applyOut (o : OutDue) (e : Edge) : Edge :=
  match o.dest with
  | 1 => { e with aouts := e.aouts.mod o.index (fun a => { a with code := o.code, set := if o.final then o.code else a.set }) }
  | 2 => { e with douts := e.douts.mod o.index (fun a => { a with code := o.code, set := if o.final then o.code else a.set }) }
  | _ => e

/-- LOOP_OUTPUT_APPLY (R267): 800 ticks after their boundary the outputs of a loop, or of its selector, are applied. -/
def doOutApply (n : Fin 32) (s : State) : State :=
  let mine (o : OutDue) : Bool := decide (o.tick + 800 ≤ s.edge.tick) && o.members.getLsbD n
  if s.edge.on then
    modEdge (fun e => { (e.outs.filter mine).foldl (fun e o => applyOut o e) e with outs := e.outs.filter (fun o => !mine o) }) s
  else s

/-- SAMPLE_BOUNDARY (R267). -/
def execSampleBoundary (n : Fin 32) (s : State) : Host.Outcome State Fault Refusal := finish s (doBoundary n s)
/-- LOOP_OUTPUT_APPLY (R267). -/
def execLoopOutputApply (n : Fin 32) (s : State) : Host.Outcome State Fault Refusal := finish s (doOutApply n s)

end Sys2Proof.Machine
end

