-- ==== Sys2Proof/Machine/Instants.lean ====
section
/-! DEFINITION. Reading the five clocks, conversion between them (R307 to R321) and release instants (R27 to R30). -/
namespace Sys2Proof.Machine

/-- A time base counts (Table 14-1). -/
def TBase.running (b : TBase) : Bool := b.state != .disabled

/-- The nanosecond value of a time base. -/
def TBase.ns (b : TBase) : Int := (b.value / 2 ^ 40 : Nat)

/-- TB n. -/
def tbase (s : State) (n : Nat) : TBase := s.time.tbs.get n

/-- Clock `c` runs: 0 is LT, 1 to 4 are TB0 to TB3. -/
def clockRuns (s : State) (c : Nat) : Bool := if c = 0 then true else (tbase s (c - 1)).running
/-- Instants of clock `c` are compared: it runs and is not shutting down (R311, R318). -/
def clockCompares (s : State) (c : Nat) : Bool := clockRuns s c && (c == 0 || (tbase s (c - 1)).state != .disabling)
/-- The nanosecond value of clock `c` now. -/
def clockNow (s : State) (c : Nat) : Int := if c = 0 then s.lt else (tbase s (c - 1)).ns
/-- RATE of clock `c`; LT has RATE 0 (R320). -/
def clockRate (s : State) (c : Nat) : Int := if c = 0 then 0 else (tbase s (c - 1)).rate

/-- R320: time `t` of clock `a` in clock `b`, at the present cycle; none while one of them is DISABLED. -/
def convertTime (s : State) (a b : Nat) (t : Int) : Option Int :=
  if clockRuns s a && clockRuns s b then
    some (clockNow s b - rneDiv ((clockNow s a - t) * (2 ^ 40 + clockRate s b)) (2 ^ 40 + clockRate s a).toNat)
  else none

/-- R320 for a timestamp of LT in 2^-16 ns, into time base `b` (R322). -/
def stampTo (s : State) (b : TBase) (t : Int) : Int :=
  (b.value / 2 ^ 24 : Nat) - rneDiv (((s.lt : Int) * 2 ^ 16 - t) * (2 ^ 40 + b.rate)) (2 ^ 40)

/-- R321: the full instant a 32-bit short time means. -/
def shortTime (now : Int) (w : Nat) : Int := now + (BitVec.ofInt 32 ((w : Int) - now)).toInt

/-- The number of instants PHASE + k T in [lo, hi). -/
def instantsIn (phase T : Nat) (lo hi : Int) : Nat := ((hi - 1 - phase) / (T : Int) - (lo - 1 - phase) / (T : Int)).toNat

/-- The latest instant PHASE + k T at or before `now`. -/
def lastInstantAt (phase T : Nat) (now : Int) : Int := phase + (now - phase) / (T : Int) * T

/-- R27 to R30: the first instant that still counts for a problem: not before the enable or restart, after the last one
released. -/
def firstInstant (p : Prob) : Int :=
  match p.lastInstant with
  | some l => max p.notBefore (l + 1)
  | none => p.notBefore

/-- The release instant of a PERIODIC problem that its time base has reached, and how many instants a step passed over
(R28, R29); none while nothing is due. A DISABLING time base reaches none: its compares are cancelled (R311). -/
def dueInstant (s : State) (p : Prob) : Option (Int × Nat) :=
  if p.st = .enabled ∧ p.sched.requested = false ∧ p.staging = false ∧ 0 < p.sched.period ∧ clockCompares s p.sched.tb = true then
    let x := lastInstantAt p.sched.phase p.sched.period (clockNow s p.sched.tb)
    if firstInstant p ≤ x then some (x, instantsIn p.sched.phase p.sched.period (firstInstant p) x) else none
  else none

/-- The next release instant of a PERIODIC problem that its time base has not reached. -/
def nextInstant (s : State) (p : Prob) : Int :=
  let lo := max (firstInstant p) (clockNow s p.sched.tb + 1)
  p.sched.phase + ((lo - p.sched.phase + p.sched.period - 1) / (p.sched.period : Int)) * p.sched.period

/-- R319: the predicted LT of instant `x` of clock `c`. -/
def predictLt (s : State) (c : Nat) (x : Int) : Int :=
  s.lt + (x - clockNow s c) * 2 ^ 40 / (2 ^ 40 + clockRate s c)

/-- R30: a time base starts again: its problems resume at the first instant not earlier, and the instants passed in
between are stepped over; a problem enabled while the base was DISABLED counts them from the value 0 that the base then held (log entry 142). -/
def resumeProblem (c : Nat) (now : Int) (p : Prob) : Prob :=
  if p.sched.tb = c ∧ p.st = .enabled ∧ p.sched.requested = false then
    { p with
      stats := { p.stats with steppedOver := satPlus p.stats.steppedOver (instantsIn p.sched.phase p.sched.period (firstInstant p) now) }
      lastInstant := none, notBefore := now }
  else p

/-- R30, R46 for every problem. -/
def resumeProblems (c : Nat) (now : Int) (s : State) : State :=
  let gain (p : Prob) : Nat := if p.sched.tb = c ∧ p.st = .enabled ∧ p.sched.requested = false then
      instantsIn p.sched.phase p.sched.period (firstInstant p) now else 0
  shedEvents ((s.probs.map (fun e => gain e.2)).foldl (· + ·) 0)
    { s with probs := s.probs.map (fun e => (e.1, resumeProblem c now e.2)) }

end Sys2Proof.Machine
end

