-- ==== Sys2Proof/Machine/Gates.lean ====
section
/-! DEFINITION. Gate control lists and egress queues of the switch (R338, R340 to R343). -/
namespace Sys2Proof.Machine

/-- A port. -/
def port (s : State) (p : Nat) : Port := s.net.ports.get p

/-- R341: the list's clock can run it: LT after full service was first reached, a time base that is neither DISABLED nor
DISABLING. -/
def gateClock (s : State) (tb : Nat) : Bool :=
  if tb = 0 then s.pwr.everFull
  else (tbase s (tb - 1)).state != .disabled && (tbase s (tb - 1)).state != .disabling

/-- The entry of a list that a position in its cycle falls in. -/
def entryAt : List (Byte × Nat) → Nat → Nat
  | [], _ => 0
  | (_, d) :: t, x => if x < d then 0 else entryAt t (x - d) + 1

/-- The position of a clock value in a list's cycle. -/
def cyclePos (g : GateList) (now : Int) : Nat := ((now - g.base) % (g.cycle : Int)).toNat

/-- The gates in force on a port: every gate without a list, FALLBACK_GATES while it cannot run (R341). -/
def gatesNow (q : Port) : Byte :=
  match q.gate with
  | none => 0xFF
  | some g =>
    match q.gatePos with
    | none => g.fallback
    | some i => (g.entries.getD i (0xFF, 0)).1

/-- Line rate of a port mode, Mb/s (Table 15-1). -/
def modeRate : Nat → Nat
  | 1 => 1000 | 2 => 10000 | 3 => 25000 | 4 => 50000 | 5 => 100000 | 6 => 200000 | 7 => 200000 | 8 => 400000 | _ => 0

/-- ns until class `c`'s gate closes, from inside entry `i` with `left` ns of it left; none when it stays open a cycle. -/
def closesIn (es : List (Byte × Nat)) (c : Nat) : Nat → Nat → Nat → Option Nat
  | 0, _, _ => none
  | k + 1, i, left =>
    if (es.getD (i % es.length) (0xFF, 0)).1.getLsbD c then
      (closesIn es c k (i + 1) (es.getD ((i + 1) % es.length) (0xFF, 0)).2).map (· + left)
    else some 0

/-- R342: frames of `bytes` bytes in all, back to back, of class `c` may start now: their gate is open and the last leaves the medium
before it closes. -/
def mayStart (s : State) (q : Port) (c bytes : Nat) : Bool :=
  (gatesNow q).getLsbD c &&
  (match q.gate, q.gatePos with
   | some g, some i =>
     let x := cyclePos g (clockNow s g.tb)
     let done := ((g.entries.take (i + 1)).map Prod.snd).foldl (· + ·) 0
     (match closesIn g.entries c g.entries.length i (done - x) with
      | none => true
      | some t => decide ((bytes + 20) * 8 * 1000 ≤ t * modeRate q.cfg.mode))
   | _, _ => true)

/-- Bytes of each frame of a queued item on the medium, FCS included (R352). -/
def itemSizes : QItem → List Nat
  | .transit e => [e.size]
  | .pour _ _ _ _ dst fs => fs.map (fun f => f.length + 22 + (match dst.transport with | .ipv4 => 28 | .ipv6 => 48 | .raw => 0))

/-- The first `n` frames of a queued item leave; each frame of a tagged set has the next sequence number (R346). -/
def sendItem (p n : Nat) (it : QItem) (s : State) : State :=
  match it with
  | .transit e => if n = 0 then s else emit (.forward [p] e) s
  | .pour _ _ _ _ dst fs =>
    forAll (fs.take n).zipIdx (fun (f, i) t =>
      emit (.frame { dst with port := Fin.ofNat 16 p, rtag := dst.rtag.map (· + BitVec.ofNat 16 i) } f) t) s

/-- A queued item without its first `n` frames. -/
def QItem.rest (n : Nat) : QItem → QItem
  | .transit e => .transit e
  | .pour c p k b dst fs => .pour c p k (b || n != 0) { dst with rtag := dst.rtag.map (· + BitVec.ofNat 16 n) } (fs.drop n)

/-- How many of an item's frames may start, one after the other, behind `spent` bytes: their number and the bytes then spent. -/
def sendable (s : State) (q : Port) (c : Nat) : Nat → List Nat → Nat × Nat
  | spent, [] => (0, spent)
  | spent, b :: bs =>
    if mayStart s q c (spent + b) then
      let r := sendable s q c (spent + b + 20) bs
      (r.1 + 1, r.2)
    else (0, spent)

/-- What a pass over a port's queue has come to: classes whose next frame must wait, bytes sent, items that stay, the state. -/
structure Pass where
  /-- classes that wait: their later frames stay behind (R343) -/
  waits : List Nat := []
  /-- bytes sent in this pass, gaps included -/
  spent : Nat := 0
  /-- items that stay -/
  kept : List (Nat × QItem) := []
  /-- the state with what has left -/
  st : State := {}

/-- One item of a port's queue: the frames that its gate lets go leave, the others wait for a later window (R342, R343). -/
def passItem (s : State) (q : Port) (p : Nat) (a : Pass) (x : Nat × QItem) : Pass :=
  if a.waits.contains x.1 then { a with kept := a.kept ++ [x] }
  else
    let ns := itemSizes x.2
    let r := sendable s q x.1 a.spent ns
    let a := { a with spent := r.2, st := sendItem p r.1 x.2 a.st }
    if r.1 = ns.length then a else { a with waits := x.1 :: a.waits, kept := a.kept ++ [(x.1, x.2.rest r.1)] }

/-- Send what a port's open gates let go, each class in its queue's order (R338, R342, R343). -/
def drain (p : Nat) (s : State) : State :=
  let q := port s p
  if q.state = .up then
    let r := q.queue.foldl (passItem s q p) { st := s }
    modPort p (fun q => { q with queue := r.kept }) r.st
  else s

/-- Release the preemption hold once no express gate is open (R342). -/
def dropHold (p : Nat) (s : State) : State :=
  let q := port s p
  if q.holding && (gatesNow q &&& q.cfg.express) == 0 then emit (.hold p false) (modPort p (fun q => { q with holding := false }) s) else s

/-- The ports whose lists follow a clock. -/
def gatedBy (tb : Nat) (s : State) : List Nat := (s.net.ports.filter (fun e => e.2.gate.any (fun g => g.tb == tb))).map Prod.fst

/-- New gates are in force on the ports of a clock: frames of opened classes go. -/
def gatesChanged (tb : Nat) (s : State) : State := forAll (gatedBy tb s) (fun p t => drain p (dropHold p t)) s

/-- R341: a step of a clock ends the current interval, and lists resume from the entry the new value falls in. -/
def regate (tb : Nat) (s : State) : State :=
  gatesChanged tb (modNet (fun n => { n with ports := n.ports.map (fun e =>
    match e.2.gate, e.2.gatePos with
    | some g, some _ => if g.tb = tb then (e.1, { e.2 with gatePos := some (entryAt g.entries (cyclePos g (clockNow s tb))) }) else e
    | _, _ => e) }) s)

/-- R341: a clock's lists fall back. -/
def ungate (tb : Nat) (s : State) : State :=
  gatesChanged tb (modNet (fun n => { n with ports := n.ports.map (fun e =>
    match e.2.gate with
    | some g => if g.tb = tb then (e.1, { e.2 with gatePos := none }) else e
    | none => e) }) s)

/-- Queue an item on an UP port and send what may go. -/
def enqueue (p c : Nat) (it : QItem) (s : State) : State :=
  if (port s p).state = .up then drain p (modPort p (fun q => { q with queue := q.queue ++ [(c, it)] }) s) else s

/-- R343: at most two unsent sets of one destination on a port; the oldest is discarded and counted. -/
def trimSets (client : Byte) (problem p : Nat) (s : State) : State :=
  let mine (x : Nat × QItem) : Bool := match x.2 with
    | .pour k q _ begun _ _ => k == client && q == problem && !begun
    | _ => false
  modPort p (fun q =>
    if (q.queue.filter mine).length < 2 then q
    else { q with queue := q.queue.eraseP mine, pourDropped := satInc q.pourDropped }) s

/-- GATE_CYCLE_START (R340, R341): a waiting list takes effect at its first cycle start at least 1 µs after GATE_SET;
otherwise the list in force starts its cycle. -/
def doCycleStart (p : Fin 16) (s : State) : State :=
  let q := port s p
  let begin (g : GateList) (since : Nat) : Bool :=
    gateClock s g.tb && decide ((g.base : Int) ≤ clockNow s g.tb)
      && decide (cyclePos g (clockNow s g.tb) < (g.entries.getD 0 (0, 0)).2)
      && decide (since + cyclePos g (clockNow s g.tb) ≤ s.lt)
  match q.gateNext with
  | some (g, t0) =>
    if begin g (t0 + 1000) then
      drain p (dropHold p (modPort p (fun q => { q with gate := some g, gateNext := none, gatePos := some 0 }) s))
    else
      match q.gate with
      | some g => if begin g 0 then drain p (dropHold p (modPort p (fun q => { q with gatePos := some 0 }) s)) else s
      | none => s
  | none =>
    match q.gate with
    | some g => if begin g 0 then drain p (dropHold p (modPort p (fun q => { q with gatePos := some 0 }) s)) else s
    | none => s

/-- GATE_INTERVAL_END (R340): the next entry's gates take effect and frames of opened classes go. -/
def doIntervalEnd (p : Fin 16) (s : State) : State :=
  let q := port s p
  match q.gate, q.gatePos with
  | some g, some i =>
    let j := entryAt g.entries (cyclePos g (clockNow s g.tb))
    if gateClock s g.tb && j != i then drain p (dropHold p (modPort p (fun q => { q with gatePos := some j }) s)) else s
  | _, _ => s

/-- PREEMPTION_HOLD (R342): HOLD_ADVANCE ns before an express gate opens. -/
def doHold (p : Fin 16) (s : State) : State :=
  let q := port s p
  match q.gate, q.gatePos with
  | some g, some i =>
    let done := ((g.entries.take (i + 1)).map Prod.snd).foldl (· + ·) 0
    let nextGates := (g.entries.getD ((i + 1) % g.entries.length) (0, 0)).1
    if q.state = .up ∧ q.preemptActive = true ∧ q.holding = false ∧ gateClock s g.tb = true
        ∧ done ≤ cyclePos g (clockNow s g.tb) + q.cfg.hold ∧ (nextGates &&& ~~~(gatesNow q) &&& q.cfg.express) ≠ 0 then
      emit (.hold p true) (modPort p (fun q => { q with holding := true }) s)
    else s
  | _, _ => s

/-- GATE_CYCLE_START (R340). -/
def execGateCycleStart (p : Fin 16) (s : State) : Host.Outcome State Fault Refusal := finish s (doCycleStart p s)
/-- GATE_INTERVAL_END (R340). -/
def execGateIntervalEnd (p : Fin 16) (s : State) : Host.Outcome State Fault Refusal := finish s (doIntervalEnd p s)
/-- PREEMPTION_HOLD (R342). -/
def execPreemptionHold (p : Fin 16) (s : State) : Host.Outcome State Fault Refusal := finish s (doHold p s)

end Sys2Proof.Machine
end

