-- ==== Sys2Proof/Machine/TimeBase.lean ====
section
/-! DEFINITION. Time bases: enabling, the servo, steps, hot standby (R307 to R317, R326, R327). -/
namespace Sys2Proof.Machine

/-- STATE of TBU_TB_STATUS (Table 14-6). -/
def TbState.code : TbState → Nat
  | .disabled => 0 | .free => 1 | .acquiring => 2 | .locked => 3 | .holdover => 4 | .disabling => 5

/-- A time-base record (Table 14-2). -/
def parseTb (bs : List Byte) : TbCfg :=
  { source := u8 bs 1, domain := u8 bs 2, fromValue := u8 bs 3 == 1, ports := BitVec.ofNat 16 (u16 bs 4),
    prio1 := byteAt bs 6, prio2 := byteAt bs 7, cls := byteAt bs 8, logSync := (byteAt bs 9).toInt,
    initValue := u64 bs 16, stepLimit := u32 bs 24, slew := u32 bs 28, lockNs := u32 bs 32 }

/-- R310: a field outside Table 14-2 or a reserved field that is not zero. -/
def tbRecordBad (bs : List Byte) : Bool :=
  let c := parseTb bs
  decide (3 < u8 bs 0 ∨ c.source = 1 ∨ 4 < c.source ∨ 127 < c.domain ∨ (c.source = 0 ∧ c.domain ≠ 0) ∨ 1 < u8 bs 3
    ∨ (c.source = 0 ∧ c.ports ≠ 0) ∨ (c.source ≠ 0 ∧ c.ports = 0) ∨ c.cls.toNat < 6 ∨ c.logSync < -7 ∨ 0 < c.logSync
    ∨ (c.fromValue = false ∧ c.initValue ≠ 0) ∨ c.stepLimit < 1000 ∨ 1000000000 < c.stepLimit ∨ c.slew < 1 ∨ 100000 < c.slew
    ∨ c.lockNs < 1 ∨ 10000 < c.lockNs)
  || !zeroAt bs 10 6 || !zeroAt bs 36 4

/-- R310: another running time base uses the same SOURCE and DOMAIN on one of the same PORTS. -/
def tbClash (s : State) (n : Nat) (c : TbCfg) : Bool :=
  (List.range 4).any (fun k => k != n && (tbase s k).running && (tbase s k).source == c.source && (tbase s k).domain == c.domain
    && ((tbase s k).ports &&& c.ports) != 0)

/-- A DISABLED time base starts (R310). -/
def startTb (n : Nat) (c : TbCfg) (s : State) : State :=
  let v := if c.fromValue then c.initValue else s.lt
  resumeProblems (n + 1) v (modTb n (fun b =>
    { state := if c.source = 0 then .free else .acquiring, value := v * 2 ^ 40, cfg := c, domain := c.domain, ports := c.ports,
      source := c.source, logSync := c.logSync, switchBlocked := b.switchBlocked, switched := b.switched, stepped := b.stepped,
      offset := b.offset, steps := b.steps, switches := b.switches, seqId := b.seqId }) s)

/-- TB_ENABLE (R310, R312). -/
def effTbEnable (m : Cmd) (s : State) : State × Reply :=
  let bs := inRec s m
  let c := parseTb bs
  let n := u8 bs 0
  checked (descChecks false false m ++ inChecks m none 40 ++
      [(tbRecordBad bs, stTbRange), ((tbase s n).state != .disabled && (tbase s n).state != .disabling, stTbState)]) s
    (if (tbase s n).state = .disabling then (modTb n (fun b => { b with held := some c }) s, .held (.tbEnable n) false)
     else checked [(tbClash s n c, stTbRange)] s (okay (startTb n c s)))

/-- A hot-standby pair is dissolved. -/
def dissolvePair (n : Nat) (s : State) : State :=
  match (tbase s n).partner with
  | none => s
  | some k => modTb n (fun b => { b with partner := none, standby := false }) (modTb k (fun b => { b with partner := none, standby := false }) s)

/-- TB_DISABLE (R311). -/
def effTbDisable (m : Cmd) (s : State) : State × Reply :=
  let n := argN m.c 0 1
  checked (descChecks false false m ++ [(decide (3 < n), stTbRange)]) s
    (match (tbase s n).state with
     | .disabled => (s, .done stOk (leBytes 8 0))
     | .disabling => (s, .held (.tbDisable n) false)
     | _ => (modTb n (fun b => { b with state := .disabling, slavePort := none, converging := false })
                (dissolvePair n (ungate (n + 1) s)), .held (.tbDisable n) false))

/-- The final value a DISABLING time base reports. -/
def finalValue (b : TBase) : List Byte := leBytes 8 (b.value / 2 ^ 40)

/-- The time base becomes DISABLED: value 0, sticky flags and counts kept (R311). -/
def disableTb (b : TBase) : TBase :=
  { switchBlocked := b.switchBlocked, switched := b.switched, stepped := b.stepped, offset := b.offset, steps := b.steps,
    switches := b.switches, seqId := b.seqId }

/-- A held TB_ENABLE is carried out (R312). -/
def carryEnable (n : Nat) (h : Option TbCfg) (s : State) : State :=
  match h with
  | none => s
  | some c => if tbClash s n c then endAwait (.tbEnable n) stTbRange [] s else endAwait (.tbEnable n) stOk [] (startTb n c s)

/-- TB_DISABLE_COMPLETE (R311, R312). -/
def doTbDown (n : Fin 4) (s : State) : State :=
  let b := tbase s n
  if b.state = .disabling then
    carryEnable n b.held (endAwait (.tbDisable n) stOk (finalValue b) (event 0x10 n (finalValue b) (modTb n disableTb (dissolvePair n s))))
  else s

/-- A step of the value by `d` ns units of 2^-40 (R315). -/
def stepTb (n : Nat) (d : Int) (s : State) : State :=
  regate (n + 1) (event 0x11 n (leBytes 8 (BitVec.ofInt 64 (rneDiv d (2 ^ 40))).toNat)
    (modTb n (fun b => { b with value := (((b.value : Int) + d) % 2 ^ 104).toNat, stepped := true, steps := satInc b.steps }) s))

/-- TB_STEP (R317). -/
def effTbStep (m : Cmd) (s : State) : State × Reply :=
  let n := argN m.c 0 1
  checked (descChecks false false m ++ [(decide (3 < n), stTbRange), ((tbase s n).state != .free, stTbState)]) s
    (okay (stepTb n (s64 (argBytes m.c) 8 * 2 ^ 40) s))

/-- TB_PAIR (R326). -/
def effTbPair (m : Cmd) (s : State) : State × Reply :=
  let p := argN m.c 0 1
  let q := argN m.c 1 1
  let a := tbase s p
  let b := tbase s q
  checked (descChecks false false m ++ [(decide (3 < p) || decide (3 < q ∧ q ≠ 255), stTbRange)]) s
    (if q = 255 then okay (dissolvePair p s)
     else checked [(decide (p = q ∨ a.state = .disabled ∨ b.state = .disabled ∨ a.source = 0 ∨ b.source = 0
        ∨ (a.partner ≠ none ∧ a.partner ≠ some q) ∨ (b.partner ≠ none ∧ b.partner ≠ some p)
        ∨ (a.source = b.source ∧ a.domain = b.domain ∧ a.ports = b.ports)), stPairInvalid)] s
      (okay (modTb p (fun x => { x with partner := some q, standby := false })
        (modTb q (fun x => { x with partner := some p, standby := true }) s))))

/-- A write of TBU_TB_RATE: taken in FREE, clamped to ±500 ppm (R309, R317). -/
def writeRate (n : Nat) (v : W32) (s : State) : State :=
  if (tbase s n).state = .free then
    let r := clampI (-549755813) 549755813 v.toInt
    modTb n (fun b => { b with rate := r, ratePpb := r * 10 ^ 9 * 2 ^ 8 }) s
  else s

/-- `x / (k τ)` for τ = 2^log s, with x in 2^-16 ns and the quotient in 2^-48 ppb (R313; k a power of two given as its log). -/
def servoTerm (x : Int) (kLog log : Int) : Int := x * 2 ^ (32 - kLog - log).toNat

/-- R313 without the step: the servo's new integ and rate for measurement `o` (2^-16 ns). -/
def servo (o : Int) (log : Int) (b : TBase) : TBase :=
  let integ := b.integ - servoTerm o 6 log
  let want := clampI (-500000 * 2 ^ 48) (500000 * 2 ^ 48) (integ - servoTerm o 2 log)
  let lim : Int := (b.cfg.slew : Int) * 2 ^ (48 + log).toNat
  let ppb := b.ratePpb + clampI (-lim) lim (want - b.ratePpb)
  { b with integ := integ, ratePpb := ppb, rate := rneDiv ppb (10 ^ 9 * 2 ^ 8) }

/-- R314: the counts of four, and the state after a measurement processed in the state before it. -/
def servoState (o : Int) (b : TBase) : TBase :=
  let small := decide (o.natAbs < b.cfg.lockNs * 2 ^ 16)
  let large := decide (b.cfg.stepLimit * 2 ^ 16 ≤ o.natAbs)
  let b := if small then { b with converging := false } else b
  match b.state with
  | .acquiring =>
    let n := if small then b.lockRun + 1 else 0
    if 4 ≤ n then { b with state := .locked, lockRun := 0, unlockRun := 0 } else { b with lockRun := n }
  | .locked =>
    let n := if large && !b.converging then b.unlockRun + 1 else 0
    if 4 ≤ n then { b with state := .acquiring, lockRun := 0, unlockRun := 0 } else { b with unlockRun := n }
  | _ => b

/-- One offset measurement `o` (2^-16 ns) from the master (R313 to R315). -/
def measure (n : Nat) (o : Int) (port : Nat) (log : Int) (s : State) : State :=
  let s := modTb n (fun b =>
    let b := { b with offset := clampI (-2 ^ 31) (2 ^ 31 - 1) (rneDiv o (2 ^ 16)), slavePort := some port }
    if b.state = .holdover then { b with state := .acquiring, lockRun := 0, unlockRun := 0 } else b) s
  let b := tbase s n
  if b.state = .acquiring ∧ b.cfg.stepLimit * 2 ^ 16 ≤ o.natAbs then
    stepTb n (-o * 2 ^ 24) (modTb n (fun b => { b with integ := b.ratePpb, lockRun := 0 }) s)
  else modTb n (fun b => servoState o (servo o log b)) s

/-- R327: the switch-over of primary `p` to its LOCKED standby `q`; `lost` says the primary's master is lost. -/
def switchOver (p q : Nat) (lost : Bool) (s : State) : State :=
  let a := tbase s p
  let b := tbase s q
  event 0x12 p [BitVec.ofNat 8 q]
    (modTb q (fun x => { x with
        source := a.source, domain := a.domain, ports := a.ports, master := if lost then none else a.master,
        slavePort := if lost then none else a.slavePort, lastSync := a.lastSync, pathDelay := a.pathDelay, syncDiff := none,
        twoStep := none, delayReq := none, state := if lost then .holdover else .acquiring, lockRun := 0, unlockRun := 0,
        switched := true })
      (modTb p (fun x => { x with
        source := b.source, domain := b.domain, ports := b.ports, master := b.master, slavePort := b.slavePort,
        lastSync := b.lastSync, pathDelay := b.pathDelay, syncDiff := none, twoStep := none, delayReq := none,
        integ := b.ratePpb, state := .locked, converging := true, lockRun := 0, unlockRun := 0, switched := true,
        switches := satInc x.switches }) s))

/-- R316, R326: the master of a time base is lost. -/
def loseMaster (n : Nat) (s : State) : State :=
  let b := tbase s n
  let hold (t : State) : State := modTb n (fun x => { x with state := .holdover, slavePort := none, converging := false }) t
  match b.partner with
  | some q =>
    if b.standby then hold s
    else if (tbase s q).state = .locked then switchOver n q true s
    else hold (modTb n (fun x => { x with switchBlocked := true }) s)
  | none => hold s

/-- MASTER_LOST (R316): no valid Sync for 1.25 sync intervals. -/
def doMasterLost (n : Fin 4) (s : State) : State :=
  let b := tbase s n
  match b.master, b.lastSync with
  | some ma, some l =>
    if (b.state = .acquiring ∨ b.state = .locked) ∧ 1250000000 ≤ (s.lt - l) * 2 ^ (-ma.logSync).toNat then loseMaster n s else s
  | _, _ => s

/-- TB_ENABLE, 0x0501 (R310). -/
def execTbEnable (c : CmdIn) (s : State) : Host.Outcome State Fault Refusal := finish s (submit 0x0501 effTbEnable c s)
/-- TB_DISABLE, 0x0502 (R311). -/
def execTbDisable (c : CmdIn) (s : State) : Host.Outcome State Fault Refusal := finish s (submit 0x0502 effTbDisable c s)
/-- TB_DISABLE_COMPLETE (R311). -/
def execTbDisableComplete (tb : Fin 4) (s : State) : Host.Outcome State Fault Refusal := finish s (doTbDown tb s)
/-- TB_STEP, 0x0503 (R317). -/
def execTbStep (c : CmdIn) (s : State) : Host.Outcome State Fault Refusal := finish s (submit 0x0503 effTbStep c s)
/-- TB_PAIR, 0x0504 (R326). -/
def execTbPair (c : CmdIn) (s : State) : Host.Outcome State Fault Refusal := finish s (submit 0x0504 effTbPair c s)
/-- MASTER_LOST (R316). -/
def execMasterLost (tb : Fin 4) (s : State) : Host.Outcome State Fault Refusal := finish s (doMasterLost tb s)

end Sys2Proof.Machine
end

