-- ==== Sys2Proof/Machine/Ptp.lean ====
section
/-! DEFINITION. PTP and gPTP messages of the time bases, and the latch of R330 (R313, R322 to R330). -/
namespace Sys2Proof.Machine

/-- The device's clock identity: its MAC address with FFFE inserted (PRESUMED, IEEE 802.1AS; log entry 22). -/
def ownClock (s : State) : W64 :=
  let m := s.net.cfg.mac
  ((m &&& 0xFFFFFF).setWidth 64) ||| (0xFFFE000000 : W64) ||| ((m >>> 24).setWidth 64 <<< 40)

/-- A time base runs on a port for a message's domain and profile. -/
def tbHears (b : TBase) (m : PtpIn) : Bool :=
  b.running && b.state != .disabling && b.source != 0 && b.domain == m.domain.toNat && b.ports.getLsbD m.port.val && (b.source == 4) == m.gptp

/-- The time base that runs a message's domain on its port. -/
def hearer (s : State) (m : PtpIn) : Option Nat := (List.range 4).find? (fun k => tbHears (tbase s k) m)

/-- A message is counted in PTP_IGNORED: another version, too short, an unsupported interval, or a port identity of the
device's own (R329). -/
def ptpIgnored (s : State) (timed : Bool) (m : PtpIn) : Bool :=
  m.version != 2 || m.short || (timed && decide (m.logInterval < -7 ∨ 0 < m.logInterval)) || m.clock == ownClock s

/-- Count a message in PTP_IGNORED. -/
def countIgnored (s : State) : State := { s with time := { s.time with ignored := satInc s.time.ignored } }

/-- The master a time base follows sent this message. -/
def fromMaster (b : TBase) (m : PtpIn) : Bool :=
  match b.master with
  | some ma => ma.ann.msg.clock == m.clock && ma.ann.msg.portNo == m.portNo && ma.ann.msg.port == m.port
  | none => false

/-- The mean path delay that a measurement uses, 2^-16 ns (R313): the port's neighbour delay, or the end-to-end delay. -/
def meanDelay (s : State) (b : TBase) (p : Nat) : Int :=
  if b.source = 2 then b.pathDelay else ((s.time.ports.get p).delay).getD 0

/-- DELAY_ASYM of a port (R322). -/
def asymOf (s : State) (p : Nat) : Int := (s.net.ports.get p).cfg.asym

/-- A measurement from the master's time `t` (origin and corrections) at the time-base value `v` of the Sync's ingress. -/
def syncMeasure (n : Nat) (m : PtpIn) (v t : Int) (s : State) : State :=
  let b := tbase s n
  let log := match b.master with | some ma => ma.logSync | none => 0
  measure n (v - (t + asymOf s m.port.val + meanDelay s b m.port.val)) m.port.val log
    (modTb n (fun b => { b with syncDiff := some (t + asymOf s m.port.val - v), twoStep := none }) s)

/-- PTP_SYNC_RECEIVED (R313): one-step measures now; two-step waits for its Follow_Up. -/
def doSync (m : PtpIn) (s : State) : State :=
  match hearer s m with
  | none => s
  | some n =>
    if ptpIgnored s true m then countIgnored s
    else if fromMaster (tbase s n) m && ((tbase s n).state != .free) then
      let v := stampTo s (tbase s n) m.ingress
      let s1 := modTb n (fun b => { b with
        lastSync := some s.lt, master := b.master.map (fun ma => { ma with logSync := m.logInterval }) }) s
      if m.twoStep then modTb n (fun b => { b with twoStep := some (m.seqId, v, m.corr) }) s1
      else syncMeasure n m v (m.stamp + m.corr) s1
    else s

/-- PTP_FOLLOW_UP_RECEIVED (R313). -/
def doFollowUp (m : PtpIn) (s : State) : State :=
  match hearer s m with
  | none => s
  | some n =>
    if ptpIgnored s false m then countIgnored s
    else
      match (tbase s n).twoStep with
      | some (q, v, c) => if fromMaster (tbase s n) m && q == m.seqId then syncMeasure n m v (m.stamp + m.corr + c) s else s
      | none => s

/-- The data set comparison of the BMCA: a smaller list is better (R329). -/
def rank (a : AnnounceIn) : List Nat :=
  [a.prio1.toNat, a.cls.toNat, a.acc.toNat, a.var.toNat, a.prio2.toNat, a.gm.toNat, a.steps.toNat, a.msg.clock.toNat, a.msg.portNo.toNat]

/-- Lexicographic order on numbers. -/
def lexLt : List Nat → List Nat → Bool
  | [], [] => false
  | [], _ => true
  | _, [] => false
  | a :: as, b :: bs => if a < b then true else if b < a then false else lexLt as bs

/-- The time base's own data set. -/
def ownRank (s : State) (b : TBase) : List Nat :=
  [b.cfg.prio1.toNat, b.cfg.cls.toNat, 0xFE, 0xFFFF, b.cfg.prio2.toNat, (ownClock s).toNat, 0, (ownClock s).toNat, 0]

/-- The time base follows the sender of an Announce. -/
def follow (n : Nat) (a : AnnounceIn) (s : State) : State :=
  modTb n (fun b => { b with
    master := some ⟨a, match b.master with | some ma => ma.logSync | none => 0⟩, slavePort := some a.msg.port.val,
    state := if b.state = .free then .acquiring else b.state, lockRun := if b.state = .free then 0 else b.lockRun,
    lastSync := if fromMaster b a.msg then b.lastSync else some s.lt }) s

/-- The BMCA's outcome for an accepted Announce: follow its sender when it is the present master, or better than it or the present
master is lost, and better than the time base itself; become grandmaster when the time base may be and is better than all it knows (R329). -/
def bmca (n : Nat) (a : AnnounceIn) (s : State) : State :=
  let b := tbase s n
  let better := match b.master with
    | some ma => fromMaster b a.msg || b.state == .holdover || lexLt (rank a) (rank ma.ann)
    | none => true
  if !better then s
  else if b.cfg.cls != 255 && lexLt (ownRank s b) (rank a) then
    modTb n (fun b => { b with state := .free, master := none, slavePort := none, converging := false }) s
  else follow n a s

/-- PTP_ANNOUNCE_RECEIVED (R327, R329): a change of grandmaster at the primary of a pair triggers a switch-over. -/
def doAnnounce (a : AnnounceIn) (s : State) : State :=
  match hearer s a.msg with
  | none => s
  | some n =>
    if ptpIgnored s false a.msg then countIgnored s
    else
      let b := tbase s n
      match b.partner, b.master with
      | some q, some ma =>
        if !b.standby && a.gm != ma.ann.gm then
          if (tbase s q).state = .locked then switchOver n q false s
          else bmca n a (modTb n (fun b => { b with switchBlocked := true }) s)
        else bmca n a s
      | _, _ => bmca n a s

/-- PTP_DELAY_RESP_RECEIVED (R313): the mean path delay of an end-to-end slave. -/
def doDelayResp (m : PtpIn) (s : State) : State :=
  match hearer s m with
  | none => s
  | some n =>
    if ptpIgnored s false m then countIgnored s
    else
      match (tbase s n).delayReq, (tbase s n).syncDiff with
      | some (q, t3), some d =>
        if (tbase s n).source == 2 && m.forUs && q == m.seqId && fromMaster (tbase s n) m then
          modTb n (fun b => { b with delayReq := none, pathDelay := rneDiv (-d + ((m.stamp : Int) - m.corr - t3)) 2 }) s
        else s
      | _, _ => s

/-- A port measures neighbour delay: a running time base uses a peer mechanism on it (R313, R324). -/
def measuresNeighbour (s : State) (p : Nat) : Bool :=
  (List.range 4).any (fun k => (tbase s k).running && (tbase s k).state != .disabling && decide (3 ≤ (tbase s k).source) && (tbase s k).ports.getLsbD p)

/-- Send a PTP message of the device (R323): event messages carry the egress time. -/
def sendPtp (kind p : Nat) (dom : Nat) (seq : W16) (stamp : Nat) (corr : Int) (s : State) : State :=
  emit (.ptp kind p (BitVec.ofNat 8 dom) seq stamp corr) s

/-- PTP_PDELAY_REQ_RECEIVED (R323): a one-step Pdelay_Resp with the turnaround in correctionField. -/
def doPdelayReq (m : PtpIn) (s : State) : State :=
  if measuresNeighbour s m.port.val && (port s m.port.val).state == .up then
    if ptpIgnored s false m then countIgnored s
    else sendPtp 3 m.port.val m.domain.toNat m.seqId 0 (m.corr + ((s.lt : Int) * 2 ^ 16 - m.ingress)) s
  else s

/-- PTP_PDELAY_REQ_TX (R313). -/
def doPdelayReqTx (p : Fin 16) (s : State) : State :=
  if measuresNeighbour s p && (port s p).state == .up then
    let q := s.time.ports.get p.val
    sendPtp 2 p 0 q.seqId s.lt 0 { s with time := { s.time with
      ports := s.time.ports.set p.val { q with req := some (q.seqId, (s.lt : Int) * 2 ^ 16), seqId := q.seqId + 1 } } }
  else s

/-- PTP_PDELAY_RESP_RECEIVED (R313): the neighbour delay of a port from a one-step answer. -/
def doPdelayResp (m : PtpIn) (s : State) : State :=
  if measuresNeighbour s m.port.val then
    if ptpIgnored s false m then countIgnored s
    else
      match (s.time.ports.get m.port.val).req with
      | some (q, t1) =>
        if m.forUs && q == m.seqId && !m.twoStep then
          { s with time := { s.time with ports := s.time.ports.mod m.port.val (fun x =>
            { x with req := none, delay := some (rneDiv ((m.ingress : Int) - t1 - m.corr) 2) }) } }
        else s
      | none => s
  else s

/-- A time base is master on a port: grandmaster, or following a master on another port. -/
def masterOn (s : State) (n p : Nat) : Bool :=
  let b := tbase s n
  b.source != 0 && b.ports.getLsbD p && (port s p).state == .up
    && (b.state == .free || (b.slavePort.isSome && b.slavePort != some p && (b.state == .acquiring || b.state == .locked)))

/-- The next sequence number of a time base is used. -/
def nextSeq (n : Nat) (s : State) : State := modTb n (fun b => { b with seqId := b.seqId + 1 }) s

/-- The visible fraction of a time base, 2^-16 ns. -/
def fracOf (b : TBase) : Nat := b.value / 2 ^ 24 % 2 ^ 16

/-- PTP_SYNC_TX (R323): one-step, the egress time in originTimestamp and its fraction in correctionField. -/
def doSyncTx (n : Fin 4) (p : Fin 16) (s : State) : State :=
  if masterOn s n p then
    let b := tbase s n
    sendPtp 0 p b.domain b.seqId (b.value / 2 ^ 40) (fracOf b) (nextSeq n s)
  else s

/-- PTP_ANNOUNCE_TX (R329). -/
def doAnnounceTx (n : Fin 4) (p : Fin 16) (s : State) : State :=
  if masterOn s n p then sendPtp 11 p (tbase s n).domain (tbase s n).seqId 0 0 (nextSeq n s) else s

/-- PTP_DELAY_REQ_RECEIVED (R329): answered by an end-to-end master with its receive time. -/
def doDelayReq (m : PtpIn) (s : State) : State :=
  match hearer s m with
  | none => s
  | some n =>
    if ptpIgnored s false m then countIgnored s
    else if (tbase s n).source == 2 && masterOn s n m.port.val then
      sendPtp 9 m.port.val m.domain.toNat m.seqId (stampTo s (tbase s n) m.ingress).toNat m.corr s
    else s

/-- PTP_DELAY_REQ_TX (R313): an end-to-end slave's request on its slave port. -/
def doDelayReqTx (n : Fin 4) (p : Fin 16) (s : State) : State :=
  let b := tbase s n
  if b.source == 2 && b.slavePort == some p.val && (b.state == .acquiring || b.state == .locked) && (port s p).state == .up then
    sendPtp 1 p b.domain b.seqId 0 0 (nextSeq n (modTb n (fun b => { b with delayReq := some (b.seqId, (b.value / 2 ^ 24 : Nat)) }) s))
  else s

/-- An interval that Signaling asks for is taken when it is in the supported range (R329). -/
def takeInterval (old new : Int) : Int := if -7 ≤ new ∧ new ≤ 0 then new else old

/-- PTP_SIGNALING_RECEIVED (R329): gPTP interval requests. -/
def doSignaling (m : PtpIn) (ls la lp : Int) (s : State) : State :=
  match hearer s m with
  | none => s
  | some n =>
    if ptpIgnored s false m then countIgnored s
    else if (tbase s n).source == 4 then
      let s1 := modTb n (fun b => { b with logSync := takeInterval b.logSync ls, logAnnounce := takeInterval b.logAnnounce la }) s
      { s1 with time := { s1.time with ports := s1.time.ports.mod m.port.val (fun x => { x with logPdelay := takeInterval x.logPdelay lp }) } }
    else s

/-- The latch of R330: LT and the four time bases in one cycle. -/
def latchTimes (s : State) : State :=
  { s with time := { s.time with latchLt := s.lt, latchTb := (List.range 4).map (fun k => (tbase s k).value) } }

/-- LT_LATCH_READ (R330, R515): a read of TBU_LT_LO. -/
def doLtLatch (s : State) : State :=
  if ready s && !s.mbx.perst then emit (.pcieRead [BitVec.ofNat 32 s.lt]) (latchTimes s) else s

/-- PTP_SYNC_RECEIVED (R313). -/
def execPtpSyncReceived (m : PtpIn) (s : State) : Host.Outcome State Fault Refusal := finish s (doSync m s)
/-- PTP_FOLLOW_UP_RECEIVED (R313). -/
def execPtpFollowUpReceived (m : PtpIn) (s : State) : Host.Outcome State Fault Refusal := finish s (doFollowUp m s)
/-- PTP_ANNOUNCE_RECEIVED (R327). -/
def execPtpAnnounceReceived (a : AnnounceIn) (s : State) : Host.Outcome State Fault Refusal := finish s (doAnnounce a s)
/-- PTP_DELAY_RESP_RECEIVED (R313). -/
def execPtpDelayRespReceived (m : PtpIn) (s : State) : Host.Outcome State Fault Refusal := finish s (doDelayResp m s)
/-- PTP_PDELAY_REQ_RECEIVED (R323). -/
def execPtpPdelayReqReceived (m : PtpIn) (s : State) : Host.Outcome State Fault Refusal := finish s (doPdelayReq m s)
/-- PTP_PDELAY_REQ_TX (R313). -/
def execPtpPdelayReqTx (p : Fin 16) (s : State) : Host.Outcome State Fault Refusal := finish s (doPdelayReqTx p s)
/-- PTP_PDELAY_RESP_RECEIVED (R313). -/
def execPtpPdelayRespReceived (m : PtpIn) (s : State) : Host.Outcome State Fault Refusal := finish s (doPdelayResp m s)
/-- PTP_SYNC_TX (R323). -/
def execPtpSyncTx (tb : Fin 4) (p : Fin 16) (s : State) : Host.Outcome State Fault Refusal := finish s (doSyncTx tb p s)
/-- PTP_ANNOUNCE_TX (R329). -/
def execPtpAnnounceTx (tb : Fin 4) (p : Fin 16) (s : State) : Host.Outcome State Fault Refusal := finish s (doAnnounceTx tb p s)
/-- PTP_DELAY_REQ_RECEIVED (R329). -/
def execPtpDelayReqReceived (m : PtpIn) (s : State) : Host.Outcome State Fault Refusal := finish s (doDelayReq m s)
/-- PTP_DELAY_REQ_TX (R313). -/
def execPtpDelayReqTx (tb : Fin 4) (p : Fin 16) (s : State) : Host.Outcome State Fault Refusal := finish s (doDelayReqTx tb p s)
/-- PTP_SIGNALING_RECEIVED (R329). -/
def execPtpSignalingReceived (m : PtpIn) (ls la lp : Int) (s : State) : Host.Outcome State Fault Refusal := finish s (doSignaling m ls la lp s)
/-- LT_LATCH_READ (R330). -/
def execLtLatchRead (s : State) : Host.Outcome State Fault Refusal := finish s (doLtLatch s)

end Sys2Proof.Machine
end

