-- ==== Sys2Proof/Machine/Net.lean ====
section
/-! DEFINITION. Ports and the TSN switch: configuration, states, transit frames (R331 to R346). -/
namespace Sys2Proof.Machine

/-- A PORT_SET entry (Table 15-3). -/
def parsePort (bs : List Byte) : PortCfg :=
  { mode := u8 bs 0, fec := u8 bs 1, flags := byteAt bs 2, express := byteAt bs 3, mtu := u16 bs 4, pvid := u16 bs 6,
    asym := s32 bs 8, hold := u16 bs 12, addFrag := u8 bs 14, ptpTc := u8 bs 15 }

/-- The addresses of a PORT_SET header (Table 15-2). -/
def parseNet (bs : List Byte) : NetCfg :=
  { mac := BitVec.ofNat 48 (fieldN bs 0 6), udp := BitVec.ofNat 16 (u16 bs 6), ipv4 := BitVec.ofNat 32 (u32 bs 8),
    ipv6 := BitVec.ofNat 128 (fieldN bs 12 16), vlan := BitVec.ofNat 16 (u16 bs 28) }

/-- The 16 entries of a PORT_SET record. -/
def portEntries (bs : List Byte) : List (List Byte) := chunks 32 16 (bs.drop 64)

/-- The FEC choices of a mode (Table 15-1). -/
def fecOk (mode fec : Nat) : Bool :=
  match mode with
  | 0 => decide (fec ≤ 2)
  | 1 => fec == 0
  | 2 => decide (fec ≤ 1)
  | 3 => decide (fec ≤ 2)
  | _ => fec == 2

/-- A field of an entry is outside Table 15-3. -/
def portEntryBad (bs : List Byte) : Bool :=
  let c := parsePort bs
  decide (8 < c.mode ∨ 31 < c.flags.toNat ∨ c.mtu < 1518 ∨ 9216 < c.mtu ∨ c.pvid < 1 ∨ 4094 < c.pvid ∨ 10000 < c.hold
    ∨ 3 < c.addFrag ∨ 7 < c.ptpTc) || !fecOk c.mode c.fec || !zeroAt bs 16 16

/-- R334: PORT_RANGE. -/
def portSetBad (bs : List Byte) : Bool :=
  let es := portEntries bs
  (byteAt bs 0).getLsbD 0 || decide (u16 bs 28 < 1 ∨ 4094 < u16 bs 28 ∨ 1 < u8 bs 30) || !zeroAt bs 31 33
  || es.any portEntryBad || decide (1 < (es.filter (fun e => (parsePort e).flags.getLsbD 2)).length)

/-- Lanes of a mode (Table 15-1). -/
def modeLanes : Nat → Nat
  | 0 => 0 | 5 => 4 | 6 => 4 | 7 => 2 | 8 => 4 | _ => 1

/-- R17, R332: PORT_LANES. -/
def lanesBad (cs : List PortCfg) : Bool :=
  decide (32 < (cs.map (fun c => modeLanes c.mode)).foldl (· + ·) 0)
  || (List.range 8).any (fun g =>
      let a := cs.getD (2 * g) {}
      let b := cs.getD (2 * g + 1) {}
      modeLanes b.mode == 4 || (modeLanes a.mode == 4 && b.mode != 0))

/-- A port's shut-down begins (R335): queued frames are discarded and counted. -/
def shutPort (byPartner : Bool) (p : Nat) (s : State) : State :=
  modPort p (fun q =>
    if q.state = .disabled ∨ q.state = .downing then { q with byPartner := q.byPartner && byPartner }
    else { q with state := .downing, byPartner := byPartner, linkChanged := q.linkChanged || q.state == .up,
                  preemptActive := false, holding := false, drops := satPlus q.drops ((q.queue.map (fun x => (itemSizes x.2).length)).foldl (· + ·) 0), queue := [] }) s

/-- A DISABLED port with a mode starts training (R335). -/
def startPort (p : Nat) (s : State) : State :=
  modPort p (fun q => if q.state = .disabled ∧ q.cfg.mode ≠ 0 then { q with state := .training } else q) s

/-- PORT_SET's new entry for a port (R334). -/
def applyEntry (p : Nat) (c : PortCfg) (s : State) : State :=
  let q := port s p
  if q.cfg = c ∧ q.restart = none then s
  else if q.state = .disabled then startPort p (modPort p (fun q => { q with cfg := c }) s)
  else shutPort false p (modPort p (fun q => { q with restart := some c }) s)

/-- The ports whose entries a PORT_SET changes (R334). -/
def changedPorts (cs : List PortCfg) (s : State) : Nat :=
  ((List.range 16).filter (fun p => (port s p).cfg != cs.getD p {} || (port s p).restart.isSome)).foldl (fun a p => a + 2 ^ p) 0

/-- Write an item to the nonvolatile store: it takes the place of the copy kept when the write completes (R288, R344). -/
def storeLater (kind index : Nat) (bs : List Byte) (s : State) : State :=
  modPwr (fun w => { w with nv := { w.nv with pendingWrites := w.nv.pendingWrites ++ [(kind, index, bs)] } }) s

/-- The ports of a mask that are shutting down. -/
def downingMask (s : State) (mask : Nat) : Nat :=
  ((List.range 16).filter (fun p => mask.testBit p && (port s p).state == .downing)).foldl (fun a p => a + 2 ^ p) 0

/-- Complete now, or when the shut-downs of a mask end (R334, R335). -/
def afterPorts (mask : Nat) (s : State) : State × Reply :=
  if downingMask s mask = 0 then okay s else (s, .held (.ports (BitVec.ofNat 16 (downingMask s mask))) false)

/-- PORT_SET (R334). -/
def effPortSet (m : Cmd) (s : State) : State × Reply :=
  let bs := inRec s m
  let cs := (portEntries bs).map parsePort
  checked (descChecks false false m ++ inChecks m none 576 ++ [(portSetBad bs, stPortRange), (lanesBad cs, stPortLanes)]) s
    (let s1 := modNet (fun n => { n with cfg := parseNet bs }) s
     let s2 := forAll cs.zipIdx (fun e t => applyEntry e.2 e.1 t) s1
     let s3 := if (byteAt bs 30).getLsbD 0 then storeLater 5 0 bs s2 else s2
     afterPorts (changedPorts cs s) s3)

/-- PORT_ENABLE (R335). -/
def effPortEnable (m : Cmd) (s : State) : State × Reply :=
  checked (descChecks false false m) s
    (okay (forAll (bitsOf (argN m.c 0 2) 16) (fun p t =>
      if (port t p).state = .downing then modPort p (fun q => { q with enableHeld := true }) t else startPort p t) s))

/-- PORT_DISABLE (R335). -/
def effPortDisable (m : Cmd) (s : State) : State × Reply :=
  checked (descChecks false false m) s
    (afterPorts (argN m.c 0 2) (forAll (bitsOf (argN m.c 0 2) 16) (shutPort false) s))

/-- The commands that wait for ports no longer wait for port `p`; those that wait for none complete (R334, R335). -/
def portDone (p : Nat) (s : State) : State :=
  endRuns (fun r => r.await == .ports 0) stOk []
    (modMbx (fun b => { b with running := b.running.map (fun r =>
      match r.await with
      | .ports mk => { r with await := .ports (mk &&& ~~~((1#16) <<< p)) }
      | _ => r) }) s)

/-- PORT_SHUTDOWN_COMPLETE (R335): PORT_DOWN is recorded; a link the partner dropped, a restart and a held enable train. -/
def doPortDown (p : Fin 16) (s : State) : State :=
  let q := port s p
  if q.state = .downing then
    let s1 := event 0x20 p [BitVec.ofNat 8 (b2n q.byPartner)] s
    let s2 := modPort p (fun x => { x with
      state := .disabled, byPartner := false, restart := none, enableHeld := false, cfg := q.restart.getD q.cfg }) s1
    portDone p (if q.byPartner || q.enableHeld || q.restart.isSome then startPort p s2 else s2)
  else s

/-- PORT_UP (R333): training ends. -/
def doPortUp (p : Fin 16) (s : State) : State :=
  if (port s p).state = .training then
    modPort p (fun q => { q with state := .up, linkChanged := true, preemptActive := q.cfg.flags.getLsbD 3 && !q.cfg.flags.getLsbD 4 }) s
  else s

/-- PORT_LINK_LOST (R335): the partner drops the link. -/
def doPortLost (p : Fin 16) (s : State) : State := if (port s p).state = .up then shutPort true p s else s

/-- PREEMPT_VERIFY_DONE (R342). -/
def doVerify (p : Fin 16) (ok : Bool) (s : State) : State :=
  let q := port s p
  if q.state = .up ∧ q.cfg.flags.getLsbD 3 = true ∧ q.cfg.flags.getLsbD 4 = true then modPort p (fun q => { q with preemptActive := ok }) s else s

/-- A gate control list (Table 15-5). -/
def parseGates (bs : List Byte) : GateList :=
  { tb := u8 bs 1, fallback := byteAt bs 2, base := u64 bs 8, cycle := u32 bs 16,
    entries := (chunks 8 (u16 bs 4) (bs.drop 24)).map (fun e => (byteAt e 0, u32 e 4)) }

/-- R340: a field out of range, or intervals that do not sum to CYCLE_TIME. -/
def gatesBad (bs : List Byte) : Bool :=
  let g := parseGates bs
  decide (15 < u8 bs 0 ∨ 4 < g.tb ∨ 1 < u8 bs 3 ∨ u16 bs 4 < 1 ∨ 256 < u16 bs 4 ∨ g.cycle < 1000 ∨ 1000000000 < g.cycle)
  || !zeroAt bs 6 2 || !zeroAt bs 20 4
  || (chunks 8 (u16 bs 4) (bs.drop 24)).any (fun e => !zeroAt e 1 3 || decide (u32 e 4 < 100))
  || (g.entries.map Prod.snd).foldl (· + ·) 0 != g.cycle

/-- GATE_SET (R340). -/
def effGateSet (m : Cmd) (s : State) : State × Reply :=
  let bs := inRec s m
  checked (descChecks false false m ++ inChecks m none (24 + 8 * u16 bs 4) ++ [(gatesBad bs, stTsnRange)]) s
    (let s1 := modPort (u8 bs 0) (fun q => { q with gateNext := some (parseGates bs, s.lt) }) s
     okay (if (byteAt bs 3).getLsbD 0 then storeLater 5 (1 + u8 bs 0) bs s1 else s1))

/-- Entries of a STREAM_SET kind (Table 15-6). -/
def streamCount : Nat → Nat
  | 0 => 512 | 1 => 64 | 2 => 256 | 3 => 128 | _ => 256

/-- Entry numbers of a kind in use. -/
def streamUsed (s : State) : Nat → List Nat
  | 0 => s.net.filters.map Prod.fst
  | 1 => s.net.sgates.map Prod.fst
  | 2 => s.net.meters.map Prod.fst
  | 3 => s.net.gens.map Prod.fst
  | _ => s.net.recs.map Prod.fst

/-- Bytes of a STREAM_SET record, header included (the packing of the fields of Table 15-6 is the model's, log entry 23). -/
def streamSize (bs : List Byte) : Nat :=
  match u8 bs 0 with
  | 0 => 32
  | 1 => 32 + 8 * u16 bs 10
  | _ => 24

/-- A stream identification in 10 bytes: kind, reserved, VLAN, MAC (log entry 23). -/
def parseStream (bs : List Byte) : StreamId := ⟨u8 bs 0, BitVec.ofNat 48 (fieldN bs 4 6), u16 bs 2⟩

/-- A field of the entry is out of range (Table 15-6). -/
def streamEntryBad (kind : Nat) (e : List Byte) : Bool :=
  let idBad := decide (1 < u8 e 0 ∨ u16 e 2 < 1 ∨ 4094 < u16 e 2)
  match kind with
  | 0 => decide (u16 e 8 < 1 ∨ 4094 < u16 e 8 ∨ (7 < u8 e 10 ∧ u8 e 10 ≠ 255) ∨ 1 < u8 e 11 ∨ u16 e 12 < 64 ∨ 9216 < u16 e 12
      ∨ (63 < u16 e 14 ∧ u16 e 14 ≠ 0xFFFF) ∨ (255 < u16 e 16 ∧ u16 e 16 ≠ 0xFFFF)) || !zeroAt e 18 6
  | 1 => decide (4 < u8 e 0 ∨ u16 e 2 < 1 ∨ 64 < u16 e 2 ∨ u32 e 16 < 1000 ∨ 1000000000 < u32 e 16) || !zeroAt e 1 1 || !zeroAt e 4 4
      || !zeroAt e 20 4 || (chunks 8 (u16 e 2) (e.drop 24)).any (fun x => decide (1 < u8 x 0 ∨ u32 x 4 < 100) || !zeroAt x 1 3)
      || ((chunks 8 (u16 e 2) (e.drop 24)).map (fun x => u32 x 4)).foldl (· + ·) 0 != u32 e 16
  | 2 => decide (400000000 < u32 e 0 ∨ 400000000 < u32 e 4 ∨ 16777215 < u32 e 8 ∨ 16777215 < u32 e 12)
  | 3 => idBad || decide (15 < u8 e 10 ∨ 15 < u8 e 11) || !zeroAt e 1 1 || !zeroAt e 12 4
  | _ => idBad || decide (u8 e 1 < 1 ∨ 32 < u8 e 1 ∨ u16 e 10 < 1 ∨ 1000 < u16 e 10) || !zeroAt e 12 4

/-- Write or delete an entry of the stream tables (R344). -/
def writeStream (kind i : Nat) (del : Bool) (e : List Byte) (now : Nat) (n : Net) : Net :=
  match kind with
  | 0 => { n with filters := if del then n.filters.del i else n.filters.set i (
      { ports := BitVec.ofNat 16 (u16 e 0), mac := BitVec.ofNat 48 (fieldN e 2 6), vlan := u16 e 8, pcp := u8 e 10, maxSdu := u16 e 12,
         blockOversize := u8 e 11 == 1, gate := u16 e 14, meter := u16 e 16 }) }
  | 1 => { n with sgates := if del then n.sgates.del i else n.sgates.set i (
      { tb := u8 e 0, base := u64 e 8, cycle := u32 e 16,
         entries := (chunks 8 (u16 e 2) (e.drop 24)).map (fun x => (u8 x 0 == 1, u32 x 4)) }) }
  | 2 => { n with meters := if del then n.meters.del i else n.meters.set i (
      { cir := u32 e 0, eir := u32 e 4, cbs := u32 e 8, ebs := u32 e 12, c := u32 e 8 * 8000000, e := u32 e 12 * 8000000, at' := now }) }
  | 3 => { n with gens := if del then n.gens.del i else n.gens.set i (
      { id := parseStream e, p0 := u8 e 10, p1 := u8 e 11 }) }
  | _ => { n with recs := if del then n.recs.del i else n.recs.set i (
      { id := parseStream (e.set 1 0), history := u8 e 1, resetMs := u16 e 10 }) }

/-- STREAM_SET (R344). -/
def effStreamSet (m : Cmd) (s : State) : State × Reply :=
  let bs := inRec s m
  let kind := u8 bs 0
  let del := (byteAt bs 1).getLsbD 1
  let ix := u16 bs 2
  let free := (List.range (streamCount kind)).find? (fun i => !(streamUsed s kind).contains i)
  let size := if kind ≤ 4 ∧ !del then streamSize bs else max 8 (lenOf m)
  checked (descChecks false false m ++ inChecks m none size ++
      [(decide (4 < kind ∨ (streamCount kind ≤ ix ∧ (ix ≠ 0xFFFF ∨ del = true)) ∨ 3 < u8 bs 1) || !zeroAt bs 4 4
          || (!del && streamEntryBad kind (bs.drop 8)), stTsnRange),
       (ix == 0xFFFF && free.isNone, stTsnFull)]) s
    (let i := if ix = 0xFFFF then free.getD 0 else ix
     let s1 := modNet (writeStream kind i del (bs.drop 8) s.lt) s
     let s2 := if (byteAt bs 1).getLsbD 0 then storeLater 5 (32 + kind * 1024 + i) (if del then [] else bs) s1 else s1
     (s2, .done stOk (leBytes 2 i)))

/-- SWITCH_CORE_START (R336): the stored configuration is applied; gate lists run their fallback gates. -/
def startSwitch (s : State) : State :=
  let st := s.net.store
  let s1 := match st.ports with
    | none => s
    | some (c, ps) => forAll ps.zipIdx (fun e t => startPort e.2 (modPort e.2 (fun q => { q with cfg := e.1 }) t)) (modNet (fun n => { n with cfg := c }) s)
  let s2 := forAll st.gates (fun e t => modPort e.1 (fun q => { q with gate := some e.2, gatePos := none }) t) s1
  forAll st.streams (fun e t => modNet (writeStream (e.1 / 1024) (e.1 % 1024) false (e.2.drop 8) t.lt) t) s2

/-- SWITCH_CORE_START: the switch core begins after the main die is powered (R336, Table 15-4). -/
def doSwitchStart (s : State) : State :=
  if s.pwr.stage = .mainOn then startSwitch (modPwr (fun w => { w with stage := .switchOn }) s) else s

/-- A stream is identified (R346): null identification by destination MAC, or by source MAC, and VLAN. -/
def StreamId.hit (i : StreamId) (e : EthIn) (vid : Nat) : Bool := (i.mac == if i.kind = 0 then e.dst else e.src) && i.vlan == vid

/-- The first stream filter, in entry order, whose keys a frame meets (R345). -/
def filterOf (s : State) (e : EthIn) (vid : Nat) : Option (Nat × StreamFilter) :=
  s.net.filters.find? (fun x => x.2.ports.getLsbD e.port.val && x.2.mac == e.dst && x.2.vlan == vid && (x.2.pcp == 255 || x.2.pcp == e.pcp.val))

/-- A stream gate is open now; a gate whose clock cannot run is open (DEDUCED, log entry 24). -/
def gateOpen (s : State) (i : Nat) : Bool :=
  match s.net.sgates.get? i with
  | none => true
  | some g =>
    if gateClock s g.tb then
      let es := g.entries.map (fun e => ((if e.1 then 1#8 else 0#8), e.2))
      (g.entries.getD (entryAt es ((clockNow s g.tb - g.base) % (g.cycle : Int)).toNat) (true, 0)).1
    else true

/-- A flow meter after refilling to LT `now` (colour-blind, coupling off): buckets in bits · 10^6. -/
def Meter.refill (k : Meter) (now : Nat) : Meter :=
  { k with c := min (k.cbs * 8000000) (k.c + k.cir * (now - k.at')), e := min (k.ebs * 8000000) (k.e + k.eir * (now - k.at')), at' := now }

/-- Colour of a frame of `n` bytes: 0 green, 1 yellow, 2 red, with the buckets after it. -/
def Meter.mark (k : Meter) (n : Nat) : Nat × Meter :=
  if n * 8000000 ≤ k.c then (0, { k with c := k.c - n * 8000000 })
  else if n * 8000000 ≤ k.e then (1, { k with e := k.e - n * 8000000 })
  else (2, k)

/-- R345: filtering of an ingress frame: the frame to go on with, if it passes, and the switch after it. -/
def qci (e : EthIn) (vid : Nat) (s : State) : Option EthIn × State :=
  match filterOf s e vid with
  | none => (some e, s)
  | some (i, f) =>
    let dropQ (t : State) : State := modNet (fun n => { n with qciDropped := satInc n.qciDropped }) t
    if f.closed then (none, dropQ s)
    else if f.maxSdu < e.size then
      (none, dropQ (modNet (fun n => { n with filters := n.filters.set i { f with closed := f.blockOversize } }) s))
    else if f.gate ≠ 0xFFFF ∧ gateOpen s f.gate = false then (none, dropQ s)
    else if f.meter = 0xFFFF then (some e, s)
    else
      match s.net.meters.get? f.meter with
      | none => (some e, s)
      | some k =>
        let r := (k.refill s.lt).mark e.size
        let s1 := modNet (fun n => { n with meters := n.meters.set f.meter r.2 }) s
        if r.1 = 2 then (none, dropQ s1) else (some { e with dei := e.dei || r.1 == 1 }, s1)

/-- R338: learn the source of a frame; an entry is added while there are fewer than 16,384. -/
def learn (mac : BitVec 48) (vid : BitVec 12) (p : Nat) (now : Nat) : List Fdb → List Fdb → List Fdb
  | done, [] => if done.length < 16384 then (⟨mac, vid, p, false, now⟩ :: done).reverse else done.reverse
  | done, x :: xs =>
    if x.mac = mac ∧ x.vid = vid then (done.reverse ++ (if x.static then x else { x with port := p, seen := now }) :: xs)
    else learn mac vid p now (x :: done) xs

/-- The ports a frame goes out on: the known port, or every UP port but the ingress one (R338). -/
def egressOf (s : State) (dst : BitVec 48) (vid : BitVec 12) (ingress : Option Nat) : List Nat :=
  let known := s.net.fdb.find? (fun x => x.mac == dst && x.vid == vid)
  let up := (List.range 16).filter (fun p => (port s p).state == .up && ingress != some p)
  match known with
  | some x => if dst.getLsbD 0 then up else up.filter (· == x.port)
  | none => up

/-- R324: the correction a transit event message gets as it passes. -/
def transitCorr (s : State) (e : EthIn) (x : PtpTransit) : Int :=
  let follows := (List.range 4).find? (fun k => (tbase s k).running && (tbase s k).source != 0 && (tbase s k).domain == x.domain.toNat)
  let rate := match follows with | some k => (tbase s k).rate | none => 0
  let link := if x.kind = 0 ∧ measuresNeighbour s e.port.val = true then ((s.time.ports.get e.port.val).delay).getD 0 else 0
  min 0x7FFFFFFFFFFFFFFF (x.corr + rneDiv ((e.residence : Int) * (2 ^ 40 + rate)) (2 ^ 40) + link)

/-- A time base runs the message's domain on the ingress port: relayed, not corrected (R324). -/
def runsDomain (s : State) (e : EthIn) (x : PtpTransit) : Bool :=
  (List.range 4).any (fun k => (tbase s k).running && (tbase s k).source != 0 && (tbase s k).domain == x.domain.toNat && (tbase s k).ports.getLsbD e.port.val)

/-- Transparent correction of a transit frame (R324, R325). -/
def correct (e : EthIn) (s : State) : EthIn × State :=
  match e.ptp with
  | none => (e, s)
  | some x =>
    if !x.parsed then (e, { s with time := { s.time with unparsed := satInc s.time.unparsed } })
    else if runsDomain s e x then (e, s)
    else ({ e with ptp := some { x with corr := transitCorr s e x } }, s)

/-- The vector recovery algorithm of IEEE 802.1CB for one sequence number: accepted or not, and the entry after it (R346). -/
def SeqRec.take (r : SeqRec) (q : W16) : Bool × SeqRec :=
  match r.newest with
  | none => (true, { r with newest := some q, seen := [q] })
  | some n =>
    let d := (q - n).toInt
    if r.seen.contains q then (false, r)
    else if 0 < d then (true, { r with newest := some q, seen := q :: r.seen.filter (fun x => decide ((q - x).toInt < r.history)) })
    else if -(r.history : Int) < d then (true, { r with seen := q :: r.seen })
    else (false, r)

/-- Redundancy of a transit frame (R346): a generation entry tags it and names its two ports. -/
def generate (e : EthIn) (vid : Nat) (s : State) : Option (EthIn × List Nat × State) :=
  match s.net.gens.find? (fun x => x.2.id.hit e vid) with
  | none => none
  | some (i, g) =>
    some ({ e with rtag := some g.seq }, [g.p0, g.p1], modNet (fun n => { n with gens := n.gens.set i { g with seq := g.seq + 1 } }) s)

/-- Sequence recovery of a frame addressed to the device (R346): whether it goes on to IP1, and the switch after it. -/
def recover (e : EthIn) (vid : Nat) (s : State) : Bool × State :=
  match e.rtag, s.net.recs.find? (fun x => x.2.id.hit e vid) with
  | some q, some (i, r) =>
    let x := r.take q
    let s1 := modNet (fun n => { n with recs := n.recs.set i x.2 }) s
    if x.1 then (true, s1) else (false, modNet (fun n => { n with cbDiscarded := satInc n.cbDiscarded }) s1)
  | _, _ => (true, s)

/-- Drop a frame silently (Table 15-10). -/
def dropYsp (s : State) : State := modNet (fun n => { n with yspDropped := satInc n.yspDropped }) s

/-- VLAN of a frame (Table 15-3): its tag's, or the port's PVID. -/
def vidOf (s : State) (e : EthIn) : BitVec 12 := if e.vid = 0 then BitVec.ofNat 12 (port s e.port.val).cfg.pvid else e.vid

/-- A frame enters by an UP port (R338, R345): dropped for its FCS or length, filtered, its source learned. -/
def ingress (e : EthIn) (s : State) : Option EthIn × State :=
  if e.fcsBad || decide ((port s e.port.val).cfg.mtu < e.size) then
    (none, modPort e.port.val (fun q => { q with drops := satInc q.drops }) s)
  else
    let vid := vidOf s e
    let r := qci e vid.toNat s
    match r.1 with
    | none => r
    | some f => (some f, modNet (fun n => { n with fdb := if e.src.getLsbD 0 then n.fdb else learn e.src vid e.port.val s.lt [] n.fdb }) r.2)

/-- The Ethernet frame that bears a YSP or mailbox frame (R339). -/
def frameEth (s : State) (f : FrameIn) : EthIn :=
  { port := f.src.port, dst := s.net.cfg.mac, src := f.src.mac, vid := s.net.cfg.vlan.setWidth 12, pcp := Fin.ofNat 8 f.src.pcp.toNat,
    size := f.size, rtag := f.src.rtag, toDevice := true }

/-- A frame addressed to the device on its way to the internal ports (R338, R345, R346). -/
def arrive (f : FrameIn) (body : State → State) (s : State) : State :=
  if switchOn s && (port s f.src.port.val).state == .up then
    let r := ingress (frameEth s f) s
    match r.1 with
    | none => r.2
    | some e => let q := recover e (vidOf s e).toNat r.2; if q.1 then body q.2 else q.2
  else s

/-- A frame addressed to the device that no other row admits (R339). -/
def toDevice (e : EthIn) (s : State) : State := if (port s e.port.val).cfg.flags.getLsbD 1 then s else dropYsp s

/-- FEC codewords of a port are counted (Tables 15-11 and 15-12). -/
def countFec (e : EthIn) (s : State) : State :=
  modPort e.port.val (fun q => { q with
    fecCorr := satPlus q.fecCorr e.fecCorr, fecUncorr := satPlus q.fecUncorr e.fecUncorr, fecSeen := q.fecSeen || decide (0 < e.fecUncorr) }) s

/-- Forward a frame that passed the filters (R324, R338, R346). -/
def forwardFrame (e : EthIn) (vid : BitVec 12) (s : State) : State :=
  let r := correct e s
  match generate r.1 vid.toNat r.2 with
  | some (f, ps, t) => forAll ps (fun p u => enqueue p f.pcp.val (.transit f) u) t
  | none => forAll (egressOf r.2 e.dst vid (some e.port.val)) (fun p u => enqueue p e.pcp.val (.transit r.1) u) r.2

/-- TRANSIT_FRAME (R338, R339, R345). -/
def doTransit (e : EthIn) (s : State) : State :=
  if switchOn s && (port s e.port.val).state == .up then
    let r := ingress e (countFec e s)
    match r.1 with
    | none => r.2
    | some f =>
      if e.toDevice then
        let q := recover f (vidOf s e).toNat r.2
        if q.1 then toDevice f q.2 else q.2
      else forwardFrame f (vidOf s e) r.2
  else s

/-- FDB_AGEING (R338): a learned entry not seen for 300 s is removed. -/
def doAgeing (mac : BitVec 48) (vid : BitVec 12) (s : State) : State :=
  modNet (fun n => { n with fdb := n.fdb.filter (fun x =>
    !(x.mac == mac && x.vid == vid && !x.static && decide (x.seen + 300000000000 ≤ s.lt))) }) s

/-- SEQUENCE_RECOVERY_RESET (R346). -/
def doSeqReset (i : Fin 256) (s : State) : State :=
  match s.net.recs.get? i.val with
  | none => s
  | some r => modNet (fun n => { n with recs := n.recs.set i.val { r with newest := none, seen := [] } }) s

/-- PORT_SET, 0x0510 (R334). -/
def execPortSet (c : CmdIn) (s : State) : Host.Outcome State Fault Refusal := finish s (submit 0x0510 effPortSet c s)
/-- PORT_ENABLE, 0x0511 (R335). -/
def execPortEnable (c : CmdIn) (s : State) : Host.Outcome State Fault Refusal := finish s (submit 0x0511 effPortEnable c s)
/-- PORT_DISABLE, 0x0512 (R335). -/
def execPortDisable (c : CmdIn) (s : State) : Host.Outcome State Fault Refusal := finish s (submit 0x0512 effPortDisable c s)
/-- PORT_SHUTDOWN_COMPLETE (R335). -/
def execPortShutdownComplete (p : Fin 16) (s : State) : Host.Outcome State Fault Refusal := finish s (doPortDown p s)
/-- GATE_SET, 0x0514 (R340). -/
def execGateSet (c : CmdIn) (s : State) : Host.Outcome State Fault Refusal := finish s (submit 0x0514 effGateSet c s)
/-- STREAM_SET, 0x0515 (R344). -/
def execStreamSet (c : CmdIn) (s : State) : Host.Outcome State Fault Refusal := finish s (submit 0x0515 effStreamSet c s)
/-- PORT_UP (R333). -/
def execPortUp (p : Fin 16) (s : State) : Host.Outcome State Fault Refusal := finish s (doPortUp p s)
/-- PORT_LINK_LOST (R335). -/
def execPortLinkLost (p : Fin 16) (s : State) : Host.Outcome State Fault Refusal := finish s (doPortLost p s)
/-- PREEMPT_VERIFY_DONE (R342). -/
def execPreemptVerifyDone (p : Fin 16) (ok : Bool) (s : State) : Host.Outcome State Fault Refusal := finish s (doVerify p ok s)
/-- SWITCH_CORE_START (R336). -/
def execSwitchCoreStart (s : State) : Host.Outcome State Fault Refusal := finish s (doSwitchStart s)
/-- TRANSIT_FRAME (R338). -/
def execTransitFrame (e : EthIn) (s : State) : Host.Outcome State Fault Refusal := finish s (doTransit e s)
/-- FDB_AGEING (R338). -/
def execFdbAgeing (mac : BitVec 48) (vid : BitVec 12) (s : State) : Host.Outcome State Fault Refusal := finish s (doAgeing mac vid s)
/-- SEQUENCE_RECOVERY_RESET (R346). -/
def execSequenceRecoveryReset (i : Fin 256) (s : State) : Host.Outcome State Fault Refusal := finish s (doSeqReset i s)

end Sys2Proof.Machine
end

