-- ==== Sys2Proof/Machine/Leases.lean ====
section
/-! DEFINITION. Clients and leases: frames to clients, resets, lease operations, expiry and circles (R337, R348 to R351, R428 to
R434). -/
namespace Sys2Proof.Machine

/-- A YSP frame of the device: header of Table 15-7 and payload. -/
def yspFrame (type client seq : Nat) (payload : List Byte) : List Byte :=
  leBytes 2 0x5359 ++ leBytes 1 1 ++ leBytes 1 type ++ leBytes 1 client ++ leBytes 1 0 ++ leBytes 2 payload.length
  ++ leBytes 4 seq ++ zeros 4 ++ payload

/-- The addresses of a client (R348), with the PCP of frames sent to it and the device's own (R352). -/
def clientDst (s : State) (c : Client) : NetSrc :=
  addressed s { port := 0, mac := c.mac, transport := c.transport, ip := if c.transport = .raw then 0 else c.ip,
                udp := if c.transport = .raw then 0 else c.udp, pcp := c.pcp }

/-- Send a frame to a client; nothing for a client without an entry (R343, R348). -/
def toClient (c type : Nat) (payload : List Byte) (s : State) : State :=
  let e := s.clients.get c
  if e.used then
    emit (.frame (clientDst s e) (yspFrame type c e.outSeq.toNat payload)) { s with clients := s.clients.set c { e with outSeq := e.outSeq + 1 } }
  else s

/-- A STATUS payload (Table 15-8). -/
def statusPayload (type : Nat) (st : Status) (seq : W32) (problem groupSeq : Nat) (commitSeq : W64) : List Byte :=
  leBytes 1 type ++ zeros 1 ++ wBytes 2 st ++ wBytes 4 seq ++ leBytes 2 problem ++ leBytes 2 groupSeq ++ zeros 4 ++ wBytes 8 commitSeq

/-- A refusal STATUS, at most one per client in any 1 ms (R351). The fields of Table 15-8 that the refusal does not settle, COMMIT_SEQ
and the PROBLEM or GROUP_SEQ that the frame does not give, are free (log entry 1). -/
def refuse (c type : Nat) (st : Status) (seq : W32) (problem groupSeq : Option Nat) (s : State) : State :=
  let e := s.clients.get c
  if !e.used then s
  else if rateOk e.lastStatus s.lt 1000000 then
    let d := drawN 2 s
    let x := d.1.getD 0 0
    toClient c 0x81 (statusPayload type st seq (problem.getD (x.setWidth 16).toNat) (groupSeq.getD ((x >>> 16).setWidth 16).toNat) (d.1.getD 1 0))
      { d.2 with clients := d.2.clients.set c { e with lastStatus := some s.lt } }
  else modNet (fun n => { n with statusSupp := satInc n.statusSupp }) s

/-- A LEASE payload (Table 15-8). -/
def leasePayload (op lease : Nat) (epoch : W32) (dur pf pc : Nat) : List Byte :=
  leBytes 1 op ++ zeros 1 ++ leBytes 2 lease ++ wBytes 4 epoch ++ leBytes 4 dur ++ leBytes 2 pf ++ leBytes 2 pc

/-- Send a LEASE_ACK. -/
def leaseAck (c : Nat) (payload : List Byte) (st : Status) (s : State) : State := toClient c 0x84 (payload ++ wBytes 2 st ++ zeros 6) s

/-- A lease. -/
def lease (s : State) (l : Nat) : Lease := s.leases.get l
/-- Change a lease. -/
def modLease (l : Nat) (f : Lease → Lease) (s : State) : State := { s with leases := s.leases.mod l f }

/-- A lease's payload as it stands. -/
def leaseNow (op l : Nat) (x : Lease) : List Byte := leasePayload op l x.epoch x.duration x.first x.count

/-- The next epoch: the previous plus 1, skipping 0 (R428). -/
def nextEpoch (e : W32) : W32 := if e + 1 = 0 then 1 else e + 1

/-- A lease becomes FREE; its open groups are discarded and its waiters stay queued (R430, R434). -/
def freeLease (l : Nat) (s : State) : State :=
  dropLeaseGroups l (modLease l (fun x => { epoch := x.epoch, waiters := x.waiters }) s)

/-- Grant a lease to a client (R428). -/
def grant (l : Nat) (w : Waiter) (s : State) : State :=
  modLease l (fun x => { x with client := some w.client, epoch := nextEpoch x.epoch, granted := s.lt, expiry := s.lt + w.duration * 1000,
                                duration := w.duration, first := w.first, count := w.count }) s

/-- A lease expires: freed, recorded, its former owner told with a status (R430, R433, R434). -/
def expire (l : Nat) (st : Status) (code : Nat) (data : Byte → Lease → List Byte) (s : State) : State :=
  let x := lease s l
  match x.client with
  | none => s
  | some c => leaseAck c.toNat (leaseNow 2 l x) st (event code l (data c x) (freeLease l s))

/-- DATA of LEASE_EXPIRED. -/
def expiredData (how : Byte) (c : Byte) (x : Lease) : List Byte := [c, 0#8, 0#8, 0#8] ++ wBytes 4 x.epoch ++ [how]

/-- The lease test of R77 for a problem: held by the client with the epoch, covering the problem, not yet due to expire. -/
def leaseValid (s : State) (l : Nat) (c : Byte) (epoch : W32) (p : Nat) : Bool :=
  let x := lease s l
  decide (l < 512) && x.client == some c && x.epoch == epoch && decide (x.first ≤ p ∧ p < x.first + x.count) && decide (s.lt < x.expiry)

/-- R429: a frame that passed the lease test renews its lease. -/
def touchLease (l : Nat) (s : State) : State := modLease l (fun x => { x with expiry := s.lt + x.duration * 1000 }) s

/-- The leases a client holds. -/
def heldBy (s : State) (c : Byte) : List Nat := (s.leases.filter (fun e => e.2.client == some c)).map Prod.fst

/-- R432: a client is reset. -/
def resetClient (c : Byte) (cause : Byte) (s : State) : State :=
  let hs := heldBy s c
  let s1 := forAll hs freeLease s
  let s2 := { s1 with leases := s1.leases.map (fun e => (e.1, { e.2 with waiters := e.2.waiters.filter (fun w => w.client != c) })) }
  event 0x62 c.toNat ([cause, 0#8, 0#8, 0#8] ++ leBytes 2 hs.length) s2

/-- LEASE_REVOKE (R434). -/
def effLeaseRevoke (m : Cmd) (s : State) : State × Reply :=
  let l := argN m.c 0 2
  checked (descChecks false false m ++ [(decide (512 ≤ l), stLeaseRange)]) s (okay (expire l stLeaseRevoked 0x60 (expiredData 1) s))

/-- CLIENT_RESET (R432). -/
def effClientReset (m : Cmd) (s : State) : State × Reply :=
  checked (descChecks false false m) s (okay (resetClient (byteAt (argBytes m.c) 0) 2 s))

/-- Open groups under a lease. -/
def openUnder (s : State) (l : Nat) : Nat := (s.probs.map (fun e => (e.2.groups.filter (fun g => g.lease == l)).length)).foldl (· + ·) 0

/-- One entry of LEASE_TABLE_READ (R434). -/
def leaseEntry (s : State) (l : Nat) : List Byte :=
  let x := lease s l
  let wt := leBytes 1 (min 255 x.waiters.length)
  match x.client with
  | none => leBytes 2 l ++ [0#8, 0#8] ++ wBytes 4 x.epoch ++ zeros 20 ++ wt ++ zeros 3
  | some c => leBytes 2 l ++ [1#8, c] ++ wBytes 4 x.epoch ++ leBytes 8 x.granted ++ leBytes 8 x.expiry ++ leBytes 2 x.first ++ leBytes 2 x.count
      ++ wt ++ leBytes 1 (min 255 (openUnder s l)) ++ zeros 2

/-- LEASE_TABLE_READ (R434). -/
def effLeaseTable (m : Cmd) (s : State) : State × Reply :=
  checked (descChecks false false m ++ outChecks m 16384) s (putOut m ((List.range 512).flatMap (leaseEntry s)) s)

/-- CLIENT_SET (R348, R432). -/
def effClientSet (m : Cmd) (s : State) : State × Reply :=
  let a := argBytes m.c
  let c := u8 a 0
  let t := u8 a 1
  checked (descChecks false false m ++ [(decide ((2 < t ∧ t ≠ 255) ∨ 7 < u8 a 12), stClientRange)]) s
    (let e : Client := if t = 255 then {} else
       { used := true, transport := if t = 0 then .ipv4 else if t = 1 then .ipv6 else .raw, mac := BitVec.ofNat 48 (fieldN a 2 6),
         ip := if t = 0 then BitVec.ofNat 128 (u32 a 16) else BitVec.ofNat 128 (fieldN a 16 16), udp := BitVec.ofNat 16 (u16 a 8),
         portMask := BitVec.ofNat 16 (u16 a 10), pcp := byteAt a 12 }
     okay (resetClient (byteAt a 0) 1 { s with clients := s.clients.set c { e with outSeq := (s.clients.get c).outSeq, lastStatus := (s.clients.get c).lastStatus } }))

/-- The lowest FREE lease with no waiter (Table 18-13). -/
def lowestFree (s : State) : Option Nat := (List.range 512).find? (fun l => (lease s l).client.isNone && (lease s l).waiters.isEmpty)

/-- ACQUIRE after its checks (Table 18-13). -/
def acquire (c : Byte) (l : Nat) (w : Waiter) (pl : List Byte) (s : State) : State :=
  let ackGrant (k : Nat) (t : State) : State := leaseAck c.toNat (leaseNow 0 k (lease t k)) stOk t
  if l = 0xFFFF then
    match lowestFree s with
    | none => leaseAck c.toNat pl stLeaseFull s
    | some k => ackGrant k (grant k w s)
  else
    let x := lease s l
    if x.client = some c then
      ackGrant l (modLease l (fun x => { x with duration := w.duration, expiry := s.lt + w.duration * 1000, first := w.first, count := w.count }) s)
    else if x.client = none ∧ x.waiters = [] then ackGrant l (grant l w s)
    else if s.leases.any (fun e => e.2.waiters.any (fun v => v.client == c)) then leaseAck c.toNat pl stLeaseBusy s
    else leaseAck c.toNat pl stLeaseWaiting (modLease l (fun x => { x with waiters := x.waiters ++ [w] }) s)

/-- A LEASE operation of a client (R428): the checks in order, then the effect of Table 18-13. -/
def leaseOp (c : Byte) (pl : List Byte) (s : State) : State :=
  let op := u8 pl 0
  let l := u16 pl 2
  let epoch := BitVec.ofNat 32 (u32 pl 4)
  let w : Waiter := ⟨c, u32 pl 8, u16 pl 12, u16 pl 14⟩
  let x := lease s l
  let mine := decide (l < 512) && x.client == some c
  let waits := x.waiters.any (fun v => v.client == c)
  let held := mine && x.epoch == epoch && decide (s.lt < x.expiry)
  let durBad := decide (w.duration < 50 ∨ 10000000 < w.duration)
  match firstFail
      [(decide (2 < op), stLeaseRange),
       (decide (512 ≤ l ∧ (l ≠ 0xFFFF ∨ op ≠ 0)), stLeaseRange),
       ((match op with
         | 0 => mine && !held
         | 1 => !held
         | _ => !held && !(waits && !mine)), stLeaseInvalid),
       (decide (op < 2) && durBad, stLeaseRange),
       (op == 0 && decide (1024 < w.first + w.count ∨ w.count < 1), stLeaseRange)] with
  | some st => leaseAck c.toNat pl st s
  | none =>
    match op with
    | 0 => acquire c l w pl s
    | 1 =>
      let t := modLease l (fun x => { x with duration := w.duration, expiry := s.lt + w.duration * 1000 }) s
      leaseAck c.toNat (leaseNow 1 l (lease t l)) stOk t
    | _ =>
      if mine then leaseAck c.toNat (leaseNow 2 l x) stOk (freeLease l s)
      else leaseAck c.toNat pl stOk (modLease l (fun x => { x with waiters := x.waiters.filter (fun v => v.client != c) }) s)

/-- LEASE_EXPIRY (R430): LT has reached EXPIRY. -/
def doLeaseExpiry (l : Fin 512) (s : State) : State :=
  if (lease s l).client.isSome && decide ((lease s l).expiry ≤ s.lt) then expire l stLeaseExpired 0x60 (expiredData 0) s else s

/-- LEASE_WAITER_GRANT (R428): a freed ID goes to its first waiter. -/
def doWaiterGrant (l : Fin 512) (s : State) : State :=
  match (lease s l).client, (lease s l).waiters with
  | none, w :: ws =>
    let t := grant l w (modLease l (fun x => { x with waiters := ws }) s)
    leaseAck w.client.toNat (leaseNow 0 l (lease t l)) stOk t
  | _, _ => s

/-- The lease a client awaits. -/
def awaits (s : State) (c : Nat) : Option Nat :=
  (s.leases.find? (fun e => e.2.waiters.any (fun w => w.client.toNat == c))).map Prod.fst

/-- R433: the edge from a waiting client to the holder of the lease it awaits. -/
def waitEdge (s : State) (c : Nat) : Option Nat := ((awaits s c).bind (fun l => (lease s l).client)).map BitVec.toNat

/-- The circle through a client, if it closes within `n` edges: the clients on it. -/
def circleFrom (s : State) (start : Nat) : Nat → Nat → List Nat → Option (List Nat)
  | 0, _, _ => none
  | n + 1, c, acc =>
    match waitEdge s c with
    | none => none
    | some d => if d = start then some (c :: acc) else if (c :: acc).contains d then none else circleFrom s start n d (c :: acc)

/-- The lowest client on a circle, and the circle. -/
def findCircle (s : State) : Option (List Nat) := (List.range 256).findSome? (fun c => circleFrom s c 256 c [])

/-- The youngest lease on a circle: the latest GRANTED, on a tie the higher ID (R433). -/
def youngest (s : State) (cs : List Nat) : Option Nat :=
  ((cs.filterMap (awaits s)).foldl (fun b l =>
    match b with
    | none => some l
    | some k => if (lease s k).granted < (lease s l).granted ∨ ((lease s k).granted = (lease s l).granted ∧ k < l) then some l else b) none)

/-- LEASE_CYCLE_SNAPSHOT (R433): break circles until none is left. -/
def breakCircles : Nat → State → State
  | 0, s => s
  | n + 1, s =>
    match findCircle s with
    | none => s
    | some cs =>
      match youngest s cs with
      | none => s
      | some l => breakCircles n (expire l stLeaseCycle 0x61 (fun c x => [c, 0#8, 0#8, 0#8] ++ wBytes 4 x.epoch ++ leBytes 1 cs.length) s)

/-- R337: the switch core's NOT_READY to a YSP frame before full service, one per CLIENT value in any 10 ms. -/
def retryAfter (s : State) : Nat := if s.pwr.everFull then 100000 else max 10000 (1000000 - s.pwr.since / 1000)

/-- The answer of R337. -/
def notReadyYsp (f : FrameIn) (s : State) : State :=
  if rateOk (s.net.notReadyAt.get? f.client.toNat) s.lt 10000000 then
    emit (.frame (addressed s f.src) (yspFrame 0x83 f.client.toNat f.seq.toNat (leBytes 4 (retryAfter s) ++ zeros 4)))
      (modNet (fun n => { n with notReadyAt := n.notReadyAt.set f.client.toNat s.lt, notReadySent := satInc n.notReadySent }) s)
  else modNet (fun n => { n with notReadySupp := satInc n.notReadySupp }) s

/-- R348: a frame comes from its client's addresses. -/
def sourceOk (s : State) (f : FrameIn) : Bool :=
  let e := s.clients.get f.client.toNat
  e.used && e.mac == f.src.mac && e.transport == f.src.transport && e.portMask.getLsbD f.src.port.val
    && (e.transport == .raw || (e.ip == f.src.ip && e.udp == f.src.udp))

/-- A well-formed, accepted YSP frame after the checks of its header (R351), whose refusals name the frame. -/
def yspFront (type : Nat) (known : Bool) (size : Nat) (rsvd : Bool) (f : FrameIn) (body : State → State) (s : State) : State :=
  arrive f (fun s =>
    if !(port s f.src.port.val).cfg.flags.getLsbD 1 then dropYsp s
    else if f.runt || f.magic != 0x5359 || f.version != 1 then dropYsp s
    else if !full s then notReadyYsp f s
    else if !sourceOk s f then dropYsp s
    else
      let s1 := if f.seq = 0 then resetClient f.client 0 s else s
      match firstFail
          [(!known, stYspType),
           (decide (f.length.toNat ≠ f.payload.length ∨ f.length.toNat ≠ size), stYspLength),
           (decide (f.rsvd ≠ 0 ∨ 1 < f.flags.toNat) || (f.flags.getLsbD 0 && type != 1) || rsvd, stYspReserved)] with
      | some st => refuse f.client.toNat type st f.seq none none s1
      | none => body s1) s

/-- A LEASE frame of one of the three operations; the row gives OP where the payload holds one of them. -/
def doLeaseFrame (op : Byte) (f : FrameIn) (s : State) : State :=
  let pl := if u8 f.payload 0 ≤ 2 then f.payload.set 0 op else f.payload
  yspFront 4 true 16 (!zeroAt f.payload 1 1) f (leaseOp f.client pl) s

/-- YSP_UNKNOWN_TYPE (R351). -/
def doUnknownType (type : Byte) (f : FrameIn) (s : State) : State :=
  if 1 ≤ type.toNat ∧ type.toNat ≤ 4 then s else yspFront type.toNat false 0 false f id s

/-- LEASE_TABLE_READ, 0x0120 (R434). -/
def execLeaseTableRead (c : CmdIn) (s : State) : Host.Outcome State Fault Refusal := finish s (submit 0x0120 effLeaseTable c s)
/-- LEASE_REVOKE, 0x0121 (R434). -/
def execLeaseRevoke (c : CmdIn) (s : State) : Host.Outcome State Fault Refusal := finish s (submit 0x0121 effLeaseRevoke c s)
/-- CLIENT_RESET, 0x0122 (R432). -/
def execClientReset (c : CmdIn) (s : State) : Host.Outcome State Fault Refusal := finish s (submit 0x0122 effClientReset c s)
/-- CLIENT_SET, 0x0513 (R348). -/
def execClientSet (c : CmdIn) (s : State) : Host.Outcome State Fault Refusal := finish s (submit 0x0513 effClientSet c s)
/-- LEASE_ACQUIRE (R428). -/
def execLeaseAcquire (f : FrameIn) (s : State) : Host.Outcome State Fault Refusal := finish s (doLeaseFrame 0 f s)
/-- LEASE_RENEW (R428). -/
def execLeaseRenew (f : FrameIn) (s : State) : Host.Outcome State Fault Refusal := finish s (doLeaseFrame 1 f s)
/-- LEASE_RELEASE (R428). -/
def execLeaseRelease (f : FrameIn) (s : State) : Host.Outcome State Fault Refusal := finish s (doLeaseFrame 2 f s)
/-- LEASE_EXPIRY (R430). -/
def execLeaseExpiry (l : Fin 512) (s : State) : Host.Outcome State Fault Refusal := finish s (doLeaseExpiry l s)
/-- LEASE_WAITER_GRANT (R428). -/
def execLeaseWaiterGrant (l : Fin 512) (s : State) : Host.Outcome State Fault Refusal := finish s (doWaiterGrant l s)
/-- LEASE_CYCLE_SNAPSHOT (R433). -/
def execLeaseCycleSnapshot (s : State) : Host.Outcome State Fault Refusal := finish s (breakCircles 512 s)

end Sys2Proof.Machine
end

