-- ==== Sys2Proof/Machine/Flags.lean ====
section
/-! DEFINITION. The status word of a pour and its flags (R19 to R23). -/
namespace Sys2Proof.Machine

/-- CODE of a status word (Table 1-9, R19). -/
inductive Code where
  | solved | deadlineFeas | deadlineInfeas | iterLimit | cert | numeric | trap | shed | fault
deriving DecidableEq, Repr, Inhabited

/-- The number of a code. -/
def Code.num : Code → Nat
  | .solved => 0 | .deadlineFeas => 1 | .deadlineInfeas => 2 | .iterLimit => 3 | .cert => 4 | .numeric => 5 | .trap => 6 | .shed => 7 | .fault => 8

/-- What a steep's flags say when it pours. -/
structure PourFlags where
  /-- ROLLED_BACK -/
  rolledBack : Bool := false
  /-- WARM_MAPPED -/
  warmMapped : Bool := false
  /-- WARM_COLD -/
  warmCold : Bool := false
  /-- REUSED_PREVIOUS -/
  reused : Bool := false
  /-- RETRIED -/
  retried : Bool := false
  /-- DEGRADED -/
  degraded : Bool := false
  /-- FIXED_ORDER -/
  fixed : Bool := false
  /-- TWIN_CHECKED -/
  twin : Bool := false
deriving DecidableEq, Repr, Inhabited

/-- R19, R23: the status word of a pour: ROLLED_BACK only with codes 1 and 2; warm-start, RETRIED and DEGRADED bits with every
code but SHED; REUSED with SHED alone. -/
def statusWord (c : Code) (iterations : Nat) (f : PourFlags) : W32 :=
  let live := c != .shed
  let rb := f.rolledBack && (c == .deadlineFeas || c == .deadlineInfeas)
  BitVec.ofNat 32 (c.num + 256 * b2n rb + 512 * b2n (live && f.warmMapped) + 1024 * b2n (live && f.warmCold)
    + 2048 * b2n (live && f.retried) + 4096 * b2n (live && f.degraded) + 8192 * b2n (!live && f.reused) + 16384 * b2n f.fixed
    + 32768 * b2n f.twin + 65536 * min iterations 65535)

/-- CODE field of a status word. -/
def statusCode (w : W32) : Nat := w.toNat % 256

/-- The status word with bits 11 and 15 cleared, as the twin compares it (R369). -/
def twinMask (w : W32) : W32 := w &&& ~~~0x00008800#32

end Sys2Proof.Machine
end

