-- ==== Sys2Proof/Machine/Estimate.lean ====
section
/-! DEFINITION. Estimation problems: configuration, measurement samples, binding at a release, the feed, the estimator record
(R143 to R160). -/
namespace Sys2Proof.Machine

/-- Read an estimator configuration (Tables 6-1 and 6-2). -/
def parseEst (bs : List Byte) : EstCfg :=
  { grid := u32 bs 8, lag := u32 bs 0xC, tol := u32 bs 0x10, q := u32 bs 0x14, p0 := u32 bs 0x18, feed := u16 bs 0x1C,
    feedParam := u32 bs 0x20, feedStatus := u32 bs 0x24, sdMin := w64At bs 0x28, sdMax := w64At bs 0x30,
    alpha := w64At bs 0x38, beta := w64At bs 0x40, kappa := w64At bs 0x48,
    chans := (chunks 32 (u16 bs 2) (bs.drop 80)).map (fun e =>
      { chan := u8 e 0, source := u8 e 1, index := u8 e 2, y := u32 e 8, w := u32 e 0xC, sigma := w64At e 0x10, scale := w64At e 0x18 }) }

/-- The stage whose STATE variables the covariance covers (Table 6-1). -/
def covStage (im : Image) : Nat := if im.cls = 3 then 0 else 1
/-- n of Table 6-1. -/
def covN (im : Image) : Nat := (im.stateVars (covStage im)).length

/-- EST_RANGE of a configuration record (R144). -/
def estBad (im : Image) (bs : List Byte) : Bool :=
  let c := parseEst bs
  let n := covN im
  let ch (e : List Byte) : Bool :=
    decide (2 < u8 e 1 ∨ 7 < u8 e 2 ∨ (u8 e 1 = 0 ∧ (u8 e 2 ≠ 0 ∨ u64 e 0x18 ≠ 0)) ∨ im.nParams < u32 e 8 + im.nStages
      ∨ im.nParams < u32 e 0xC + im.nStages) || !zeroAt e 3 5 || !ltW 0 (w64At e 0x10)
  decide (c.chans.length < 1 ∨ 256 < c.chans.length) || !zeroAt bs 4 4 || !zeroAt bs 0x1E 2
  || (im.cls == 3 && decide (c.grid < 20000 ∨ 4000000000 < c.grid ∨ c.grid < 2 * c.tol))
  || (im.cls != 3 && decide (2000000000 < c.tol)) || decide (4000000000 < c.lag)
  || decide (im.nParams < c.q + n ∨ im.nParams < c.p0 + n ∨ (1023 < c.feed ∧ c.feed ≠ 0xFFFF))
  || !ltW 0 c.sdMin || !ltW c.sdMin c.sdMax
  || (if im.cls = 5 then !ltW 0 c.alpha || !leW c.alpha one64 || !leW 0 c.beta || !ltW (intW (-(n : Int))) c.kappa
      else c.alpha != 0 || c.beta != 0 || c.kappa != 0)
  || (chunks 32 (u16 bs 2) (bs.drop 80)).any ch || !(c.chans.map Chan.chan).Nodup

/-- The class of a problem's image, 0 when it has none. -/
def clsOf (p : Prob) : Nat := match p.im with | some im => im.cls | none => 0
/-- A problem of CLASS 3, 4 or 5. -/
def isEst (p : Prob) : Bool := decide (3 ≤ clsOf p)

/-- ESTIMATOR_SET (R144). -/
def effEstimatorSet (m : Cmd) (s : State) : State × Reply :=
  let bs := inRec s m
  let q := prob s (pOf m)
  checked (descChecks true false m ++ inChecks m (some (u16 bs 0)) (80 + 32 * u16 bs 2)
      ++ [(q.st == .empty, stNotLoaded), (q.st != .loaded, stProblemBusy), (!isEst q, stNotEstimator),
          (match q.im with | some im => estBad im bs | none => false, stEstRange)]) s
    (okay (modProb (pOf m) (fun q => { q with est := { cfg := some (parseEst bs) } }) s))

/-- Count on an estimator counter (Table 6-4): 0 ACCEPTED, 1 BOUND, 2 REFUSED, 3 REPLACED, 4 OVERFLOW, 5 LATE, 6 MISSING, 7 CLAMPED,
8 WITHHELD, 9 PRIOR_RESET. -/
def estCount (i n : Nat) (e : Est) : Est := { e with counts := bumpAt e.counts i n }

/-- A sample record that fails R148: another problem, a reserved field, a negative SIG, a non-finite VALUE or SIG. -/
def sampleBad (p : Nat) (r : List Byte) : Bool :=
  u16 r 0 != p || !zeroAt r 4 4 || ltW (w64At r 0x18) 0 || !isFin64 (w64At r 0x10) || !isFin64 (w64At r 0x18)

/-- Insert a sample in time order, after those of equal time. -/
def insSample (x : Sample) : List Sample → List Sample
  | [] => [x]
  | y :: t => if x.time < y.time then x :: y :: t else y :: insSample x t

/-- The oldest instant a release at `r` still covers (R149). -/
def windowStart (im : Image) (c : EstCfg) (r : Int) : Int :=
  r - c.lag - c.tol - (if im.cls = 3 then (im.nStages - 1) * c.grid else 0 : Nat)

/-- R149: store a sample whose time is in the problem's time base. -/
def storeSample (im : Image) (c : EstCfg) (next : Option Int) (x : Sample) (e : Est) : Est :=
  let e := estCount 0 1 e
  if (match next with | some r => decide (x.time < windowStart im c r) | none => false) then estCount 5 1 e
  else if e.samples.any (fun y => y.chan == x.chan && y.time == x.time) then
    estCount 3 1 { e with samples := e.samples.map (fun y => if y.chan = x.chan ∧ y.time = x.time then x else y) }
  else if e.samples.length < 4096 then { e with samples := insSample x e.samples }
  else
    match e.samples with
    | [] => e
    | o :: t => if x.time < o.time then estCount 4 1 e else estCount 4 1 { e with samples := insSample x t }

/-- The release the next sample counts for: known for a PERIODIC enabled problem. -/
def nextRelease (s : State) (p : Prob) : Option Int :=
  if p.st = .enabled ∧ p.sched.requested = false ∧ 0 < p.sched.period ∧ clockRuns s p.sched.tb = true then some (nextInstant s p) else none

/-- R148: take one sample record. -/
def takeSample (s : State) (q : Prob) (r : List Byte) : Prob :=
  match q.im, q.est.cfg with
  | some im, some c =>
    let stream := c.chans.any (fun x => x.chan == u8 r 2 && x.source == 0)
    let tb := u8 r 3
    let t := if tb ≤ 4 then convertTime s tb q.sched.tb (u64 r 8) else none
    match stream, t with
    | true, some t =>
      { q with est := storeSample im c (nextRelease s q) { chan := u8 r 2, time := t, value := w64At r 0x10, sig := w64At r 0x18 } q.est }
    | _, _ => { q with est := estCount 2 1 q.est }
  | _, _ => { q with est := estCount 2 1 q.est }

/-- Store an array of sample records of one problem. -/
def takeSamples (p : Nat) (rs : List (List Byte)) (s : State) : State := modProb p (fun q => rs.foldl (takeSample s) q) s

/-- MEASURE_PUT (R148). -/
def effMeasurePut (m : Cmd) (s : State) : State × Reply :=
  let n := lenOf m / 32
  let rs := chunks 32 n (inRec s m)
  checked (descChecks true false m
      ++ [(decide (lenOf m % 32 ≠ 0 ∨ n < 1 ∨ 4096 < n), stBadLength), (addrBad m m.c.addr (lenOf m), stBadAddress),
          ((prob s (pOf m)).st == .empty, stNotLoaded), (rs.any (sampleBad (pOf m)), stEstRange)]) s
    (okay (takeSamples (pOf m) rs s))

/-- The better of two candidates: smaller distance, then the later time (R150, R152). -/
def nearer (g : Int) (a : Option (Int × α)) (b : Int × α) : Option (Int × α) :=
  match a with
  | none => some b
  | some x =>
    let da := (x.1 - g).natAbs
    let db := (b.1 - g).natAbs
    if db < da ∨ (db = da ∧ x.1 < b.1) then some b else some x

/-- The stages of a channel's MEASUREMENT nodes, latest first (R150). -/
def chanStages (im : Image) (c : Nat) : List Nat :=
  ((im.stages.filter (fun st => (im.roleNodes st 4).any (fun n => n.1.roleIndex == c))).map StageRec.stage).reverse

/-- The grid instant of stage `k` for a release at `r` (R147). -/
def gridAt (im : Image) (c : EstCfg) (r : Int) (k : Nat) : Int :=
  if im.cls = 3 then r - c.lag - ((im.nStages - 1 - k) * c.grid : Nat) else r - c.lag

/-- 1 / SIG² in the problem's ROUND mode (R151, R216). -/
def weightOf (rd : Rnd) (sig : W64) : W64 := b64 (fdiv f64 rd one64.toNat (fmul f64 rd sig.toNat sig.toNat).v).v

/-- Bind one channel at one stage (R150 to R152): the parameters and the estimator after it; `used` are the samples already
bound in this steep, by channel and time (half nanoseconds for a field source). -/
def bindOne (s : State) (im : Image) (cfg : EstCfg) (tb : Nat) (r : Int) (ch : Chan) (k : Nat)
    (a : List W64 × Est × List (Nat × Int)) : List W64 × Est × List (Nat × Int) :=
  let g := gridAt im cfg r k
  let put (y w : W64) : List W64 := (a.1.set (ch.y + k) y).set (ch.w + k) w
  let miss := (put 0 0, estCount 6 1 a.2.1, a.2.2)
  if ch.source = 0 then
    let cands := a.2.1.samples.filter (fun x => x.chan == ch.chan && decide ((x.time - g).natAbs ≤ cfg.tol) && !a.2.2.contains (x.chan, x.time))
    match cands.foldl (fun b x => nearer g b (x.time, x)) none with
    | none => miss
    | some (_, x) =>
      (put x.value (weightOf im.rnd (if x.sig.toNat % f64.signBit = 0 then ch.sigma else x.sig)),
       estCount 1 1 { a.2.1 with samples := a.2.1.samples.map (fun y => if y.chan = x.chan ∧ y.time = x.time then { y with bound := true } else y) },
       (x.chan, x.time) :: a.2.2)
  else
    let h := if ch.source = 1 then (s.edge.ains.get ch.index).hist else (s.edge.pins.get ch.index).hist
    let cands := h.filterMap (fun x => x.1.bind (fun t => (convertTime s 0 tb t).bind (fun u => if (u - g).natAbs ≤ cfg.tol ∧ (ch.chan, u) ∉ a.2.2 then some (u, x.2) else none)))
    match cands.foldl (nearer g) none with
    | none => miss
    | some (u, v) => (put (b64 (fmul f64 im.rnd (intW v).toNat ch.scale.toNat).v) (weightOf im.rnd ch.sigma), estCount 1 1 a.2.1, (ch.chan, u) :: a.2.2)

/-- R149 to R152: binding at a release at instant `r` of the problem's time base. -/
def bindSamples (s : State) (r : Int) (q : Prob) : Prob :=
  match q.im, q.est.cfg with
  | some im, some c =>
    if im.cls < 3 then q
    else
      let old := q.est.samples.filter (fun x => decide (x.time < windowStart im c r))
      let e := estCount 5 (old.filter (fun x => !x.bound)).length
        { q.est with samples := q.est.samples.filter (fun x => !decide (x.time < windowStart im c r)) }
      let pairs := c.chans.flatMap (fun ch => (chanStages im ch.chan).map (fun k => (ch, k)))
      let res := pairs.foldl (fun a x => bindOne s im c q.sched.tb r x.1 x.2 a) (q.params, e, [])
      { q with params := res.1, est := res.2.1 }
  | _, _ => q

/-- diag of the initial standard deviations, lower triangle row by row (R153). -/
def initCov (q : Prob) : List W64 :=
  match q.im, q.est.cfg with
  | some im, some c => (List.range (covN im)).flatMap (fun i => (List.range (i + 1)).map (fun j => if i = j then q.params.getD (c.p0 + i) 0 else 0))
  | _, _ => []

/-- R154: clamp the diagonal of a factor to [SD_MIN, SD_MAX]: the factor and how many elements moved. -/
def clampCov (c : EstCfg) (n : Nat) (l : List W64) : List W64 × Nat :=
  let out (v : W64) : Bool := ltW v c.sdMin || ltW c.sdMax v
  let idx := (List.range n).map (fun i => i * (i + 1) / 2 + i)
  (l.zipIdx.map (fun (v, k) => if idx.contains k then (if ltW v c.sdMin then c.sdMin else if ltW c.sdMax v then c.sdMax else v) else v),
   (idx.filter (fun k => out (l.getD k 0))).length)

/-- Codes whose result an estimator hands on (R155, R159): SOLVED, DEADLINE_FEASIBLE, ITER_LIMIT. -/
def codeUsable (w : W32) : Bool := statusCode w == 0 || statusCode w == 1 || statusCode w == 3

/-- R159: the feed at a freeze of estimator `p` that poured `status` and `result`. -/
def feed (p : Nat) (status : W32) (result : List W64) (s : State) : State :=
  match (prob s p).est.cfg with
  | none => s
  | some c =>
    if c.feed = 0xFFFF ∨ clsOf (prob s p) < 3 then s
    else
      let withheld := modProb p (fun q => { q with est := estCount 8 1 q.est })
      let vals : List Entry := if codeUsable status then result.zipIdx.map (fun (v, i) => ⟨c.feedParam + i, 0, v⟩) else []
      let st : List Entry := if c.feedStatus = 0xFFFFFFFF then [] else [⟨c.feedStatus, 0, intW status.toNat⟩]
      let es := vals ++ st
      let s1 := if codeUsable status then s else withheld s
      if es.isEmpty then s1
      else if (prob s c.feed).st = .empty ∨ indexBad (prob s c.feed) es = true then withheld s1
      else (completeGroup c.feed es s1).1

/-- The estimator record (Table 6-4). -/
def estRecord (q : Prob) (im : Image) : List Byte :=
  let cov := match q.poured.bind Poured.it with
    | some it => it.cov
    | none => initCov q
  let n := if q.est.cfg.isSome then covN im else 0
  q.est.counts.flatMap (wBytes 8) ++ leBytes 4 n ++ leBytes 4 q.est.samples.length
  ++ ((List.range (n * (n + 1) / 2)).map (fun i => cov.getD i 0)).flatMap (wBytes 8)

/-- ESTIMATOR_READ (R160). -/
def effEstimatorRead (m : Cmd) (s : State) : State × Reply :=
  let q := prob s (pOf m)
  let bs := match q.im with | some im => estRecord q im | none => []
  checked (descChecks true false m ++ [(addrBad m m.c.addr (lenOf m), stBadAddress), (q.st == .empty, stNotLoaded), (!isEst q, stNotEstimator),
      (decide (lenOf m < bs.length), stBadLength)]) s
    (putOut m bs s)

/-- ESTIMATOR_SET, 0x0307 (R144). -/
def execEstimatorSet (c : CmdIn) (s : State) : Host.Outcome State Fault Refusal := finish s (submit 0x0307 effEstimatorSet c s)
/-- MEASURE_PUT, 0x0308 (R148). -/
def execMeasurePut (c : CmdIn) (s : State) : Host.Outcome State Fault Refusal := finish s (submit 0x0308 effMeasurePut c s)
/-- ESTIMATOR_READ, 0x0309 (R160). -/
def execEstimatorRead (c : CmdIn) (s : State) : Host.Outcome State Fault Refusal := finish s (submit 0x0309 effEstimatorRead c s)

end Sys2Proof.Machine
end

