-- ==== Sys2Proof/Machine/Sched.lean ====
section
/-! DEFINITION. Schedules, the strainer's admission test, resource sets, doubling and overload levels (R26, R38, R39, R44, R45,
R182, R385 to R391, R462). -/
namespace Sys2Proof.Machine

/-- A fraction: numerator and denominator. -/
abbrev Frac := Nat × Nat
/-- Sum of fractions. -/
def Frac.add (a b : Frac) : Frac := (a.1 * b.2 + b.1 * a.2, a.2 * b.2)
/-- Product of fractions. -/
def Frac.mul (a b : Frac) : Frac := (a.1 * b.1, a.2 * b.2)
/-- `a ≤ b`. -/
def Frac.le (a b : Frac) : Bool := decide (a.1 * b.2 ≤ b.1 * a.2)
/-- Sum of a list. -/
def Frac.sum (l : List Frac) : Frac := l.foldl Frac.add (0, 1)

/-- Read a schedule block (Table 18-10). -/
def parseSched (bs : List Byte) : Sched :=
  { requested := (u8 bs 27).testBit 0, tb := bitsN (u8 bs 27) 3 1, period := u32 bs 8, phase := u64 bs 0, deadline := u32 bs 12,
    budget := u32 bs 16, iterTime := u32 bs 20, limit := u16 bs 24, priority := u8 bs 26, policy := bitsN (u8 bs 27) 5 4,
    clusters := bitsN (u8 bs 28) 6 0, quadrants := bitsN (u8 bs 29) 2 0, pipes := bitsN (u8 bs 29) 6 3 }

/-- A reserved bit of the schedule block is not zero, or a value lies outside Table 2-3. -/
def schedBad (bs : List Byte) : Bool :=
  let c := parseSched bs
  decide (63 < u8 bs 27 ∨ 127 < u8 bs 28 ∨ 127 < u8 bs 29 ∨ u16 bs 30 ≠ 0 ∨ 4 < c.tb ∨ c.period < 20000 ∨ 4000000000 < c.period
    ∨ c.deadline < 5000 ∨ c.period < c.deadline ∨ c.budget < 1000 ∨ c.deadline < c.budget ∨ c.iterTime < 100 ∨ c.budget < c.iterTime
    ∨ (c.policy = 2 ∧ c.budget < 2 * c.iterTime) ∨ c.limit < 1 ∨ 2 < c.policy ∨ c.clusters < 1 ∨ 64 < c.clusters ∨ 4 < c.quadrants ∨ 8 < c.pipes)

/-- The method whose CLUSTERS range applies (R93). -/
def linMethod (im : Image) : Nat := if im.method = 5 ∨ im.method = 6 then im.qpMethod else im.method

/-- CLUSTERS lies in the range of Table 4-3. -/
def clustersOk (im : Image) (n : Nat) : Bool :=
  match linMethod im with
  | 1 => decide (2 ≤ n ∧ n ≤ 8)
  | 2 => decide (1 ≤ n ∧ n ≤ 16)
  | 4 => decide (1 ≤ n ∧ n ≤ 64)
  | _ => n == 1

/-- The image holds a JDU_OUT node. -/
def hasJdu (im : Image) : Bool := im.nodes.any (fun n => n.op == 0x40)
/-- The image holds a MODEL_OUT node. -/
def hasModel (im : Image) : Bool := im.nodes.any (fun n => n.op == 0x41)

/-- SCHED_RANGE that depends on the image (R93, R136, R145, R157, R172). -/
def schedImageBad (q : Prob) (c : Sched) : Bool :=
  match q.im with
  | none => false
  | some im =>
    !clustersOk im c.clusters || (hasJdu im && c.pipes == 0) || (hasModel im && c.quadrants == 0)
    || (isEst q && (match q.est.cfg with
        | none => true
        | some e => im.stages.any (fun st => (im.roleNodes st 4).any (fun n => !(e.chans.any (fun ch => ch.chan == n.1.roleIndex))))
            || (im.cls == 3 && (c.requested || e.grid != c.period)) || (im.cls == 5 && decide (1 < c.limit))))

/-- min(D, T). -/
def Sched.span (c : Sched) : Nat := min c.deadline c.period

/-- BUDGET and ITER_TIME are multiplied by 4 from a coolant loss until LIMP ends (R482). -/
def limpSched (s : State) (c : Sched) : Sched :=
  if s.faults.limp.isSome then { c with budget := 4 * c.budget, iterTime := 4 * c.iterTime } else c

/-- Budget at an overload level (Table 2-8), in whole nanoseconds, rounded down (log entry 143); 0 where the level uses no resource time. -/
def levelBudget (c : Sched) (level : Nat) : Nat :=
  if level = 0 then c.budget else if c.policy = 0 ∨ 4 ≤ level then 0 else c.budget / 2 ^ level
/-- Iteration limit at an overload level (Table 2-8). -/
def levelLimit (c : Sched) (level : Nat) : Nat :=
  if level = 0 then c.limit else if 4 ≤ level then 0 else max 1 (c.limit / 2 ^ level)
/-- The problem's top level (Table 2-8). -/
def topLevel (c : Sched) : Nat := if c.policy = 0 then 1 else 4

/-- The set of a problem (R39). -/
def setOf (s : State) (p : Nat) : Option Nat := (prob s p).set
/-- The problems of a set, ascending. -/
def probsOf (s : State) (k : Nat) : List Nat := (s.probs.filter (fun e => e.2.set == some k)).map Prod.fst
/-- A set. -/
def rset (s : State) (k : Nat) : RSet := s.sets.get k
/-- Change a set. -/
def modSet (k : Nat) (f : RSet → RSet) (s : State) : State := { s with sets := s.sets.mod k f }

/-- R38: the test in one set, for (budget, min(D, T), ITER_TIME) of its problems. -/
def setPasses (l : List (Nat × Nat × Nat)) : Bool :=
  let total := Frac.sum (l.map (fun x => (x.1, x.2.1)))
  (l.zipIdx.all (fun (x, i) =>
    let wait := ((l.zipIdx.filter (fun y => y.2 != i)).map (fun y => y.1.2.2)).foldl Nat.max 0
    Frac.le (Frac.add total (wait, x.2.1)) (9, 10)))

/-- The schedule, ITER_TIME and constraints of a problem in a search: the new problem's are given. -/
structure Cand where
  /-- problem -/
  id : Nat
  /-- schedule -/
  c : Sched
  /-- constraints -/
  place : Place
deriving DecidableEq, Repr, Inhabited

/-- A trial set: shape of its creator and its problems. -/
structure Trial where
  /-- clusters, quadrants, pipelines -/
  shape : Nat × Nat × Nat
  /-- problems -/
  ps : List Cand
deriving DecidableEq, Repr, Inhabited

/-- A quadrant that can take steep work: its vector engine and at least one of its tiles work (Table 1-6, R185). -/
def quadWorks (s : State) (q : Nat) : Bool := !fenced s 3 q && (List.range 32).any (fun t => !fenced s 2 (32 * q + t))
/-- A unit of a kind that sets are made of works: 0 cluster, 1 pipeline, 2 quadrant. -/
def unitWorks (s : State) (kind i : Nat) : Bool :=
  match kind with
  | 0 => !fenced s 0 i
  | 1 => !fenced s 1 i
  | _ => quadWorks s i
/-- Physical units of a kind. -/
def unitRange : Nat → Nat
  | 0 => 64 | 1 => 8 | _ => 4
/-- A problem's constraints allow a unit (R387). -/
def allows (pl : Place) (kind i : Nat) : Bool :=
  match kind with
  | 0 => pl.clusters.getLsbD i
  | 1 => pl.pipes.getLsbD i
  | _ => pl.quads.getLsbD i
/-- Units of a kind a set holds. -/
def RSet.units (r : RSet) (kind : Nat) : List Nat :=
  match kind with
  | 0 => r.clusters
  | 1 => r.pipes
  | _ => r.quads

/-- A unit is in the limp allocation: PD52 and PD56 (R482). -/
def limpUnit (kind i : Nat) : Bool :=
  match kind with
  | 0 => decide (i < 16)
  | 1 => true
  | _ => false

/-- The problems of a set may take a unit: their constraints allow it (R387), or from a coolant loss until LIMP ends, constraints set
aside, it is in the limp allocation (R482). -/
def mayTake (s : State) (kind i : Nat) (ps : List Cand) : Bool :=
  if s.faults.limp.isSome then limpUnit kind i else ps.all (fun p => allows p.place kind i)

/-- The first `n` units of a kind that work, are not in use and that the problems may take, ascending (R386). -/
def takeUnits (s : State) (kind n : Nat) (used : List Nat) (ps : List Cand) : Option (List Nat) :=
  let l := ((List.range (unitRange kind)).filter (fun i => unitWorks s kind i && !used.contains i && mayTake s kind i ps)).take n
  if l.length = n then some l else none

/-- Two lists of problems have the same members. -/
def sameProbs (a b : List Nat) : Bool := a.all (fun x => b.contains x) && b.all (fun x => a.contains x)

/-- The current set that a trial set keeps (R386). -/
def keptSet (s : State) (t : Trial) : Option Nat :=
  (List.range 64).find? (fun k => !(probsOf s k).isEmpty && sameProbs (probsOf s k) (t.ps.map Cand.id))

/-- Units of a kind that the kept sets of a trial assignment hold. -/
def keptUnits (s : State) (ts : List Trial) (kind : Nat) : List Nat :=
  ts.flatMap (fun t => match keptSet s t with | some k => (rset s k).units kind | none => [])

/-- Bytes of the staging region a set needs (R380), from its problems' plans: none for one cluster on one device, between whose clusters and
devices no partial result is in flight (Table 17-3, log entry 137). -/
def stagingNeed (s : State) (clusters : Nat) (ps : List Cand) : Nat :=
  if clusters ≤ 1 && !ps.any (fun p => (prob s p.id).spans) then 0
  else Config.stagingBytes clusters (ps.map (fun p => (match (prob s p.id).im with | some im => im.contentSig | none => 0, p.c.clusters)))

/-- Bytes of the staging region that the kept sets of a trial assignment leave (R380). -/
def stagingRoom (s : State) (ts : List Trial) : Nat :=
  4 * 2 ^ 20 - (ts.map (fun t => match keptSet s t with | some k => (rset s k).staging | none => 0)).foldl (· + ·) 0

/-- The units of every trial set in order: a kept set's number, or the clusters, pipelines and quadrants taken (R386).
`room` is what is left of the staging region: a set whose part cannot be reserved lacks hardware (R380). -/
def allocTrials (s : State) : List Trial → Nat → List Nat → List Nat → List Nat → Option (List (Trial × Option Nat × List Nat × List Nat × List Nat))
  | [], _, _, _, _ => some []
  | t :: ts, room, uc, up, uq =>
    match keptSet s t with
    | some k => (allocTrials s ts room uc up uq).map (fun r => (t, some k, [], [], []) :: r)
    | none =>
      let need := stagingNeed s t.shape.1 t.ps
      if room < need then none else
      match takeUnits s 0 t.shape.1 uc t.ps, takeUnits s 1 t.shape.2.2 up t.ps, takeUnits s 2 t.shape.2.1 uq t.ps with
      | some c, some p, some q => (allocTrials s ts (room - need) (uc ++ c) (up ++ p) (uq ++ q)).map (fun r => (t, none, c, p, q) :: r)
      | _, _, _ => none

/-- Hardware for a trial assignment. -/
def allocAll (s : State) (ts : List Trial) : Option (List (Trial × Option Nat × List Nat × List Nat × List Nat)) :=
  allocTrials s ts (stagingRoom s ts) (keptUnits s ts 0) (keptUnits s ts 1) (keptUnits s ts 2)

/-- (budget, min(D, T), ITER_TIME) of a candidate. -/
def Cand.load (p : Cand) : Nat × Nat × Nat := (p.c.budget, p.c.span, p.c.iterTime)

/-- Put a problem into the first existing trial set of suitable shape where the test holds and hardware allows it (R39). -/
def placeIn (s : State) (p : Cand) : List Trial → List Trial → Option (List Trial)
  | _, [] => none
  | done, t :: ts =>
    let excl := p.place.flags.getLsbD 0 || t.ps.any (fun x => x.place.flags.getLsbD 0)
    let t' : Trial := { t with ps := t.ps ++ [p] }
    if !excl && decide (p.c.clusters ≤ t.shape.1 ∧ p.c.quadrants ≤ t.shape.2.1 ∧ p.c.pipes ≤ t.shape.2.2)
        && setPasses (t'.ps.map Cand.load) && (allocAll s (done ++ [t'] ++ ts)).isSome
    then some (done ++ [t'] ++ ts)
    else placeIn s p (done ++ [t]) ts

/-- Place one problem (R39). -/
def placeOne (s : State) (p : Cand) (ts : List Trial) : Option (List Trial) :=
  match placeIn s p [] ts with
  | some r => some r
  | none =>
    let r := ts ++ [⟨(p.c.clusters, p.c.quadrants, p.c.pipes), [p]⟩]
    if setPasses [p.load] && (allocAll s r).isSome then some r else none

/-- Candidates in the order of R39: descending density, then ascending problem ID. -/
def insCand (p : Cand) : List Cand → List Cand
  | [] => [p]
  | q :: t =>
    let a := p.c.budget * q.c.span
    let b := q.c.budget * p.c.span
    if b < a ∨ (a = b ∧ p.id < q.id) then p :: q :: t else q :: insCand p t

/-- A placed problem in a search; of one that spans a peer group only its share at home (R360). -/
def candOf (s : State) (e : Nat × Prob) : Cand :=
  let share := match e.2.set with
    | some k => min e.2.sched.clusters (rset s k).clusters.length
    | none => e.2.sched.clusters
  ⟨e.1, if e.2.spans then { e.2.sched with clusters := share } else e.2.sched, e.2.place⟩

/-- The search of R39 over every placed problem and one more; a RETIRING problem holds its admission until its retirement completes (R52). -/
def search (s : State) (new : Cand) : Option (List Trial) :=
  let placed := (s.probs.filter (fun e => (e.2.st == .enabled || e.2.st == .retiring) && e.2.set.isSome && e.1 != new.id)).map (candOf s)
  (((new :: placed).map (fun x => { x with c := limpSched s x.c })).foldl (fun l p => insCand p l) []).foldl (fun r p => r.bind (placeOne s p)) (some [])

/-- A steep occupies a set: it was dispatched there and has not ended, or its prior update runs there. -/
def occupied (s : State) (k : Nat) : Bool :=
  (rset s k).running.isSome || s.probs.any (fun e => match e.2.steep with | some t => t.onSet == some k | none => false)

/-- The lowest number from 64 that no former set uses. -/
def ghostKey (s : State) : Nat := ((List.range 64).find? (fun i => (s.sets.get? (64 + i)).isNone)).getD 63 + 64

/-- A set that is not kept: dropped, or kept under a number from 64 while steeps occupy it (R389). -/
def retireSet (k : Nat) (s : State) : State :=
  if occupied s k then
    let g := ghostKey s
    { s with
      sets := (s.sets.set g { (rset s k) with blockers := [], toStage := [] }).del k
      probs := s.probs.map (fun e => match e.2.steep with
        | some t => if t.onSet = some k then (e.1, { e.2 with steep := some { t with onSet := some g } }) else e
        | none => e) }
  else { s with sets := s.sets.del k }

/-- The lowest free set number. -/
def freeSet (s : State) (kept : List Nat) : Nat := ((List.range 64).find? (fun k => (s.sets.get? k).isNone && !kept.contains k)).getD 0

/-- A former set holds back a new set: it shares a unit, or carries a steep of one of its problems (R389). -/
def blocks (s : State) (g : Nat) (ps : List Nat) (r : RSet) : Bool :=
  let o := rset s g
  r.clusters.any o.clusters.contains || r.pipes.any o.pipes.contains || r.quads.any o.quads.contains
  || ps.any (fun p => match (prob s p).steep with | some t => t.onSet == some g | none => false)

/-- Form one set that was not kept. -/
def formSet (kept : List Nat) (a : Trial × Option Nat × List Nat × List Nat × List Nat) (s : State) : State :=
  match a.2.1 with
  | some _ => s
  | none =>
    let k := freeSet s kept
    let ps := a.1.ps.map Cand.id
    let r : RSet := { clusters := a.2.2.1, pipes := a.2.2.2.1, quads := a.2.2.2.2, toStage := a.2.2.2.2, staging := stagingNeed s a.1.shape.1 a.1.ps }
    let gs := (s.sets.filter (fun e => decide (64 ≤ e.1) && blocks s e.1 ps r)).map Prod.fst
    let t := { s with sets := s.sets.set k { r with blockers := gs } }
    forAll ps (fun p t => modProb p (fun q => { q with set := some k }) t) t

/-- Adopt an assignment (R386, R389). -/
def adopt (ts : List Trial) (s : State) : State :=
  match allocAll s ts with
  | none => s
  | some as =>
    let kept := as.filterMap (fun a => a.2.1)
    let gone := (s.sets.filter (fun e => decide (e.1 < 64) && !kept.contains e.1)).map Prod.fst
    forAll as (formSet kept) (forAll gone retireSet s)

/-- f of R390: the largest number of logical units on one physical unit. -/
def doubling (r : RSet) : Nat :=
  let most (l : List Nat) : Nat := (l.map (fun x => l.count x)).foldl Nat.max 1
  max (most r.clusters) (max (most r.quads) (most r.pipes))

/-- The factors of R44 on a set's densities: f, G, and the tensor clock where the set has quadrants (R390, R462). -/
def setFactor (s : State) (k : Nat) : Frac :=
  let r := rset s k
  let clk := (r.quads.map (fun q => s.pwr.quadClk.getD q 1800)).foldl Nat.min 1800
  Frac.mul (Frac.mul (doubling r, 1) (s.pwr.g, 8)) (if r.quads.isEmpty then (1, 1) else (1800, max clk 1))

/-- The total density of a set at given levels, with the factors of R44. -/
def setLoad (s : State) (k : Nat) (level : Nat → Nat) : Frac :=
  Frac.mul (setFactor s k) (Frac.sum ((probsOf s k).map (fun p => (levelBudget (limpSched s (prob s p).sched) (level p), (prob s p).sched.span))))

/-- A set is overloaded (R44). -/
def overloaded (s : State) (k : Nat) : Bool := !Frac.le (setLoad s k (fun p => (prob s p).level)) (1, 1)

/-- The problem that R44 raises next: lowest level, then ascending PRIORITY, then descending problem ID. -/
def raiseNext (s : State) (k : Nat) : Option Nat :=
  ((probsOf s k).filter (fun p => decide ((prob s p).level < topLevel (prob s p).sched))).foldl (fun b p =>
    match b with
    | none => some p
    | some o =>
      let x := prob s p
      let y := prob s o
      if x.level < y.level ∨ (x.level = y.level ∧ (x.sched.priority < y.sched.priority ∨ (x.sched.priority = y.sched.priority ∧ o < p))) then some p else some o) none

/-- Raise levels while a set is overloaded (R44). -/
def strainSet (k : Nat) : Nat → State → State
  | 0, s => s
  | n + 1, s =>
    if overloaded s k then
      match raiseNext s k with
      | none => s
      | some p => strainSet k n (modProb p (fun q => { q with level := q.level + 1, levelAt := some s.lt }) s)
    else s

/-- The strainer after any change of capacity (R44). -/
def strain (s : State) : State := forAll ((s.sets.filter (fun e => decide (e.1 < 64))).map Prod.fst) (fun k t => strainSet k (4 * (probsOf t k).length) t) s

/-- The problem that R45 lowers next: the reverse of R44's order. -/
def lowerNext (s : State) (k : Nat) : Option Nat :=
  ((probsOf s k).filter (fun p => decide (0 < (prob s p).level))).foldl (fun b p =>
    match b with
    | none => some p
    | some o =>
      let x := prob s p
      let y := prob s o
      if y.level < x.level ∨ (x.level = y.level ∧ (y.sched.priority < x.sched.priority ∨ (x.sched.priority = y.sched.priority ∧ p < o))) then some p else some o) none

/-- R45: the 0.90 test at given levels, with factors, the waits counting only problems that still use resource time. -/
def lowerPasses (s : State) (k : Nat) (level : Nat → Nat) : Bool :=
  let total := setLoad s k level
  (probsOf s k).all (fun p =>
    let wait := (((probsOf s k).filter (fun q => q != p && decide (0 < levelBudget (prob s q).sched (level q)))).map (fun q => (limpSched s (prob s q).sched).iterTime)).foldl Nat.max 0
    Frac.le (Frac.add total (wait, (prob s p).sched.span)) (9, 10))

/-- 10 ms have passed since a level of the set's problems changed (R45). -/
def levelsRest (s : State) (k : Nat) : Bool :=
  (probsOf s k).all (fun p => match (prob s p).levelAt with | none => true | some t => decide (t + 10000000 ≤ s.lt))

/-- OVERLOAD_LOWER (R45). -/
def doOverloadLower (k : Fin 64) (s : State) : State :=
  match lowerNext s k with
  | none => s
  | some p =>
    let level (q : Nat) : Nat := (prob s q).level - (if q = p then 1 else 0)
    if levelsRest s k && lowerPasses s k level then modProb p (fun q => { q with level := q.level - 1, levelAt := some s.lt }) s
    else s

/-- Replace a unit of a set everywhere. -/
def RSet.map (r : RSet) (kind : Nat) (f : Nat → Nat) : RSet :=
  match kind with
  | 0 => { r with clusters := r.clusters.map f }
  | 1 => { r with pipes := r.pipes.map f }
  | _ => { r with quads := r.quads.map f, toStage := r.toStage.map f }

/-- Units of a kind that any set holds. -/
def unitsUsed (s : State) (kind : Nat) : List Nat := s.sets.flatMap (fun e => e.2.units kind)

/-- The constraints of a set's problems. -/
def candsOf (s : State) (k : Nat) : List Cand := (probsOf s k).map (fun p => ⟨p, (prob s p).sched, (prob s p).place⟩)

/-- The working unit of a set that carries the fewest logical units, on a tie the lowest ID (R390). -/
def leastLoaded (s : State) (r : RSet) (kind : Nat) : Option Nat :=
  ((List.range (unitRange kind)).filter (fun i => (r.units kind).contains i && unitWorks s kind i)).foldl (fun b i =>
    match b with
    | none => some i
    | some o => if (r.units kind).count i < (r.units kind).count o then some i else some o) none

/-- R390: a fenced unit of a set is replaced, or its logical unit doubled; `none` when no working unit of the kind is left. -/
def replaceUnit (s : State) (k kind i : Nat) : Option RSet :=
  let r := rset s k
  match takeUnits s kind 1 (unitsUsed s kind) (candsOf s k) with
  | some (n :: _) => some { r.map kind (fun x => if x = i then n else x) with toStage := if kind = 2 then n :: r.toStage else r.toStage }
  | _ => (leastLoaded s r kind).map (fun n => r.map kind (fun x => if x = i then n else x))

/-- R390: undo doublings with free units, lowest logical number first, at a dispatch. -/
def undoDoubling (s : State) (k kind : Nat) (r : RSet) : RSet :=
  let step (acc : List Nat) (x : Nat) : List Nat :=
    if acc.contains x then
      match takeUnits s kind 1 (unitsUsed s kind ++ acc) (candsOf s k) with
      | some (n :: _) => acc ++ [n]
      | _ => acc ++ [x]
    else acc ++ [x]
  let l := (r.units kind).foldl step []
  match kind with
  | 0 => { r with clusters := l }
  | 1 => { r with pipes := l }
  | _ => { r with quads := l, toStage := r.toStage ++ l.filter (fun q => !r.quads.contains q) }

/-- R391: try the problems that have no set, in the order of R39. -/
def placeUnplaced (s : State) : State :=
  let un := (s.probs.filter (fun e => e.2.st == .enabled && e.2.set.isNone && !e.2.spans)).map (fun e => (⟨e.1, e.2.sched, e.2.place⟩ : Cand))
  forAll (un.foldl (fun l p => insCand p l) []) (fun p t => match search t p with | some ts => adopt ts t | none => t) s

/-- OVERLOAD_LOWER (R45). -/
def execOverloadLower (k : Fin 64) (s : State) : Host.Outcome State Fault Refusal := finish s (doOverloadLower k s)

end Sys2Proof.Machine
end

