-- ==== Sys2Proof/Machine/TrainOps.lean ====
section
/-! DEFINITION. Weight generations of learned models: what is in force, promotion, rollback, capture of samples, the watch
(R233 to R244). -/
namespace Sys2Proof.Machine

/-- Replace bytes of an area from an offset. -/
def putAt (w : List Byte) (off : Nat) (bs : List Byte) : List Byte := w.take off ++ bs ++ w.drop (off + bs.length)

/-- Weights of a model in a table of generations: the listed one, else the image's (generation 0, R174). -/
def weightsIn (im : Image) (gens : Tbl Gen) (m : ModelRec) : List Byte :=
  match gens.get? m.model with
  | some g => g.weights
  | none => im.weightsOf m
/-- The number of the generation in force (R240). -/
def genNo (q : Prob) (m : Nat) : W32 := ((q.gens.get? m).map Gen.gen).getD 0

/-- The DENSE layers of a model with their input widths (R167). -/
def denseLayers (im : Image) (m : ModelRec) : List (LayerRec × Nat) :=
  ((im.layersOf m).zip (layerInputs m (im.layersOf m))).filter (fun l => l.1.kind != 0)

/-- The masters of R236 at the exact values of a weight area: each DENSE layer's matrix by rows, then its biases. -/
def mastersOf (im : Image) (m : ModelRec) (w : List Byte) : List W32 :=
  (denseLayers im m).flatMap (fun (l, k) =>
    let d := layerData m w k l
    d.rows.flatMap (fun r => ((r.1.take k).zipIdx).map (fun (v, i) =>
      BitVec.ofNat 32 (match decodeF f32 v with
        | .fin s a e => (roundF f32 .rne s a (e + r.2.getD (i / 32) 0)).v
        | _ => v)))
    ++ (if l.bOff = absentOff then [] else d.bias.map (BitVec.ofNat 32)))

/-- One weight row converted to FORMAT with RNE and SAT (R189, R201, R236), in the image's layout. -/
def rowCodes (fmt k : Nat) (vs : List W32) : FlM (List Byte) := do
  let nums := vs.map (fun v => decodeF f32 v.toNat)
  if isMx fmt then do
    let bs ← (List.range (nChunks k)).mapM (fun j =>
      let c := (nums.drop (32 * j)).take 32
      convBlock fmt false (List.replicate 32 none) (c ++ List.replicate (32 - c.length) (Num.fin false 0 0)))
    let codes := bs.flatMap Prod.snd
    let packed := if fmt = 5 then (List.range (codes.length / 2)).map (fun i => BitVec.ofNat 8 (codes.getD (2 * i) 0 + 16 * codes.getD (2 * i + 1) 0))
      else codes.map (BitVec.ofNat 8)
    pure (packed ++ bs.map (fun b => BitVec.ofNat 8 b.1))
  else do
    let cs ← nums.mapM (convElem fmt false none)
    pure (cs.flatMap (fun c => leBytes (if fmt = 0 then 2 else 1) c))

/-- Write the rows of one layer's matrix into a weight area. -/
def putRows (fmt k off : Nat) : Nat → List W32 → List Byte → FlM (List Byte)
  | 0, _, w => pure w
  | n + 1, ms, w => do
    let b ← rowCodes fmt k (ms.take k)
    putRows fmt k (off + rowStride fmt k) n (ms.drop k) (putAt w off b)

/-- The working weights of R236: the masters converted to FORMAT, everything else as in a weight area. -/
def workingWeights (im : Image) (m : ModelRec) (base : List Byte) (master : List W32) : FlM (List Byte) := do
  let r ← (denseLayers im m).foldlM (fun (a : List Byte × List W32) (x : LayerRec × Nat) => do
    let n := x.1.width * x.2
    let w ← putRows m.fmt x.2 x.1.wOff x.1.width (a.2.take n) a.1
    if x.1.bOff = absentOff then pure (w, a.2.drop n)
    else pure (putAt w x.1.bOff (((a.2.drop n).take x.1.width).flatMap (wBytes 4)), a.2.drop (n + x.1.width))) (base, master)
  pure r.1

/-- C_r of a job (R235). -/
def cutoff (j : Job) (r : Nat) : Nat := j.cfg.start + r * j.cfg.span

/-- Change the job of a problem and model. -/
def modJob (p m : Nat) (f : Job → Job) (s : State) : State :=
  { s with jobs := s.jobs.map (fun j => if j.problem = p ∧ j.model = m then f j else j) }
/-- The job of a problem and model. -/
def jobOf (s : State) (p m : Nat) : Option Job := s.jobs.find? (fun j => j.problem == p && j.model == m)

/-- A round in progress is abandoned (R244, R247). -/
def Job.abandon (j : Job) : Job :=
  match j.stepsDone with
  | none => j
  | some _ => { j with stepsDone := none, train := [], val := [], master := j.base.1, m := j.base.2.1, v := j.base.2.2.1, t := j.base.2.2.2,
                       state := if j.state = .suspended then .suspended else .waiting }

/-- The highest accepted round of a model whose cutoff is not above `n` − PROMOTE_DELAY (ROUNDS of Table 16-2). -/
def roundReported (s : State) (p m n : Nat) : Nat :=
  match jobOf s p m with
  | none => 0
  | some j => ((j.accepted.map Prod.fst ++ [(genNo (prob s p) m).toNat]).filter (fun r => decide (cutoff j r + j.cfg.delay ≤ n))).foldl Nat.max 0

/-- Only copies of the generation in force stay staged: a quadrant without one streams it (R241). -/
def unstage (m r : Nat) (q : Prob) : Prob := { q with staged := q.staged.filter (fun x => x.1 != m || x.2.2 == r) }

/-- Put a generation in force from steep `n` (R240): the one in force before becomes the previous one. -/
def putGen (m : Nat) (im : Image) (r : Nat) (w : List Byte) (q : Prob) : Prob :=
  match im.findModel m with
  | none => q
  | some mr => unstage m r { q with prev := q.prev.set m ⟨genNo q m, weightsIn im q.gens mr⟩, gens := q.gens.set m ⟨BitVec.ofNat 32 r, w⟩ }

/-- R240: promotion of one job's model at the release of steep `n`; on a pair, only up to the round that both barrier messages report. -/
def promoteJob (p n : Nat) (both : Option (List W32)) (j : Job) (s : State) : State :=
  let ok := j.accepted.filter (fun a => decide (cutoff j a.1 + j.cfg.delay ≤ n)
    && (match both with | none => true | some l => decide (a.1 ≤ (l.getD j.model 0).toNat)))
  match ok.foldl (fun b a => match b with | none => some a | some x => if x.1 < a.1 then some a else some x) (none : Option (Nat × List Byte)), (prob s p).im with
  | some (r, w), some im =>
    modJob p j.model (fun j => { j with
      accepted := j.accepted.filter (fun a => decide (r < a.1))
      c32 := bumpAt j.c32 2 (j.accepted.filter (fun a => decide (a.1 < r))).length
      promotedAt := BitVec.ofNat 64 n
      watch := if j.cfg.watch = 0 then none else some (n + j.cfg.watch, 0) }) (modProb p (putGen j.model im r w) s)
  | _, _ => s

/-- The first round whose cutoff exceeds `n` (R244). -/
def roundAfter (j : Job) (n : Nat) : Nat := if n < j.cfg.start then 1 else max 1 ((n - j.cfg.start) / j.cfg.span + 1)

/-- R244: a rollback of one job's model at the release of steep `n`. -/
def rollbackJob (p n target : Nat) (auto : Bool) (j : Job) (s : State) : State :=
  let q := prob s p
  match q.im, q.im.bind (fun im => im.findModel j.model) with
  | some im, some mr =>
    let tgt : Option Gen := if target = 0 then q.prev.get? j.model else some ⟨0, im.weightsOf mr⟩
    match tgt with
    | none => modJob p j.model (fun j => { j with rollbacks := j.rollbacks.filter (fun r => decide (n < r.1)) }) s
    | some g =>
      let ms := mastersOf im mr g.weights
      modJob p j.model (fun j => { (Job.abandon j) with
        accepted := [], master := ms, m := ms.map (fun _ => 0), v := ms.map (fun _ => 0), t := 0
        round := roundAfter j n, promotedAt := BitVec.ofNat 64 n, watch := none
        rollbacks := j.rollbacks.filter (fun r => decide (n < r.1))
        c32 := if auto then bumpAt j.c32 3 1 else j.c32 })
        (modProb p (fun q => unstage j.model g.gen.toNat { q with
          gens := if g.gen = 0 then q.gens.del j.model else q.gens.set j.model g, prev := q.prev.del j.model }) s)
  | _, _ => s

/-- Generations at the release of steep `n` (R240, R244): a rollback due there, or due at a steep that had been released or ended before
it could take effect (R242, R243, log entry 131), the last commanded one before an automatic one; else a promotion. -/
def releaseGens (p n : Nat) (both : Option (List W32)) (s : State) : State :=
  forAll (s.jobs.filter (fun j => j.problem == p && !j.stopping)) (fun j t =>
    let due := j.rollbacks.filter (fun r => decide (r.1 ≤ n))
    match (due.filter (fun r => r.2.2)).reverse ++ due with
    | r :: _ => rollbackJob p n r.2.1 (!r.2.2) j t
    | [] => promoteJob p n both j t) s

/-- A value converted to binary32 (R169, R233). -/
def toF32 (x : W64) : W32 := BitVec.ofNat 32 (fconv f64 f32 .rne x.toNat).v
/-- Finite in binary32. -/
def fin32 (x : W32) : Bool := isFinF f32 x.toNat

/-- SOLVED, DEADLINE_FEASIBLE, or ITER_LIMIT with at least one iteration (R233). -/
def capturable (w : W32) : Bool := statusCode w == 0 || statusCode w == 1 || (statusCode w == 3 && decide (0 < w.toNat / 65536))

/-- Put a sample at its place in ascending steep number (R234). -/
def insTSample (x : TSample) : List TSample → List TSample
  | [] => [x]
  | y :: l => if x.steep.toNat < y.steep.toNat then x :: y :: l else y :: insTSample x l

/-- Store a sample: in a full ring it overwrites the one with the lowest steep number (R234). -/
def storeTSample (x : TSample) (j : Job) : Job :=
  let full := decide (j.cfg.ring ≤ j.ring.length)
  { j with ring := insTSample x (if full then j.ring.drop 1 else j.ring), c64 := bumpAt (bumpAt j.c64 2 1) 5 (b2n full) }

/-- R233: capture of one job at the freeze of steep `n` with status `w`; `xs` are the model's inputs and context as the steep
had them, none where no evaluation completed. -/
def captureJob (n : Nat) (w : W32) (shed : Bool) (xs : Option (List W64)) (params : List W64) (nOut : Nat) (j : Job) : Job :=
  let me := (BitVec.ofNat 64 n, !shed && capturable w, xs.getD [])
  let recent := (j.recent ++ [me]).drop (j.recent.length + 1 - (j.cfg.lag + 1))
  let j := { j with recent := recent }
  let src := recent.find? (fun r => decide (r.1.toNat + j.cfg.lag = n))
  match src with
  | some r =>
    if j.cfg.start + j.cfg.lag ≤ n ∧ me.2.1 = true ∧ r.2.1 = true ∧ r.2.2 ≠ [] then
      let x := r.2.2.map toF32
      let y := (List.range nOut).map (fun i => toF32 (params.getD (j.cfg.target + i) 0))
      if x.all fin32 && y.all fin32 then storeTSample ⟨BitVec.ofNat 64 n, x, y⟩ j else { j with c64 := bumpAt j.c64 3 1 }
    else { j with c64 := bumpAt j.c64 4 1 }
  | none => { j with c64 := bumpAt j.c64 4 1 }

/-- R242: a pour with NUMERIC, TRAP, CERT_INFEASIBLE or DEADLINE_INFEASIBLE is bad. -/
def badPour (w : W32) : Bool := statusCode w == 5 || statusCode w == 6 || statusCode w == 4 || statusCode w == 2

/-- R242: the watch at the freeze of steep `n`. -/
def watchJob (n : Nat) (w : W32) (j : Job) : Job :=
  match j.watch with
  | none => j
  | some (e, k) =>
    if e ≤ n then { j with watch := none }
    else if badPour w ∧ j.promotedAt.toNat ≤ n then
      if k + 1 = j.cfg.watchLimit then { j with watch := some (e, k + 1), rollbacks := j.rollbacks ++ [(n + 2, 0, false)] }
      else { j with watch := some (e, k + 1) }
    else j

/-- Training at a freeze (R233, R242): capture and watch of every job of the problem. -/
def trainFreeze (p n : Nat) (w : W32) (shed : Bool) (xs : Option (List (Nat × List W64))) (params : List W64) (s : State) : State :=
  forAll (s.jobs.filter (fun j => j.problem == p && !j.stopping && j.state != .stopped)) (fun j t =>
    match (prob t p).im.bind (fun im => im.findModel j.model) with
    | none => t
    | some m =>
      let mine := match xs with | none => none | some l => (l.find? (fun x => x.1 == j.model)).map Prod.snd
      modJob p j.model (fun j => watchJob n w (captureJob n w shed mine params m.nOut j)) t) s

end Sys2Proof.Machine
end

