-- ==== Sys2Proof/Machine/Domains.lean ====
section
/-! DEFINITION. Switchable power domains and the kettle policy (R30, R441 to R449). -/
namespace Sys2Proof.Machine

/-- The kettle class of a switchable domain (R448): 0 host cores, 1 tensor tiles, 2 solver clusters, 3 JDU, 4 vector engines. -/
def pdClass (d : Nat) : Option Nat :=
  if 3 ≤ d ∧ d ≤ 17 then some 0 else if 20 ≤ d ∧ d ≤ 51 then some 1 else if 52 ≤ d ∧ d ≤ 55 then some 2
  else if d = 56 then some 3 else if d = 57 then some 4 else none

/-- A domain. -/
def pd (s : State) (d : Nat) : Pd := s.pwr.pds.get d
/-- Change a domain. -/
def modPd (d : Nat) (f : Pd → Pd) (s : State) : State := modPwr (fun w => { w with pds := w.pds.mod d f }) s

/-- The switchable domains that a set's units lie in (Table 19-2). -/
def domainsOf (r : RSet) : List Nat :=
  ((r.clusters.map (fun c => 52 + c / 16)) ++ r.quads.flatMap (fun q => (List.range 8).map (· + (20 + 8 * q)))
    ++ (if r.quads.isEmpty then [] else [57]) ++ (if r.pipes.isEmpty then [] else [56])).eraseDups

/-- A set holds work: a steep on it, a steep waiting for it, or a pre-warm for one of its problems. -/
def setWorks (s : State) (k : Nat) : Bool :=
  (rset s k).running.isSome || (probsOf s k).any (fun p => (prob s p).prewarm || (prob s p).steep.isSome)

/-- A domain holds work: a set that uses it does, or a JDU query runs in it. -/
def pdWorks (s : State) (d : Nat) : Bool :=
  s.sets.any (fun e => (domainsOf e.2).contains d && setWorks s e.1)
  || (d == 56 && s.mbx.running.any (fun r => r.await == .jduQuery))

/-- R448: a release of a set that uses the domain is predicted before now + HOLD_US (R319). -/
def predictedSoon (s : State) (d hold : Nat) : Bool :=
  s.probs.any (fun e =>
    e.2.st == .enabled && !e.2.sched.requested && clockRuns s e.2.sched.tb && decide (0 < e.2.sched.period)
    && (match e.2.set with | some k => (domainsOf (rset s k)).contains d | none => false)
    && decide (predictLt s e.2.sched.tb (nextInstant s e.2) < s.lt + hold))

/-- RUN while any switchable domain is ON, IDLE otherwise (R441). -/
def refreshPower (s : State) : State :=
  let busy := s.pwr.pds.any (fun e => (pdClass e.1).isSome && e.2.state == .on)
  modPwr (fun w => { w with power := match w.power with | .run | .idle => if busy then .run else .idle | x => x }) s

/-- Ask for a domain to be woken; the request is held while it is going OFF (R446). -/
def wakePd (d : Nat) (s : State) : State :=
  match (pd s d).state with
  | .on => s
  | .goingOff =>
    if (pd s d).heldWake then s
    else modPwr (fun w => { w with heldWakes := satInc w.heldWakes }) (modPd d (fun x => { x with heldWake := true }) s)
  | _ => modPd d (fun x => { x with waking := true }) s

/-- Begin a domain's shut-down (R446). -/
def goOff (d : Nat) (s : State) : State :=
  match (pd s d).state with
  | .off | .goingOff => s
  | _ => modPd d (fun x => { x with state := .goingOff, waking := false }) s

/-- The kettle decision for a domain (R448); Table 19-3 gives no way from OFF to KETTLE but through ON (log entry 162). -/
def kettleDecide (d : Nat) (s : State) : State :=
  match pdClass d with
  | none => s
  | some c =>
    let k := s.pwr.kettle.get c
    if pdWorks s d || (pd s d).waking then s
    else if k.policy = 2 then wakePd d s
    else if k.policy = 1 || decide (s.lt - (pd s d).lastUse < k.holdUs * 1000) || predictedSoon s d (k.holdUs * 1000) then
      match (pd s d).state with
      | .on => modPd d (fun x => { x with state := .kettle }) s
      | .off => wakePd d s
      | .kettle | .goingOff => s
    else goOff d s

/-- The work of a set has ended: its domains' last use, and their decisions (R448). -/
def endWork (r : RSet) (s : State) : State :=
  refreshPower (forAll (domainsOf r) (fun d t =>
    if pdWorks t d then t else kettleDecide d (modPd d (fun x => { x with lastUse := t.lt }) t)) s)

/-- Every domain of a set is ON. -/
def domainsOn (s : State) (r : RSet) : Bool := (domainsOf r).all (fun d => (pd s d).state == .on)
/-- Wake a set's domains. -/
def wakeSet (r : RSet) (s : State) : State := forAll (domainsOf r) wakePd s

/-- States of a clock domain (R444). -/
inductive CkState where
  | running | locked | stopped
deriving DecidableEq, Repr, Inhabited

/-- The power domains that a clock feeds (Table 19-2); CK00, CK01 and CK24 feed the always-on PD00 and PD01. -/
def fedBy (ck : Nat) : List Nat :=
  if ck ≤ 1 then [0] else if ck = 24 then [1]
  else if ck = 2 then 2 :: (List.range 15).map (· + 3) else if ck = 3 then [2, 18]
  else if ck = 4 ∨ ck = 20 then [19]
  else if 5 ≤ ck ∧ ck ≤ 8 then (List.range 8).map (· + (20 + 8 * (ck - 5)))
  else if ck = 9 then [57] else if ck = 10 then [52, 53, 54, 55] else if ck = 11 then [56]
  else if ck = 12 ∨ ck = 13 then [58] else if 14 ≤ ck ∧ ck ≤ 17 then [59, 60]
  else if ck = 18 ∨ ck = 19 then [61] else if ck = 21 then [62] else if ck = 22 then [63] else []

/-- The state of a power domain (R443, Table 19-2): switchable ones hold theirs, the others follow the main die, the edge die, LIMP and the
peer links. -/
def pdState (s : State) (d : Nat) : PdState :=
  let on (b : Bool) : PdState := if b then .on else .off
  if d ≤ 1 then .on else if d = 58 then on s.edge.on
  else if (pdClass d).isSome then (pd s d).state
  else if d = 59 ∨ d = 60 then on (mainOn s && s.pwr.power != .limp)
  else if d = 62 then on (mainOn s && s.links.any (fun e => e.2.state != .disabled))
  else on (mainOn s && decide (d ≤ 63))

/-- R18, R444: a clock runs while a domain it feeds is ON, is locked while one is in KETTLE, and is stopped otherwise; CK23 runs while TCK is
driven, which the outside decides. -/
def ckState (s : State) (ck : Nat) : CkState :=
  if (fedBy ck).any (fun d => pdState s d == .on) then .running
  else if (fedBy ck).any (fun d => pdState s d == .kettle) then .locked else .stopped

/-- KETTLE_HOLD_EXPIRY (R448): HOLD_US has passed since a domain's last use. -/
def doHoldExpiry (d : Fin 64) (s : State) : State :=
  match pdClass d with
  | none => s
  | some c =>
    if mainOn s ∧ pdWorks s d = false ∧ (pd s d).lastUse + (s.pwr.kettle.get c).holdUs * 1000 ≤ s.lt then refreshPower (kettleDecide d s) else s

/-- DOMAIN_OFF_COMPLETE (R446, R447): a shut-down ends; a wake request held meanwhile is carried out as one from cold, and the
weights staged in a quadrant are to be staged again. -/
def doDomainOff (d : Fin 64) (s : State) : State :=
  if (pd s d).state = .goingOff then
    let s := modPd d (fun x => { x with state := .off, heldWake := false, waking := x.heldWake }) s
    let s := if 20 ≤ d.val ∧ d.val ≤ 51 then
        let q := (d.val - 20) / 8
        { s with sets := s.sets.map (fun e => (e.1, if e.2.quads.contains q && !e.2.toStage.contains q then { e.2 with toStage := e.2.toStage ++ [q] } else e.2)) }
      else s
    refreshPower s
  else s

/-- A wake ends (R445): the domain is ON. -/
def wakeDone (d : Nat) (s : State) : State :=
  let s := if (pd s d).state = .off then modPwr (fun w => { w with coldWakes := satInc w.coldWakes }) s else s
  refreshPower (kettleDecide d (modPd d (fun x => { x with state := .on, waking := false, lastUse := s.lt }) s))

/-- KETTLE_SET, 0x0704 (R449). -/
def effKettleSet (m : Cmd) (s : State) : State × Reply :=
  let hold := argN m.c 4 4
  checked (descChecks false false m
      ++ [(decide (4 < argN m.c 0 1 ∨ 2 < argN m.c 1 1 ∨ hold < 50 ∨ 10000000 < hold), stPwrRange)]) s
    (okay (modPwr (fun w => { w with kettle := w.kettle.set (argN m.c 0 1) ⟨argN m.c 1 1, hold⟩ }) s))

/-- KETTLE_SET (R449). -/
def execKettleSet (c : CmdIn) (s : State) : Host.Outcome State Fault Refusal := finish s (submit 0x0704 effKettleSet c s)
/-- KETTLE_HOLD_EXPIRY (R448). -/
def execKettleHoldExpiry (d : Fin 64) (s : State) : Host.Outcome State Fault Refusal := finish s (doHoldExpiry d s)
/-- DOMAIN_OFF_COMPLETE (R446). -/
def execDomainOffComplete (d : Fin 64) (s : State) : Host.Outcome State Fault Refusal := finish s (doDomainOff d s)

end Sys2Proof.Machine
end

