-- ==== Sys2Proof/Machine/Deriv.lean ====
section
/-! DEFINITION. Derivatives of the stage graphs (R62, R99, R132, R175, R214, R215): the gradient of a node by a reverse sweep over Table 3-8's
derivatives, and the second derivatives of the stage cost by the same sweep over values with a tangent (forward over reverse). The order of a
sweep is the model's (log entry 124). -/
namespace Sys2Proof.Machine

/-- A computation whose flags and traps another pass has already raised. -/
def silently (m : FlM α) : FlM α := do
  let s ← get
  let x ← m
  set s
  pure x

/-- What a sweep computes with: the arithmetic, its sums, and the two derivatives that need an operation of their own. -/
structure Sweep (α : Type) where
  /-- arithmetic -/
  o : Arith α
  /-- sum of the contributions to one derivative -/
  sum : List α → FlM α
  /-- cosine -/
  cos : α → FlM α
  /-- minus sine -/
  negSin : α → FlM α

/-- The sweep over plain values: first derivatives. -/
def plainSweep : Sweep W64 :=
  ⟨plainArith, sumR, nCos, fun a => do let s ← nSin a; pure (negW s)⟩

/-- The sweep over values with a tangent: second derivatives. The values themselves were computed with the first derivatives. -/
def dualSweep : Sweep Dual :=
  ⟨dualArith,
   fun l => do
     let v ← silently (sumR (l.map Prod.fst))
     match l.filterMap Prod.snd with
     | [] => pure (v, none)
     | ts => do let t ← sumR ts; pure (v, some t),
   fun a => do
     let v ← silently (nCos a.1)
     match a.2 with
     | none => pure (v, none)
     | some x => do let s ← nSin a.1; let t ← nMul (negW s) x; pure (v, some t),
   fun a => do
     let s ← silently (nSin a.1)
     match a.2 with
     | none => pure (negW s, none)
     | some x => do let c ← nCos a.1; let t ← nMul (negW c) x; pure (negW s, some t)⟩

/-- The derivative of a node along one operand: an exact 0, 1 or −1, or a value. -/
inductive Fac (α : Type) where
  | zero | one | minus | val (x : α)
deriving Inhabited

/-- The derivative of Table 3-8 of a node along operand `slot`; `out` is the node's own result. MIN and MAX take A where neither operand is
smaller or larger, a NaN among them. -/
def slotFac (sw : Sweep α) (im : Image) (n : NodeRec) (slot : Nat) (out a b : α) : FlM (Fac α) := do
  let o := sw.o
  let one := o.lit one64
  let chosen (i : Nat) : Fac α := if slot = i then .one else .zero
  match n.op, slot with
  | 0x02, _ => pure .one
  | 0x03, _ => pure .minus
  | 0x04, _ => pure (if ltW 0 (o.val a) then .one else if ltW (o.val a) 0 then .minus else if isNan64 (o.val a) then .val (o.lit nan64) else .zero)
  | 0x10, _ => pure .one
  | 0x11, 0 => pure .one
  | 0x11, _ => pure .minus
  | 0x12, 0 => pure (.val b)
  | 0x12, _ => pure (.val a)
  | 0x13, 0 => pure (.val b)
  | 0x13, 1 => pure (.val a)
  | 0x13, _ => pure .one
  | 0x14, 0 => do let x ← o.div one b; pure (.val x)
  | 0x14, _ => do let d ← o.mul b b; let x ← o.div a d; pure (.val (o.neg x))
  | 0x15, _ => do let d ← o.mul (o.lit (intW 2)) out; let x ← o.div one d; pure (.val x)
  | 0x18, _ => pure (chosen (if ltW (o.val b) (o.val a) then 1 else 0))
  | 0x19, _ => pure (chosen (if ltW (o.val a) (o.val b) then 1 else 0))
  | 0x1A, _ => pure (chosen (if ltW 0 (o.val a) then 1 else 2))
  | 0x20, _ => do let x ← sw.cos a; pure (.val x)
  | 0x21, _ => do let x ← sw.negSin a; pure (.val x)
  | 0x22, _ => do let d ← o.mul out out; let x ← o.add one d; pure (.val x)
  | 0x23, _ => do let d ← o.mul a a; let e ← o.add one d; let x ← o.div one e; pure (.val x)
  | 0x24, i => do
    let p ← o.mul b b
    let q ← o.mul a a
    let d ← o.add p q
    if i = 0 then do let x ← o.div b d; pure (.val x) else do let x ← o.div a d; pure (.val (o.neg x))
  | 0x25, _ => pure (.val out)
  | 0x26, _ => do let x ← o.div one a; pure (.val x)
  | 0x27, _ => do let d ← o.mul out out; let x ← o.sub one d; pure (.val x)
  | 0x38, _ => do let x ← lookupSlope im (n.imm % 2 ^ 32) (o.val a); pure (.val (o.lit x))
  | _, _ => pure .zero

/-- What a sweep over a stage reads. -/
structure SweepIn (α : Type) where
  /-- the image -/
  im : Image
  /-- the stage -/
  s : StageRec
  /-- results of the other units at this stage -/
  u : StageUnits
  /-- the value of an operand reference -/
  rd : Nat → α
  /-- variables that a node depends on, by node -/
  deps : List (List Nat)
  /-- the variables that count -/
  live : Nat → Bool

/-- The variables along which derivatives are taken, and those of them that each node depends on (R60). -/
structure Along where
  /-- the variables that count -/
  live : Nat → Bool
  /-- by node -/
  deps : List (List Nat)
/-- Every variable, or those not pinned. -/
def alongOf (im : Image) (pinned : Bool) : Along :=
  let live (v : Nat) : Bool := pinned || !im.pinnedVar v
  ⟨live, (allDeps im).map (fun d => d.1.filter live)⟩

/-- Something that an operand names depends on a variable of the system. -/
def SweepIn.moves (x : SweepIn α) (r : Nat) : Bool :=
  if r = noneRef then false
  else match r / 2 ^ 28 with
    | 0 => !(x.deps.getD (r % 2 ^ 28) []).isEmpty
    | 1 => x.live (r % 2 ^ 28)
    | _ => false

/-- Contributions gathered so far, by operand reference; those of a later node stand behind those of an earlier one. -/
abbrev Contribs (α : Type) := List (Nat × List α)
/-- Add contributions in front. -/
def Contribs.push (l : Contribs α) (r : Nat) (xs : List α) : Contribs α :=
  if l.any (fun e => e.1 == r) then l.map (fun e => if e.1 == r then (e.1, xs ++ e.2) else e) else l ++ [(r, xs)]
/-- The contributions to one reference. -/
def Contribs.of (l : Contribs α) (r : Nat) : List α := ((l.find? (fun e => e.1 == r)).map Prod.snd).getD []

/-- What node `n` hands on to its operands where the derivative with respect to it is `bar`. -/
def handOn (sw : Sweep α) (x : SweepIn α) (n : NodeRec) (i : Nat) (bar : α) : FlM (List (Nat × α)) := do
  let o := sw.o
  let times (f : Fac α) : FlM (Option α) := match f with
    | .zero => pure none
    | .one => pure (some bar)
    | .minus => pure (some (o.neg bar))
    | .val y => do let z ← o.mul bar y; pure (some z)
  let weigh (rs : List (Nat × W64)) : FlM (List (Nat × α)) :=
    (rs.filter (fun e => x.moves e.1)).mapM (fun (r, w) => do let z ← o.mul bar (o.lit w); pure (r, z))
  if n.op = 0x40 then
    weigh ((x.u.jvars.map (fun v => v + 2 ^ 28)).zip (x.u.jrows.getD (x.u.qs.idxOf (jduQuery n)) []))
  else if n.op = 0x41 then
    match x.im.findModel (n.imm % 2 ^ 32), x.u.model (n.imm % 2 ^ 32) with
    | some m, some r => weigh ((r.2.getD (n.imm / 2 ^ 32) []).zipIdx.map (fun (w, j) => (x.s.nodeFirst + m.inFirst + j, w)))
    | _, _ => pure []
  else do
    let l ← (([n.a, n.b, n.c].zipIdx).filter (fun e => x.moves e.1)).mapM (fun (r, slot) => do
      let f ← slotFac sw x.im n slot (x.rd i) (x.rd n.a) (x.rd n.b)
      let y ← times f
      pure (r, y))
    pure (l.filterMap (fun e => e.2.map (fun y => (e.1, y))))

/-- The reverse sweep over the nodes of a stage that reach `seeds`, from the last to the first: the derivative of the sum of the seed nodes
along each variable, ascending. -/
def reverseSweep (sw : Sweep α) (x : SweepIn α) (phase : Nat) (seeds : List Nat) : FlM (List (Nat × α)) := do
  let need := needsFrom x.im x.s seeds
  let nodes := ((x.im.stageNodes x.s).filter (fun e => need.contains e.2 && !(x.deps.getD e.2 []).isEmpty)).reverse
  let out ← nodes.foldlM (fun (cs : Contribs α) (n, i) => do
    let mine := (if seeds.contains i then [sw.o.lit one64] else []) ++ cs.of i
    match mine with
    | [] => pure cs
    | _ => do
      atSite (fun _ => { unit := 0, phase, stage := x.s.stage, location := i })
      let bar ← match mine with | [b] => pure b | l => sw.sum l
      let hs ← handOn sw x n i bar
      pure (hs.reverse.foldl (fun cs h => cs.push h.1 [h.2]) cs)) []
  let vs := (out.filter (fun e => e.1 / 2 ^ 28 == 1)).foldl (fun l e => Image.insBy Prod.fst e l) []
  vs.mapM (fun (r, l) => do let v ← (match l with | [y] => pure y | _ => sw.sum l); pure (r % 2 ^ 28, v))

/-- The first-derivative sweep at a stage of an evaluated point. -/
def plainIn (env : GraphEnv) (al : Along) (vars : List W64) (g : GraphVals) (s : StageRec) : SweepIn W64 :=
  ⟨env.im, s, g.units.getD s.stage {}, operand env vars g.vals, al.deps, al.live⟩

/-- The gradient of one node along its variables. -/
def nodeGrad (env : GraphEnv) (al : Along) (vars : List W64) (g : GraphVals) (s : StageRec) (i : Nat) : FlM (List (Nat × W64)) :=
  reverseSweep plainSweep (plainIn env al vars g s) 1 [i]

/-- The COST nodes of a stage. -/
def costNodes (im : Image) (s : StageRec) : List Nat := ((im.stageNodes s).filter (fun n => n.1.role == 3)).map Prod.snd

/-- The gradient of a stage's cost. -/
def costGrad (env : GraphEnv) (al : Along) (vars : List W64) (g : GraphVals) (s : StageRec) : FlM (List (Nat × W64)) :=
  reverseSweep plainSweep (plainIn env al vars g s) 1 (costNodes env.im s)

/-- The tangent of a node along a variable, from those of the nodes before it: its derivatives times its operands' tangents, in operand order. -/
def nodeTangent (x : SweepIn W64) (tan : Nat → Option W64) (n : NodeRec) (i : Nat) : FlM (Option W64) := do
  if n.op = 0x40 then
    (x.u.jvars.zip (x.u.jrows.getD (x.u.qs.idxOf (jduQuery n)) [])).foldlM (fun acc (v, w) => tFma w (tan (v + 2 ^ 28)) acc) none
  else if n.op = 0x41 then
    match x.im.findModel (n.imm % 2 ^ 32), x.u.model (n.imm % 2 ^ 32) with
    | some m, some r => do
      let ts := (r.2.getD (n.imm / 2 ^ 32) []).zipIdx.filterMap (fun (w, j) => (tan (x.s.nodeFirst + m.inFirst + j)).map (fun t => (w, t)))
      if ts.isEmpty then pure none else do let v ← dotR ts; pure (some v)
    | _, _ => pure none
  else
    (([n.a, n.b, n.c].zipIdx).filter (fun e => e.1 != noneRef)).foldlM (fun acc (r, slot) => do
      match tan r with
      | none => pure acc
      | some t => do
        let f ← silently (slotFac plainSweep x.im n slot (x.rd i) (x.rd n.a) (x.rd n.b))
        match f with
        | .zero => pure acc
        | .one => tAdd acc (some t)
        | .minus => tAdd acc (some (negW t))
        | .val y => tFma y (some t) acc) none

/-- The tangents along variable `v` of the nodes that the seeds need. -/
def forwardTangents (x : SweepIn W64) (seeds : List Nat) (v : Nat) : FlM (List (Nat × W64)) := do
  let need := needsFrom x.im x.s seeds
  ((x.im.stageNodes x.s).filter (fun e => need.contains e.2 && (x.deps.getD e.2 []).contains v)).foldlM (fun (l : List (Nat × W64)) (n, i) => do
    atSite (fun _ => { unit := 0, phase := 2, stage := x.s.stage, location := i })
    let tan (r : Nat) : Option W64 := if r = v + 2 ^ 28 then some one64 else (l.find? (fun e => e.1 == r)).map Prod.snd
    let t ← nodeTangent x tan n i
    pure (match t with | some t => l ++ [(i, t)] | none => l)) []

/-- The second derivatives of a stage's cost (R99): for each variable of it, one column of tangents of its gradient; the lower triangle counts. -/
def costHess (env : GraphEnv) (al : Along) (vars : List W64) (g : GraphVals) (s : StageRec) : FlM (List (Nat × Nat × W64)) := do
  let x := plainIn env al vars g s
  let seeds := costNodes env.im s
  let vs := ((seeds.flatMap (fun i => al.deps.getD i [])).eraseDups).foldl (fun l v => Image.insBy id v l) []
  let cols ← vs.mapM (fun v => do
    let ts ← forwardTangents x seeds v
    let tan (r : Nat) : Option W64 := if r = v + 2 ^ 28 then some one64 else (ts.find? (fun e => e.1 == r)).map Prod.snd
    let col ← reverseSweep dualSweep { im := x.im, s := x.s, u := x.u, rd := fun r => (x.rd r, tan r), deps := x.deps, live := x.live } 2 seeds
    pure (col.filterMap (fun (r, d) => if v ≤ r then d.2.map (fun t => (r, v, t)) else none)))
  pure (cols.flatMap id)

/-- The derivatives of an evaluated point (R99, R131, R146): cost gradient by variable, a row for each equality and each CONSTRAINT and
MEASUREMENT node, and the second derivatives of the cost. -/
structure Derivs where
  /-- cost gradient: variable and its terms, one for each stage whose cost has it -/
  grad : List (Nat × List W64) := []
  /-- rows of the NEXT_STATE nodes in the order of R95 -/
  eqs : List (List (Nat × W64)) := []
  /-- rows of CONSTRAINT nodes, by node -/
  cons : List (Nat × List (Nat × W64)) := []
  /-- rows of MEASUREMENT nodes, by node -/
  meas : List (Nat × List (Nat × W64)) := []
  /-- second derivatives of the cost: row, column, terms by stage; lower triangle -/
  hess : List ((Nat × Nat) × List W64) := []
deriving DecidableEq, Repr, Inhabited

/-- Gather terms by key, keys in order of first appearance. -/
def gather [BEq κ] (l : List (κ × W64)) : List (κ × List W64) :=
  l.foldl (fun (a : List (κ × List W64)) e =>
    if a.any (fun x => x.1 == e.1) then a.map (fun x => if x.1 == e.1 then (x.1, x.2 ++ [e.2]) else x) else a ++ [(e.1, [e.2])]) []

/-- The rows of the nodes with a role, stage by stage in ROLE_INDEX order. -/
def roleRows (env : GraphEnv) (al : Along) (vars : List W64) (g : GraphVals) (role : Nat) : FlM (List (Nat × List (Nat × W64))) := do
  let l ← env.im.stages.mapM (fun s => (env.im.roleNodes s role).mapM (fun n => do let r ← nodeGrad env al vars g s n.2; pure (n.2, r)))
  pure (l.flatMap id)

/-- The gradient of the stage costs. -/
def gradAt (env : GraphEnv) (al : Along) (vars : List W64) (g : GraphVals) : FlM (List (Nat × List W64)) := do
  let gs ← env.im.stages.mapM (costGrad env al vars g)
  pure (gather (gs.flatMap id))

/-- All derivatives at an evaluated point along the variables of `deps`. -/
def derivsAt (env : GraphEnv) (al : Along) (vars : List W64) (g : GraphVals) : FlM Derivs := do
  let grad ← gradAt env al vars g
  let eqs ← roleRows env al vars g 1
  let cons ← roleRows env al vars g 2
  let meas ← roleRows env al vars g 4
  let hs ← env.im.stages.mapM (costHess env al vars g)
  pure ⟨grad, eqs.map Prod.snd, cons, meas, gather ((hs.flatMap id).map (fun (r, c, v) => ((r, c), v)))⟩

end Sys2Proof.Machine
end

