-- ==== Sys2Proof/Machine/Linalg.lean ====
section
/-! DEFINITION. Factorisations and solves of the solver clusters (R102, R104, Table 4-3): sparse LDLᵀ with static pivoting in a given order,
Cholesky, the stage-wise Riccati recursion, the partitioned horizon and the condensed dense system. Sums have their terms in the order of R255
(log entry 125). -/
namespace Sys2Proof.Machine

/-- A sparse row: places ascending, with their entries; a place that is absent is a structural zero. -/
abbrev Row := List (Nat × W64)
/-- A sparse symmetric matrix by its lower triangle. -/
abbrev Sym := List ((Nat × Nat) × W64)

/-- An entry of a row. -/
def Row.at (r : Row) (j : Nat) : Option W64 := (r.find? (fun e => e.1 == j)).map Prod.snd
/-- An entry of a symmetric matrix. -/
def Sym.at (m : Sym) (i j : Nat) : Option W64 :=
  let k := if j ≤ i then (i, j) else (j, i)
  (m.find? (fun e => e.1 == k)).map Prod.snd
/-- The pairs of entries that two rows share. -/
def Row.meet (a b : Row) : List (W64 × W64) := a.filterMap (fun e => (Row.at b e.1).map (fun y => (e.2, y)))

/-- One reduction of values and products, values first (R251, R254). -/
def linSum (vs : List W64) (ps : List (W64 × W64)) : FlM W64 := do
  let qs ← ps.mapM (fun x => nMul x.1 x.2)
  reduce (vs.map (fun v => decodeF f64 v.toNat) ++ ps.map (fun x => exactMul x.1 x.2)) (vs ++ qs)
/-- The same less the products. -/
def linSub (vs : List W64) (ps : List (W64 × W64)) : FlM W64 := linSum vs (ps.map (fun x => (negW x.1, x.2)))
/-- A row times a vector. -/
def Row.mul (r : Row) (x : List W64) : FlM W64 := dotR (r.map (fun e => (e.2, x.getD e.1 0)))
/-- A symmetric matrix times a vector: each element one reduction in ascending column order (R256). -/
def Sym.mulVec (m : Sym) (n : Nat) (x : List W64) : FlM (List W64) :=
  (List.range n).mapM (fun i => dotR ((List.range n).filterMap (fun j => (m.at i j).map (fun v => (v, x.getD j 0)))))

/-- A pivot as R104 takes it: its value, whether it was replaced; none for a breakdown. `sign`: a primal pivot, expected positive. -/
def pivot (sign : Bool) (orig d : W64) : FlM (Option (W64 × Bool)) := do
  if !isFin64 d || (if sign then ltW d 0 else ltW 0 d) then pure none
  else do
    let b ← nAdd one64 (absW orig)
    let b ← nMul (powW (-40)) b
    pure (some (if ltW (absW d) b then (if sign then b else negW b, true) else (d, false)))

/-- An LDLᵀ factor in elimination order. -/
structure Ldl where
  /-- rows of L left of the diagonal -/
  l : List Row := []
  /-- D -/
  d : List W64 := []
  /-- a pivot was replaced -/
  patched : Bool := false
deriving DecidableEq, Repr, Inhabited

/-- One row of the factorisation: the row of A left of the diagonal, its diagonal as regularised and before, the expected sign. -/
def ldlRow (f : Ldl) (a : Row) (diag orig : W64) (sign : Bool) : FlM (Option Ldl) := do
  let n := f.d.length
  let vl ← (List.range n).foldlM (fun (acc : Row × Row) j => do
    let ps := Row.meet acc.1 (f.l.getD j [])
    match a.at j, ps with
    | none, [] => pure acc
    | x, ps => do
      let v ← linSub x.toList ps
      let l ← nDiv v (f.d.getD j 0)
      pure (acc.1 ++ [(j, v)], acc.2 ++ [(j, l)])) (([] : Row), ([] : Row))
  let d ← linSub [diag] (Row.meet vl.1 vl.2)
  let p ← pivot sign orig d
  match p with
  | none => pure none
  | some (d, r) =>
    if vl.2.any (fun e => !isFin64 e.2) then pure none
    else pure (some ⟨f.l ++ [vl.2], f.d ++ [d], f.patched || r⟩)

/-- LDLᵀ of a quasi-definite matrix in the elimination order `ord`: rows below `np` are primal, the rest dual (R104). -/
def ldlt (m : Sym) (np : Nat) (ord : List Nat) (delta : W64) : FlM (Option Ldl) :=
  (ord.zipIdx).foldlM (fun (f : Option Ldl) (i, k) => match f with
    | none => pure none
    | some f => do
      let a := (ord.take k).zipIdx.filterMap (fun (j, c) => (m.at i j).map (fun v => (c, v)))
      let o := (m.at i i).getD 0
      let diag ← if i < np then nAdd o delta else nSub o delta
      ldlRow f a diag o (decide (i < np))) (some {})

/-- Solve with an LDLᵀ factor, in elimination order. -/
def Ldl.solve (f : Ldl) (b : List W64) : FlM (List W64) := do
  let n := f.d.length
  let y ← (b.zip f.l).foldlM (fun (y : List W64) (v, r) => do
    let s ← linSub [v] (r.map (fun e => (e.2, y.getD e.1 0)))
    pure (y ++ [s])) []
  let z ← (y.zip f.d).mapM (fun (v, d) => nDiv v d)
  (List.range n).reverse.foldlM (fun (x : List W64) i => do
    let ps := (List.range n).filterMap (fun j => if i < j then (Row.at (f.l.getD j []) i).map (fun l => (l, x.getD (j - i - 1) 0)) else none)
    let s ← linSub [z.getD i 0] ps
    pure (s :: x)) []

/-- Put a list in elimination order, and back. -/
def permute (ord : List Nat) (b : List W64) : List W64 := ord.map (fun i => b.getD i 0)
/-- Back from elimination order. -/
def unpermute (ord : List Nat) (x : List W64) : List W64 := (List.range ord.length).map (fun i => x.getD (ord.idxOf i) 0)

/-- Two steps of iterative refinement against the system itself (R104). -/
def refine (mul : List W64 → FlM (List W64)) (solve : List W64 → FlM (List W64)) (b : List W64) : FlM (List W64) := do
  let step (x : List W64) : FlM (List W64) := do
    let k ← mul x
    let r ← (b.zip k).mapM (fun (u, v) => nSub u v)
    let d ← solve r
    (x.zip d).mapM (fun (u, v) => nAdd u v)
  let x ← solve b
  let x ← step x
  step x

/-- Attempts at a factorisation (R104): each breakdown multiplies δ by 2^8; none after the fifth. -/
def attempts (f : W64 → FlM (Option φ)) : Nat → FlM (Option φ)
  | 0 => pure none
  | n + 1 => do
    let b := (← get).breaks
    if 5 ≤ b then pure none
    else do
      atAttempt (b + 1)
      let r ← f (powW (8 * (b : Int) - 30))
      match r with
      | some x => do atAttempt 0; pure (some x)
      | none => do
        modify (fun s => { s with breaks := s.breaks + 1 })
        attempts f n

/-- A Cholesky factor over a list of places: rows of L left of the diagonal, and the reciprocals of its diagonal. -/
structure Chol where
  /-- the places in order -/
  idx : List Nat := []
  /-- rows of L left of the diagonal, by place -/
  l : List Row := []
  /-- reciprocals of the diagonal -/
  r : List W64 := []
  /-- a pivot was replaced -/
  patched : Bool := false
deriving DecidableEq, Repr, Inhabited

/-- Cholesky of the block of a symmetric matrix at places `idx`: a square root and a reciprocal for each pivot. -/
def cholesky (m : Sym) (idx : List Nat) : FlM (Option Chol) :=
  idx.foldlM (fun (f : Option Chol) i => match f with
    | none => pure none
    | some f => do
      let row ← (f.idx.zip (f.l.zip f.r)).foldlM (fun (acc : Row) (j, lj, rj) => do
        let ps := Row.meet acc lj
        match m.at i j, ps with
        | none, [] => pure acc
        | x, ps => do
          let v ← linSub x.toList ps
          let l ← nMul v rj
          pure (acc ++ [(j, l)])) ([] : Row)
      let o := (m.at i i).getD 0
      let d ← linSub [o] (row.map (fun e => (e.2, e.2)))
      let p ← pivot true o d
      match p with
      | none => pure none
      | some (d, rep) => do
        let q ← nSqrt d
        let r ← nDiv one64 q
        if row.any (fun e => !isFin64 e.2) || !isFin64 r then pure none
        else pure (some ⟨f.idx ++ [i], f.l ++ [row], f.r ++ [r], f.patched || rep⟩)) (some {})

/-- L⁻¹ b, b and the answer by place. -/
def Chol.forward (f : Chol) (b : Row) : FlM Row :=
  (f.idx.zip (f.l.zip f.r)).foldlM (fun (y : Row) (i, l, r) => do
    let ps := Row.meet l y
    match b.at i, ps with
    | none, [] => pure y
    | x, ps => do
      let s ← linSub x.toList ps
      let v ← nMul s r
      pure (y ++ [(i, v)])) ([] : Row)
/-- L⁻ᵀ b. -/
def Chol.backward (f : Chol) (b : Row) : FlM Row :=
  (f.idx.zip f.r).reverse.foldlM (fun (x : Row) (i, r) => do
    let ps := x.filterMap (fun e => (Row.at (f.l.getD (f.idx.idxOf e.1) []) i).map (fun l => (l, e.2)))
    let s ← linSub (b.at i).toList ps
    let v ← nMul s r
    pure ((i, v) :: x)) ([] : Row)

/-- An equality of the system: its row, the variable that a NEXT_STATE node sets where it is free, the stage of the node. -/
structure EqRow where
  /-- row over the places -/
  row : Row := []
  /-- place of the next-stage state, entry 1 of the row -/
  tgt : Option Nat := none
  /-- stage of the NEXT_STATE node -/
  stage : Nat := 0
deriving DecidableEq, Repr, Inhabited

/-- A Newton system [[H, Eᵀ], [E, 0]] over the places of the free variables. -/
structure Kkt where
  /-- number of places -/
  n : Nat := 0
  /-- stage of each place -/
  stage : List Nat := []
  /-- the place belongs to a STATE block -/
  state : List Bool := []
  /-- H with the diagonal of the eliminated inequalities -/
  h : Sym := []
  /-- E -/
  eqs : List EqRow := []
deriving DecidableEq, Repr, Inhabited

/-- The whole matrix: primal places first, then a row for each equality. -/
def Kkt.full (k : Kkt) : Sym :=
  k.h ++ (k.eqs.zipIdx).flatMap (fun (e, i) => e.row.map (fun (j, v) => ((k.n + i, j), v)))
/-- Places of a stage. -/
def Kkt.places (k : Kkt) (s : Nat) : List Nat := (List.range k.n).filter (fun i => k.stage.getD i 0 == s)

/-- A solver of a factored system: right sides of the primal and of the dual rows to their unknowns. -/
abbrev KktSolve := List W64 → List W64 → FlM (List W64 × List W64)

/-- A solver from a solver of the whole system, refined where a pivot was replaced. -/
def wholeSolve (k : Kkt) (patched : Bool) (solve : List W64 → FlM (List W64)) : KktSolve := fun b1 b2 => do
  let x ← if patched then refine (Sym.mulVec k.full (k.n + k.eqs.length)) solve (b1 ++ b2) else solve (b1 ++ b2)
  pure (x.take k.n, x.drop k.n)

/-- LDLᵀ of the whole system in an elimination order. -/
def ldlSolver (k : Kkt) (ord : List Nat) : FlM (Option KktSolve) := do
  let f ← attempts (ldlt k.full k.n ord) 5
  pure (f.map (fun f => wholeSolve k f.patched (fun b => do let x ← f.solve (permute ord b); pure (unpermute ord x))))

/-- A permutation of `n` rows out of any list: first occurrences in order, then the rows it leaves out. -/
def orderOf (n : Nat) (l : List Nat) : List Nat :=
  let a := (l.filter (fun i => decide (i < n))).eraseDups
  a ++ (List.range n).filter (fun i => !a.contains i)

/-- The segment of a stage (R102): the first N mod P segments hold one stage more than the others. -/
def segmentOf (n p k : Nat) : Nat :=
  if p = 0 then 0
  else
    let big := ceilDiv n p
    let m := n % p
    if k < m * big then k / big else m + (k - m * big) / max (n / p) 1
/-- First stage of a segment (R102). -/
def segmentStart (n p s : Nat) : Nat := min s (n % p) * ceilDiv n p + (s - min s (n % p)) * (n / p)

/-- The order of the partitioned system: each segment's stages condensed, then the boundary states, which are the STATE variables of the first
stage of each segment but segment 0. -/
def segmentOrder (k : Kkt) (n p : Nat) : List Nat :=
  let edge (i : Nat) : Bool := k.state.getD i false && (List.range p).any (fun s => s != 0 && segmentStart n p s == k.stage.getD i 0)
  let inner := (List.range p).flatMap (fun s => ((List.range n).filter (fun j => segmentOf n p j == s)).flatMap (fun j =>
    (k.places j).filter (fun i => !edge i) ++ (List.range k.eqs.length).filterMap (fun e => if (k.eqs.getD e {}).stage = j then some (k.n + e) else none)))
  orderOf (k.n + k.eqs.length) (inner ++ (List.range k.n).filter edge)

/-- One stage of the Riccati recursion as factored. -/
structure RicStage where
  /-- equalities that set the next stage's free states, by number -/
  next : List Nat := []
  /-- equalities of the stage whose state is pinned -/
  hard : List Nat := []
  /-- places eliminated at this stage -/
  us : List Nat := []
  /-- places its cost-to-go ranges over -/
  ss : List Nat := []
  /-- factor of the input block -/
  chol : Chol := {}
  /-- L⁻¹ times the coupling block, one row for each place of `ss` -/
  y : List (Nat × Row) := []
  /-- cost-to-go of the next stage -/
  p : Sym := []
  /-- places that the next stage's cost-to-go ranges over -/
  ps : List Nat := []
deriving DecidableEq, Repr, Inhabited

/-- How the places of the next cost-to-go depend on this stage's: a state by its NEXT_STATE row, any other place by itself. -/
def Kkt.onto (k : Kkt) (i : Nat) : Row :=
  match k.eqs.find? (fun e => e.tgt == some i) with
  | some e => (e.row.filter (fun x => x.1 != i)).map (fun (j, v) => (j, negW v))
  | none => [(i, one64)]

/-- The block of a stage (R102's text): its own cost with the next stage's cost-to-go carried back, and the equalities that set no free state,
each eliminated through its dual diagonal −δ. -/
def ricBlock (k : Kkt) (s : Nat) (delta : W64) (nx : Sym) (ps : List Nat) (vars : List Nat) (hard : List Nat) : FlM Sym := do
  let mx (i j : Nat) : Nat := max (k.stage.getD i 0) (k.stage.getD j 0)
  let t (i : Nat) : Row := if k.stage.getD i 0 = s + 1 then k.onto i else [(i, one64)]
  -- the rows of P T
  let pt ← ps.mapM (fun i => do
    let r ← vars.mapM (fun b => do
      let terms := ps.filterMap (fun j => match nx.at i j, (t j).at b with | some x, some y => some (x, y) | _, _ => none)
      if terms.isEmpty then pure none else do let v ← dotR terms; pure (some (b, v)))
    pure (i, r.filterMap id))
  let inv ← if hard.isEmpty then pure 0 else nDiv one64 delta
  let cells ← vars.mapM (fun a => (vars.filter (fun b => b ≤ a)).mapM (fun b => do
    let own ← match (if mx a b = s then k.h.at a b else none) with
      | none => if a = b && k.stage.getD a 0 == s then pure [delta] else pure []
      | some x => if a = b then do let y ← nAdd x delta; pure [y] else pure [x]
    let back := pt.filterMap (fun (i, r) => match (t i).at a, Row.at r b with | some x, some y => some (x, y) | _, _ => none)
    let rows := hard.filterMap (fun e => match Row.at (k.eqs.getD e {}).row a, Row.at (k.eqs.getD e {}).row b with | some x, some y => some (x, y) | _, _ => none)
    let pen ← rows.mapM (fun (x, y) => do let z ← nMul x inv; pure (z, y))
    if own.isEmpty && back.isEmpty && pen.isEmpty then pure none
    else do
      let v ← linSum own (back ++ pen)
      pure (some ((a, b), v))))
  pure ((cells.flatMap id).filterMap id)

/-- The backward recursion over the stages from `s` down (R100, R102's text). -/
def riccati (k : Kkt) (delta : W64) : Nat → Sym → List Nat → FlM (Option (List RicStage))
  | 0, _, _ => pure (some [])
  | s + 1, nx, ps => do
    let here := k.places s
    let prev := if s = 0 then [] else k.places (s - 1)
    let eqsHere := (List.range k.eqs.length).filter (fun e => (k.eqs.getD e {}).stage == s)
    let next := eqsHere.filter (fun e => (k.eqs.getD e {}).tgt.isSome)
    let hard := eqsHere.filter (fun e => (k.eqs.getD e {}).tgt.isNone)
    let us := if s = 0 then here else here.filter (fun i => !k.state.getD i false)
    let st := if s = 0 then [] else here.filter (fun i => k.state.getD i false)
    let ss := prev ++ st
    let w ← ricBlock k s delta nx ps (prev ++ here) hard
    let c ← cholesky w us
    match c with
    | none => pure none
    | some c => do
      let y ← ss.mapM (fun i => do
        let b := us.filterMap (fun u => (w.at u i).map (fun v => (u, v)))
        let r ← if b.isEmpty then pure [] else c.forward b
        pure (i, r))
      let p ← ss.mapM (fun a => (ss.filter (fun b => b ≤ a)).mapM (fun b => do
        let ps := Row.meet ((y.find? (fun e => e.1 == a)).map Prod.snd |>.getD []) ((y.find? (fun e => e.1 == b)).map Prod.snd |>.getD [])
        match w.at a b, ps with
        | none, [] => pure none
        | x, ps => do let v ← linSub x.toList ps; pure (some ((a, b), v))))
      let p := (p.flatMap id).filterMap id
      let used := ss.filter (fun i => p.any (fun e => e.1.1 == i || e.1.2 == i))
      if p.any (fun e => !isFin64 e.2) then pure none
      else do
        let rest ← riccati k delta s p used
        pure (rest.map (fun l => ⟨next, hard, us, ss, c, y, nx, ps⟩ :: l))

/-- The vectors of the backward pass at one stage: from the next cost-to-go's linear term to this stage's, with L⁻¹ of the input part. -/
def ricBack (k : Kkt) (delta : W64) (b1 b2 : List W64) (s : Nat) (f : RicStage) (nx : Row) : FlM (Row × Row) := do
  let r2 (i : Nat) : Option W64 := if k.stage.getD i 0 = s + 1 then (k.eqs.findIdx? (fun e => e.tgt == some i)).map (fun e => b2.getD e 0) else none
  let t (i : Nat) : Row := if k.stage.getD i 0 = s + 1 then k.onto i else [(i, one64)]
  let v ← f.ps.mapM (fun i => do
    let terms := f.ps.filterMap (fun j => match f.p.at i j, r2 j with | some x, some y => some (x, y) | _, _ => none)
    let z ← linSum (Row.at nx i).toList terms
    pure (i, z))
  let inv ← if f.hard.isEmpty then pure 0 else nDiv one64 delta
  let pen ← f.hard.mapM (fun e => do let z ← nMul (b2.getD e 0) inv; pure (e, z))
  let w ← (f.ss ++ f.us).mapM (fun a => do
    let own := if k.stage.getD a 0 = s then [negW (b1.getD a 0)] else []
    let ts := v.filterMap (fun (i, z) => ((t i).at a).map (fun x => (x, z)))
    let hs := pen.filterMap (fun (e, z) => (Row.at (k.eqs.getD e {}).row a).map (fun x => (negW x, z)))
    let z ← linSum own (ts ++ hs)
    pure (a, z))
  let l ← f.chol.forward (w.filter (fun e => f.us.contains e.1))
  let p ← f.ss.mapM (fun i => do
    let z ← linSub (Row.at w i).toList (Row.meet ((f.y.find? (fun e => e.1 == i)).map Prod.snd |>.getD []) l)
    pure (i, z))
  pure (p, l)

/-- Forward substitution at one stage: its inputs, the next stage's free states, the multipliers of its equalities. -/
def ricForward (k : Kkt) (delta : W64) (b2 : List W64) (f : RicStage) (nx l cur : Row) : FlM (Row × Row) := do
  let row (e : Nat) : Row := (k.eqs.getD e {}).row
  let along (c : Row) (x : Row) : List (W64 × W64) := c.filterMap (fun (j, v) => (Row.at x j).map (fun y => (v, y)))
  let m ← f.us.mapM (fun u => do
    let ps := f.y.filterMap (fun (i, r) => match Row.at r u, Row.at cur i with | some a, some b => some (a, b) | _, _ => none)
    let z ← linSum (Row.at l u).toList ps
    pure (u, negW z))
  let du ← f.chol.backward m
  let cur := cur ++ du
  let ns ← f.next.mapM (fun e => do
    let i := ((k.eqs.getD e {}).tgt).getD 0
    let z ← linSum [b2.getD e 0] (along (k.onto i) cur)
    pure (e, i, z))
  let cur := cur ++ ns.map (fun x => x.2)
  let ys ← ns.mapM (fun (e, i, _) => do
    let g ← linSum (Row.at nx i).toList (f.ps.filterMap (fun j => match f.p.at i j, Row.at cur j with | some a, some b => some (a, b) | _, _ => none))
    pure (e, negW g))
  let hs ← f.hard.mapM (fun e => do
    let r ← linSum [negW (b2.getD e 0)] (along (row e) cur)
    let y ← nDiv r delta
    pure (e, y))
  pure (cur, ys ++ hs)

/-- Solve with the recursion's factors (R100): the vectors backward, then forward substitution through the stages. `fs` holds stage 0 last. -/
def ricSolve (k : Kkt) (delta : W64) (fs : List RicStage) : KktSolve := fun b1 b2 => do
  let n := fs.length
  let back ← (fs.zipIdx).foldlM (fun (acc : Row × List (Row × Row)) (f, q) => do
    let r ← ricBack k delta b1 b2 (n - 1 - q) f acc.1
    pure (r.1, (acc.1, r.2) :: acc.2)) (([] : Row), ([] : List (Row × Row)))
  let fwd ← (fs.reverse.zip back.2).foldlM (fun (x : Row × Row) (f, nx, l) => do
    let r ← ricForward k delta b2 f nx l x.1
    pure (r.1, x.2 ++ r.2)) (([] : Row), ([] : Row))
  pure ((List.range k.n).map (fun i => (Row.at fwd.1 i).getD 0), (List.range k.eqs.length).map (fun e => (Row.at fwd.2 e).getD 0))

/-- A solver refined against the whole system where a pivot was replaced (R104). -/
def refinedBy (k : Kkt) (patched : Bool) (f : KktSolve) : KktSolve :=
  wholeSolve k patched (fun b => do let x ← f (b.take k.n) (b.drop k.n); pure (x.1 ++ x.2))

/-- METHOD 0: the stage-wise Riccati recursion over `n` stages. -/
def ricSolver (k : Kkt) (n : Nat) : FlM (Option KktSolve) :=
  attempts (fun delta => do
    let fs ← riccati k delta n [] []
    pure (fs.map (fun fs => refinedBy k (fs.any (fun f => f.chol.patched)) (ricSolve k delta fs)))) 5

/-- How every place depends on the independent ones once the free next-stage states are eliminated, stage by stage (METHOD 3). -/
def condense (k : Kkt) : FlM (List (Nat × Row)) :=
  let free := (List.range k.n).filter (fun i => !k.eqs.any (fun e => e.tgt == some i))
  (k.eqs.filter (fun e => e.tgt.isSome)).foldlM (fun (ts : List (Nat × Row)) e => do
    let i := e.tgt.getD 0
    let on := k.onto i
    let r ← free.mapM (fun b => do
      let terms := on.filterMap (fun (j, c) => ((ts.find? (fun x => x.1 == j)).bind (fun x => Row.at x.2 b)).map (fun y => (c, y)))
      if terms.isEmpty then pure none else do let v ← dotR terms; pure (some (b, v)))
    pure (ts ++ [(i, r.filterMap id)])) (free.map (fun i => (i, [(i, one64)])))

/-- The row of a place over the independent ones. -/
def rowOf (ts : List (Nat × Row)) (i : Nat) : Row := ((ts.find? (fun x => x.1 == i)).map Prod.snd).getD []

/-- The reduced matrix of METHOD 3: Tᵀ (H + δ) T over the independent places, with the equalities that set no free state each eliminated
through its dual diagonal −δ. -/
def reduced (k : Kkt) (hat : Nat → Nat → Option W64) (ts : List (Nat × Row)) (free : List Nat) (delta : W64) : FlM Sym := do
  let inv ← nDiv one64 delta
  let ht ← (List.range k.n).mapM (fun i => do
    let r ← free.mapM (fun b => do
      let terms := (List.range k.n).filterMap (fun j => match hat i j, Row.at (rowOf ts j) b with | some x, some y => some (x, y) | _, _ => none)
      if terms.isEmpty then pure none else do let v ← dotR terms; pure (some (b, v)))
    pure (i, r.filterMap id))
  let hard ← (k.eqs.filter (fun e => e.tgt.isNone)).mapM (fun e => free.mapM (fun b => do
    let terms := e.row.filterMap (fun (j, c) => (Row.at (rowOf ts j) b).map (fun y => (c, y)))
    if terms.isEmpty then pure none else do let v ← dotR terms; pure (some (b, v))))
  let cells ← free.mapM (fun a => (free.filter (fun b => b ≤ a)).mapM (fun b => do
    let t1 := ht.filterMap (fun (i, r) => match Row.at (rowOf ts i) a, Row.at r b with | some x, some y => some (x, y) | _, _ => none)
    let t2 ← (hard.map (fun r => r.filterMap id)).filterMapM (fun r => match Row.at r a, Row.at r b with
      | some x, some y => do let z ← nMul x inv; pure (some (z, y))
      | _, _ => pure none)
    if t1.isEmpty && t2.isEmpty then pure none else do let v ← dotR (t1 ++ t2); pure (some ((a, b), v))))
  pure ((cells.flatMap id).filterMap id)

/-- Solve the condensed system: a particular point for the right sides, the reduced solve, then the multipliers backward. -/
def condSolve (k : Kkt) (hat : Nat → Nat → Option W64) (ts : List (Nat × Row)) (free : List Nat) (delta : W64) (c : Chol) : KktSolve := fun b1 b2 => do
  let tgts := (k.eqs.zipIdx).filter (fun e => e.1.tgt.isSome)
  let hards := (k.eqs.zipIdx).filter (fun e => e.1.tgt.isNone)
  let along (r x : Row) : List (W64 × W64) := r.filterMap (fun (j, v) => (Row.at x j).map (fun y => (v, y)))
  -- the point that meets the eliminated equalities with every independent place 0
  let x0 ← tgts.foldlM (fun (x : Row) (e, q) => do
    let i := e.tgt.getD 0
    let z ← linSum [b2.getD q 0] (along (k.onto i) x)
    pure (x ++ [(i, z)])) ([] : Row)
  let hx (i : Nat) (x : Row) : List (W64 × W64) := (List.range k.n).filterMap (fun j => match hat i j, Row.at x j with | some a, some b => some (a, b) | _, _ => none)
  let g ← (List.range k.n).mapM (fun i => linSub [b1.getD i 0] (hx i x0))
  let hr ← hards.mapM (fun (e, q) => do
    let r ← linSub [b2.getD q 0] (along e.row x0)
    let y ← nDiv r delta
    pure (e.row, y))
  let rhs ← free.mapM (fun b => do
    let t1 := (List.range k.n).filterMap (fun i => (Row.at (rowOf ts i) b).map (fun y => (y, g.getD i 0)))
    let t2 ← hr.filterMapM (fun (row, y) => do
      let d ← dotR (row.filterMap (fun (j, c) => (Row.at (rowOf ts j) b).map (fun z => (c, z))))
      pure (some (d, y)))
    let v ← linSum [] (t1 ++ t2)
    pure (b, v))
  let y ← c.forward rhs
  let w ← c.backward y
  let x ← (List.range k.n).mapM (fun i => do
    let v ← linSum ((Row.at x0 i).toList) (along (rowOf ts i) w)
    pure (i, v))
  let hy ← hards.mapM (fun (e, q) => do
    let r ← linSum [negW (b2.getD q 0)] (along e.row x)
    let v ← nDiv r delta
    pure (q, v))
  let ys ← tgts.reverse.foldlM (fun (acc : Row) (e, q) => do
    let i := e.tgt.getD 0
    let later := acc.filterMap (fun (j, v) => (Row.at (k.eqs.getD j {}).row i).map (fun c => (c, v)))
    let v ← linSub [b1.getD i 0] (hx i x ++ later)
    pure ((q, v) :: acc)) hy
  pure (x.map Prod.snd, (List.range k.eqs.length).map (fun e => (Row.at ys e).getD 0))

/-- METHOD 3: the equalities eliminated, dense Cholesky of the rest. -/
def condSolver (k : Kkt) : FlM (Option KktSolve) := do
  let ts ← condense k
  let free := (List.range k.n).filter (fun i => !k.eqs.any (fun e => e.tgt == some i))
  attempts (fun delta => do
    let hd ← (List.range k.n).mapM (fun i => nAdd ((k.h.at i i).getD 0) delta)
    let hat (i j : Nat) : Option W64 := if i = j then some (hd.getD i 0) else k.h.at i j
    let m ← reduced k hat ts free delta
    let c ← cholesky m free
    pure (c.map (fun c => refinedBy k c.patched (condSolve k hat ts free delta c)))) 5

/-- The solver of a method (Table 4-3): `ord` is METHOD 2's elimination order, `n` the stages, `p` the segments of METHOD 1. -/
def kktSolver (method n p : Nat) (ord : List Nat) (k : Kkt) : FlM (Option KktSolve) :=
  match method with
  | 0 => ricSolver k n
  | 1 => ldlSolver k (segmentOrder k n p)
  | 3 => condSolver k
  | _ => ldlSolver k (orderOf (k.n + k.eqs.length) ord)

end Sys2Proof.Machine
end

