-- ==== Sys2Proof/Machine/Qp.lean ====
section
/-! DEFINITION. The quadratic problem that a method iterates on (R95, R99, R146), and one iteration of the interior-point methods and of ADMM on
it (R100, R106 to R109). What the spec leaves to the plan is the model's (log entry 6). -/
namespace Sys2Proof.Machine

/-- One inequality side of a quadratic problem in the order of R95. -/
structure QSide where
  /-- row over the places -/
  row : Row := []
  /-- upper side -/
  upper : Bool := false
  /-- active in this steep (R95) -/
  active : Bool := true
  /-- bound -/
  bound : W64 := 0
  /-- value at the reference point -/
  g0 : W64 := 0
deriving DecidableEq, Repr, Inhabited

/-- A quadratic problem over the places of the free variables: ½vᵀHv + qᵀv, E v + e = 0, and the sides. -/
structure Qp where
  /-- number of places -/
  n : Nat := 0
  /-- stage of each place -/
  stage : List Nat := []
  /-- the place belongs to a STATE block -/
  state : List Bool := []
  /-- H -/
  hess : Sym := []
  /-- q, the gradient at the reference point -/
  q : List W64 := []
  /-- E -/
  eqs : List EqRow := []
  /-- e, the defects at the reference point -/
  e0 : List W64 := []
  /-- inequality sides -/
  sides : List QSide := []
deriving DecidableEq, Repr, Inhabited

/-- A point of an interior-point method: places, equality multipliers, inequality multipliers and slacks, inactive sides included. -/
structure IpPoint where
  /-- values of the places -/
  v : List W64 := []
  /-- equality multipliers -/
  y : List W64 := []
  /-- inequality multipliers -/
  z : List W64 := []
  /-- slacks -/
  s : List W64 := []
deriving DecidableEq, Repr, Inhabited

/-- The residuals of a point (R96). -/
structure Resid where
  /-- r_p -/
  rp : W64 := 0
  /-- r_d -/
  rd : W64 := 0
  /-- μ -/
  mu : W64 := 0
deriving DecidableEq, Repr, Inhabited

/-- A side's row towards its feasible side: itself for a lower side, negated for an upper one. -/
def QSide.inward (x : QSide) : Row := if x.upper then x.row.map (fun e => (e.1, negW e.2)) else x.row
/-- The value a side bounds, at a point. -/
def QSide.value (x : QSide) (v : List W64) : FlM W64 := if x.row.isEmpty || v.isEmpty then pure x.g0 else linSum [x.g0] (x.row.map (fun e => (e.2, v.getD e.1 0)))
/-- A side's signed distance from its bound, for its value. -/
def QSide.gap (x : QSide) (g : W64) : FlM W64 := if x.upper then nSub x.bound g else nSub g x.bound
/-- The defect of each equality at a point. -/
def Qp.defects (p : Qp) (v : List W64) : FlM (List W64) :=
  (p.eqs.zip p.e0).mapM (fun (e, e0) => if v.isEmpty then pure e0 else linSum [e0] (e.row.map (fun x => (x.2, v.getD x.1 0))))
/-- The signed distances of the active sides at a point, 0 for the others. -/
def Qp.gaps (p : Qp) (v : List W64) : FlM (List W64) :=
  p.sides.mapM (fun x => if x.active then do let g ← x.value v; x.gap g else pure 0)
/-- r_p from defects and signed distances (R96). -/
def Qp.rp (p : Qp) (es gs : List W64) : FlM W64 := residualOf es ((p.sides.zip gs).filterMap (fun (x, g) => if x.active then some (negW g) else none))
/-- The gradient of the Lagrangian at a point (R96): one reduction for each place, the cost first, then equalities, then active sides. An empty `v`
stands for the reference point. -/
def Qp.lagrangian (p : Qp) (v y z : List W64) : FlM (List W64) :=
  (List.range p.n).mapM (fun j => do
    let h := if v.isEmpty then [] else (List.range p.n).filterMap (fun k => (p.hess.at j k).map (fun a => (a, v.getD k 0)))
    let e := (p.eqs.zip y).filterMap (fun (r, m) => (r.row.at j).map (fun a => (a, m)))
    let i := (p.sides.zip z).filterMap (fun (x, m) => if x.active then (x.inward.at j).map (fun a => (negW a, m)) else none)
    linSum [p.q.getD j 0] (h ++ e ++ i))
/-- μ (R96): slack times multiplier over the active sides divided by their number; 0 if there are none. -/
def Qp.mu (p : Qp) (z s : List W64) : FlM W64 := do
  let l := ((p.sides.zip (z.zip s)).filter (fun x => x.1.active)).map Prod.snd
  if l.isEmpty then pure 0
  else do
    let t ← dotR (l.map (fun x => (x.2, x.1)))
    nDiv t (intW l.length)
/-- The residuals of a point of an interior-point method from its defects and distances. -/
def Qp.resid (p : Qp) (es gs : List W64) (x : IpPoint) (ref : Bool) : FlM Resid := do
  let rp ← p.rp es gs
  let g ← p.lagrangian (if ref then [] else x.v) x.y x.z
  let rd ← normInf g
  let mu ← p.mu x.z x.s
  pure ⟨rp, rd, mu⟩

/-- The Newton matrix with the inequalities eliminated (R100 step 1): `w` is multiplier over slack by side. -/
def Qp.newton (p : Qp) (w : List W64) : FlM Kkt := do
  let rows := (p.sides.zip w).filter (fun x => x.1.active)
  let keys := (p.hess.map Prod.fst ++ rows.flatMap (fun (x, _) => x.row.flatMap (fun a => (x.row.filter (fun b => b.1 ≤ a.1)).map (fun b => (a.1, b.1))))).eraseDups
  let h ← keys.mapM (fun (i, j) => do
    let ts ← rows.filterMapM (fun (x, m) => match x.row.at i, x.row.at j with
      | some a, some b => do let c ← nMul m a; pure (some (c, b))
      | _, _ => pure none)
    let v ← linSum (p.hess.at i j).toList ts
    pure ((i, j), v))
  pure ⟨p.n, p.stage, p.state, h, p.eqs⟩

/-- The largest step that keeps non-negative values non-negative: the least ratio over falling ones; +∞ where none falls. -/
def maxStep (vs : List (W64 × W64)) : FlM W64 :=
  vs.foldlM (fun a (s, d) => if ltW d 0 then do let r ← nDiv s (negW d); nMin a r else pure a) inf64

/-- The products Σ over active sides of the inward row times a factor, at one place. -/
def Qp.pull (p : Qp) (ts : List W64) (j : Nat) : List (W64 × W64) :=
  (p.sides.zip ts).filterMap (fun (x, t) => if x.active then (x.inward.at j).map (fun a => (a, t)) else none)

/-- Values for the active sides, 0 for the others. -/
def Qp.onActive (p : Qp) (l : List α) (f : α → FlM W64) : FlM (List W64) :=
  (p.sides.zip l).mapM (fun (x, a) => if x.active then f a else pure 0)

/-- The directions of slacks and multipliers that belong to a direction of the places; `r` is what the slacks lack, `t` what multiplies into the
multipliers' right side. -/
def Qp.sideDirs (p : Qp) (w : List W64) (r : List (List W64)) (t dv : List W64) : FlM (List W64 × List W64) := do
  let ds ← (p.sides.zip r).mapM (fun (x, r) => if x.active then linSum r (x.inward.map (fun e => (e.2, dv.getD e.1 0))) else pure 0)
  let dz ← p.onActive (w.zip (ds.zip t)) (fun (w, d, t) => do let v ← nFma w d t; pure (negW v))
  pure (ds, dz)

/-- One predictor–corrector step (R100) from a point with its defects, distances, Lagrangian gradient and μ; `inner` is the inner iteration of a
subproblem. None where regularisation is exhausted (R104). -/
def Qp.ipmStep (p : Qp) (solver : Kkt → FlM (Option KktSolve)) (inner : Nat) (x : IpPoint) (es gs rd : List W64) (mu : W64) : FlM (Option IpPoint) := do
  atStep 1 0 inner
  let w ← p.onActive (x.z.zip x.s) (fun (z, s) => nDiv z s)
  let lack ← p.onActive (gs.zip x.s) (fun (g, s) => nSub g s)
  let k ← p.newton w
  atStep 2 0 inner
  let f ← solver k
  match f with
  | none => pure none
  | some solve => do
    atStep 3 0 inner
    let t ← p.onActive (w.zip (lack.zip x.z)) (fun (w, r, z) => nFma w r z)
    let b1 ← (List.range p.n).mapM (fun j => linSub [negW (rd.getD j 0)] (p.pull t j))
    let d ← solve b1 (es.map negW)
    let (ds, dz) ← p.sideDirs w (lack.map (fun r => [r])) x.z d.1
    atStep 4 0 inner
    let act : List (W64 × W64) → List (W64 × W64) := fun l => ((p.sides.zip l).filter (fun x => x.1.active)).map Prod.snd
    let n := (act (x.s.zip x.z)).length
    let (dv, dy, ds, dz) ← if n = 0 then pure (d.1, d.2, ds, dz)
      else do
        let a ← maxStep (act (x.s.zip ds) ++ act (x.z.zip dz))
        let a ← nMin one64 a
        atStep 5 0 inner
        let s1 ← p.onActive (x.s.zip ds) (fun (s, d) => nFma a d s)
        let z1 ← p.onActive (x.z.zip dz) (fun (z, d) => nFma a d z)
        let ma ← p.mu z1 s1
        let r ← nDiv ma mu
        let r2 ← nMul r r
        let sg ← nMul r2 r
        let sm ← nMul sg mu
        atStep 6 0 inner
        let c ← p.onActive (x.s.zip (ds.zip dz)) (fun (s, d, e) => do let q ← nMul d e; let u ← nSub q sm; nDiv u s)
        let b ← (List.range p.n).mapM (fun j => linSub [] (p.pull c j))
        let e ← solve b (es.map (fun _ => 0))
        let (es2, ez) ← p.sideDirs w (p.sides.map (fun _ => [])) c e.1
        let v ← (d.1.zip e.1).mapM (fun (a, b) => nAdd a b)
        let y ← (d.2.zip e.2).mapM (fun (a, b) => nAdd a b)
        let s ← p.onActive (ds.zip es2) (fun (a, b) => nAdd a b)
        let z ← p.onActive (dz.zip ez) (fun (a, b) => nAdd a b)
        pure (v, y, s, z)
    atStep 7 0 inner
    let am ← maxStep (act (x.s.zip ds) ++ act (x.z.zip dz))
    let am ← nMul (ratW 995 1000) am
    let a ← nMin one64 am
    atStep 8 0 inner
    let v ← (x.v.zip dv).mapM (fun (u, d) => nFma a d u)
    let y ← (x.y.zip dy).mapM (fun (u, d) => nFma a d u)
    let z ← (p.sides.zip (x.z.zip dz)).mapM (fun (q, u, d) => if q.active then nFma a d u else pure u)
    let s ← (p.sides.zip (x.s.zip ds)).mapM (fun (q, u, d) => if q.active then nFma a d u else pure u)
    pure (some ⟨v, y, z, s⟩)

/-- The condition of R106 at a point, and ŷ: some multiplier above 2^20, the constraint Jacobian's transpose times ŷ within TOL_DUAL, and the
bound support below −TOL_PRIMAL (its signs: log entry 126). -/
def Qp.certified (p : Qp) (tolP tolD : W64) (x : IpPoint) : FlM (Bool × List W64) := do
  let m ← normInf (x.y ++ x.z)
  if !ltW (powW 20) m then pure (false, [])
  else do
    let y ← x.y.mapM (fun v => nDiv v m)
    let z ← x.z.mapM (fun v => nDiv v m)
    let j ← (List.range p.n).mapM (fun j => linSum []
      ((p.eqs.zip y).filterMap (fun (r, m) => (r.row.at j).map (fun a => (a, m)))
        ++ (p.pull z j).map (fun (a, m) => (negW a, m))))
    let g ← normInf j
    let bs ← (p.sides.zip z).filterMapM (fun (q, m) => if q.active then do let b ← nSub q.bound q.g0; pure (some (if q.upper then b else negW b, m)) else pure none)
    let sup ← linSum [] ((p.e0.zip y).map (fun (e, m) => (negW e, m)) ++ bs)
    pure (leW g tolD && ltW sup (negW tolP), y ++ z)

/-- A point of ADMM: places, y and z by equality and side, ρ. -/
structure AdPoint where
  /-- x -/
  v : List W64 := []
  /-- y -/
  y : List W64 := []
  /-- z -/
  z : List W64 := []
  /-- ρ -/
  rho : W64 := 0
deriving DecidableEq, Repr, Inhabited

/-- A row of A with its bounds (R107): an equality has l = u; a side has one of the two; an inactive side is left out. -/
structure AdRow where
  /-- row -/
  row : Row := []
  /-- l -/
  lo : W64 := 0
  /-- u -/
  hi : W64 := 0
  /-- not removed -/
  live : Bool := true
deriving DecidableEq, Repr, Inhabited

/-- −∞, binary64. -/
def ninf64 : W64 := negW inf64

/-- The rows l ≤ Ax ≤ u: equalities, then sides (R95, R107). -/
def Qp.adRows (p : Qp) : FlM (List AdRow) := do
  let e := (p.eqs.zip p.e0).map (fun (r, e0) => (⟨r.row, negW e0, negW e0, true⟩ : AdRow))
  let s ← p.sides.mapM (fun x => if x.active then do
      let b ← nSub x.bound x.g0
      pure (⟨x.row, if x.upper then ninf64 else b, if x.upper then b else inf64, true⟩ : AdRow)
    else pure { live := false })
  pure (e ++ s)
/-- The image of a point under A; 0 for a removed row. -/
def adImage (rows : List AdRow) (v : List W64) : FlM (List W64) := rows.mapM (fun r => if r.live then r.row.mul v else pure 0)
/-- A value clipped to a row's bounds. -/
def AdRow.clip (r : AdRow) (v : W64) : FlM W64 := do let a ← nMax v r.lo; nMin a r.hi
/-- Aᵀ y at one place. -/
def adPull (rows : List AdRow) (y : List W64) (j : Nat) : List (W64 × W64) :=
  (rows.zip y).filterMap (fun (r, m) => if r.live then (Row.at r.row j).map (fun a => (a, m)) else none)

/-- σ = 2^-20, ρ = 0.1 at the start of a steep, α = 1.6 (R107). -/
def admmSigma : W64 := powW (-20)
/-- ρ at the start of each steep. -/
def admmRho : W64 := ratW 1 10
/-- α. -/
def admmAlpha : W64 := ratW 16 10

/-- K of ADMM (R107) factored in its elimination order. -/
def Qp.adFactor (p : Qp) (rows : List AdRow) (ord : List Nat) (rho : W64) : FlM (Option KktSolve) := do
  let live := rows.filter AdRow.live
  let diag ← (List.range p.n).mapM (fun i => do let v ← nAdd ((p.hess.at i i).getD 0) admmSigma; pure ((i, i), v))
  let ri ← nDiv one64 rho
  let m : Sym := p.hess.filter (fun e => e.1.1 != e.1.2) ++ diag
    ++ (live.zipIdx).flatMap (fun (r, i) => ((p.n + i, p.n + i), negW ri) :: r.row.map (fun (j, v) => ((p.n + i, j), v)))
  let o := orderOf (p.n + live.length) ord
  let f ← attempts (ldlt m p.n o) 5
  pure (f.map (fun f => fun b1 b2 => do
    let solve (b : List W64) : FlM (List W64) := do let x ← f.solve (permute o b); pure (unpermute o x)
    let x ← if f.patched then refine (Sym.mulVec m (p.n + live.length)) solve (b1 ++ b2) else solve (b1 ++ b2)
    pure (x.take p.n, x.drop p.n)))

/-- Spread values of the rows that count over all rows. -/
def spread (rows : List AdRow) (l : List W64) : List W64 :=
  (rows.foldl (fun (a : List W64 × List W64) r => if r.live then (a.1 ++ [a.2.headD 0], a.2.drop 1) else (a.1 ++ [0], a.2)) ([], l)).1

/-- The residuals of ADMM (R107 step 5): r_p = ‖Ax − z‖∞, r_d = ‖Hx + q + Aᵀy‖∞. -/
def Qp.adResid (p : Qp) (rows : List AdRow) (x : AdPoint) : FlM Resid := do
  let ax ← adImage rows x.v
  let d ← (rows.zip (ax.zip x.z)).filterMapM (fun (r, a, z) => if r.live then do let v ← nSub a z; pure (some v) else pure none)
  let rp ← normInf d
  let g ← (List.range p.n).mapM (fun j => linSum [p.q.getD j 0]
    ((List.range p.n).filterMap (fun k => (p.hess.at j k).map (fun a => (a, x.v.getD k 0))) ++ adPull rows x.y j))
  let rd ← normInf g
  pure ⟨rp, rd, 0⟩

/-- One ADMM iteration with a factor of K (R107). -/
def Qp.admmStep (p : Qp) (rows : List AdRow) (solve : KktSolve) (inner : Nat) (x : AdPoint) : FlM AdPoint := do
  atStep 1 0 inner
  let ri ← nDiv one64 x.rho
  let b1 ← ((List.range p.n).zip (x.v.zip p.q)).mapM (fun (_, v, q) => do let t ← nMul admmSigma v; nSub t q)
  let yr ← x.y.mapM (fun y => nMul y ri)
  let b2 ← ((rows.zip (x.z.zip yr)).filter (fun r => r.1.live)).mapM (fun (_, z, t) => nSub z t)
  let t ← solve b1 b2
  let nu := spread rows t.2
  let zt ← (rows.zip ((x.z.zip x.y).zip nu)).mapM (fun (r, (z, y), n) => if r.live then do let d ← nSub n y; nFma d ri z else pure 0)
  atStep 2 0 inner
  let oa ← nSub one64 admmAlpha
  let mix (a b : W64) : FlM W64 := do let u ← nMul oa b; nFma admmAlpha a u
  let v ← (t.1.zip x.v).mapM (fun (a, b) => mix a b)
  let zh ← (rows.zip (zt.zip x.z)).mapM (fun (r, a, b) => if r.live then mix a b else pure 0)
  atStep 3 0 inner
  let z ← (rows.zip (zh.zip yr)).mapM (fun (r, a, t) => if r.live then do let u ← nAdd a t; r.clip u else pure 0)
  atStep 4 0 inner
  let y ← (rows.zip ((zh.zip z).zip x.y)).mapM (fun (r, (a, b), y) => if r.live then do let d ← nSub a b; nFma x.rho d y else pure 0)
  pure ⟨v, y, z, x.rho⟩

/-- The conditions of R109 on the change of y over one iteration, and the certificate δy / ‖δy‖∞. -/
def Qp.adCertified (p : Qp) (rows : List AdRow) (tolP tolD : W64) (old new : List W64) : FlM (Bool × List W64) := do
  let dy ← (new.zip old).mapM (fun (a, b) => nSub a b)
  let m ← normInf dy
  if !ltW 0 m then pure (false, [])
  else do
    let g ← (List.range p.n).mapM (fun j => linSum [] (adPull rows dy j))
    let gn ← normInf g
    let td ← nMul tolD m
    let sup ← linSum [] ((rows.zip dy).flatMap (fun (r, d) => if !r.live then [] else
      (if ltW 0 d then [(r.hi, d)] else []) ++ (if ltW d 0 then [(r.lo, d)] else [])))
    let tp ← nMul tolP m
    let c ← dy.mapM (fun d => nDiv d m)
    pure (leW gn td && ltW sup (negW tp), c)

/-- ρ after the completion of an iteration (R108): `n` is its number in the steep. -/
def Qp.nextRho (p : Qp) (rows : List AdRow) (n : Nat) (x : AdPoint) (r : Resid) : FlM W64 := do
  if n % 25 != 0 then pure x.rho
  else do
    let ax ← adImage rows x.v
    let a ← normInf ax
    let z ← normInf x.z
    let d1 ← nMax a z
    let hx ← (List.range p.n).mapM (fun j => linSum [] ((List.range p.n).filterMap (fun k => (p.hess.at j k).map (fun a => (a, x.v.getD k 0)))))
    let h ← normInf hx
    let ay ← (List.range p.n).mapM (fun j => linSum [] (adPull rows x.y j))
    let g ← normInf ay
    let q ← normInf p.q
    let d2 ← nMax h g
    let d2 ← nMax d2 q
    let u ← nDiv r.rp d1
    let w ← nDiv r.rd d2
    let phi ← nDiv u w
    if ltW phi (ratW 1 5) || ltW (intW 5) phi then do let f ← nSqrt phi; nMul x.rho f else pure x.rho

end Sys2Proof.Machine
end

