-- ==== Sys2Proof/Machine/Solve.lean ====
section
/-! DEFINITION. What a steep computes: the first evaluation and one iteration of each method (R96, R99 to R114, R146, R252). The computation is a
function of its inputs alone; what the spec leaves to the plan is the model's (log entry 6). -/
namespace Sys2Proof.Machine

/-- The inputs of a steep's computation (Table 11-1, with the free order of fast mode's sums). -/
structure SolveIn where
  /-- graphs, parameters, weights and context -/
  env : GraphEnv
  /-- LC -/
  lc : Iterate
  /-- completed iterations -/
  count : Nat
  /-- fixed-order mode -/
  fixed : Bool
  /-- number of the order of arrival of fast mode's sums (R251) -/
  seed : Nat
  /-- retries so far: each runs with sums of its own -/
  tries : Nat
  /-- model evaluations begun before this iteration, by MODEL -/
  evals : List Nat
  /-- CLUSTERS -/
  clusters : Nat
  /-- estimator configuration -/
  cfg : Option EstCfg
  /-- prior z̄ of CLASS 3 -/
  zbar : List W64
  /-- prior factor S of CLASS 3 -/
  prior : List W64
  /-- the matrices and vectors of the previous steep are reused (R114) -/
  reuse : Bool
deriving DecidableEq, Repr, Inhabited

/-- The image. -/
def SolveIn.im (c : SolveIn) : Image := c.env.im
/-- The numeric state as an iteration begins. -/
def SolveIn.start (c : SolveIn) : NumSt :=
  { mask := BitVec.ofNat 5 c.im.trapMask, rnd := c.im.rnd, fixed := c.fixed, seed := c.seed, sums := (c.tries * 65536 + c.count) * 2 ^ 32, evals := c.evals }
/-- A classes whose constraints are linear and whose cost is quadratic (R94). -/
def linearClass (im : Image) : Bool := decide (im.cls ≤ 1) || (im.cls == 3 && decide (im.method ≤ 4))
/-- The method that solves the quadratic problems: METHOD, or QP_METHOD of an SQP form. -/
def qpMethodOf (im : Image) : Nat := if im.method = 5 ∨ im.method = 6 then im.qpMethod else im.method

/-- The solver of Newton systems. -/
def SolveIn.solver (c : SolveIn) (k : Kkt) : FlM (Option KktSolve) :=
  kktSolver (qpMethodOf c.im) c.im.nStages c.clusters (Config.ldltOrder c.im.structSig (k.n + k.eqs.length)) k

/-- Compute again what an earlier iteration computed, from where it began. -/
def againAt (src : Option (Nat × List Nat)) (m : FlM α) : FlM α := silently (do
  modify (fun s => match src with
    | some (n, e) => { s with sums := n, evals := e, breaks := 0 }
    | none => { s with breaks := 0 })
  m)
/-- Where the present computation stands, for `againAt`. -/
def here : FlM (Option (Nat × List Nat)) := do let s ← get; pure (some (s.sums, s.evals))

/-- Global indices of the variables of the system: those not pinned. -/
def freeVars (im : Image) : List Nat := (List.range im.nVars).filter (fun v => !im.pinnedVar v)
/-- A row over variables as a row over places. -/
def toPlaces (fv : List Nat) (r : Row) : Row := r.filterMap (fun e => (fv.idxOf? e.1).map (fun i => (i, e.2)))
/-- The products of a row with fixed variables. -/
def fixedPart (fix : List (Nat × W64)) (r : Row) : List (W64 × W64) := r.filterMap (fun e => (Row.at fix e.1).map (fun x => (e.2, x)))

/-- The parameters of a MEASUREMENT node's bound value and weight at its stage (R146, R151); none where its channel has no entry. -/
def measParams (cfg : EstCfg) (stage chan : Nat) : Option (Nat × Nat) := (cfg.chans.find? (fun c => c.chan == chan)).map (fun c => (c.y + stage, c.w + stage))

/-- A measurement term of the cost: stage, node, its value at the reference point, y, w (R146); terms with w = 0 are left out. -/
structure Meas where
  /-- stage -/
  stage : Nat
  /-- node -/
  node : Nat
  /-- y -/
  y : W64
  /-- w -/
  w : W64
deriving DecidableEq, Repr, Inhabited

/-- A weight that counts: not ±0. -/
def weighs (w : W64) : Bool := w.toNat % f64.signBit != 0

/-- The measurement terms of the stages in stage and ROLE_INDEX order. -/
def measTerms (im : Image) (cfg : Option EstCfg) (params : List W64) (stages : List Nat) : List Meas :=
  match cfg with
  | none => []
  | some cfg => im.stages.flatMap (fun s => if !stages.contains s.stage then [] else
      (im.roleNodes s 4).filterMap (fun n => (measParams cfg s.stage n.1.roleIndex).bind (fun (y, w) =>
        if weighs (params.getD w 0) then some ⟨s.stage, n.2, params.getD y 0, params.getD w 0⟩ else none)))

/-- Row `i` of a lower triangle stored row by row. -/
def triRow (l : List W64) (i : Nat) : List W64 := (l.drop (i * (i + 1) / 2)).take (i + 1)
/-- The rows of a lower triangle. -/
def triRows (n : Nat) (l : List W64) : List (List W64) := (List.range n).map (triRow l)

/-- S⁻¹ b by forward substitution. -/
def triSolve (s : List (List W64)) (b : List W64) : FlM (List W64) :=
  (s.zip b).foldlM (fun (x : List W64) (r, v) => do
    let t ← linSub [v] (r.zip x)
    let q ← nDiv t (r.getD x.length 0)
    pure (x ++ [q])) []

/-- The arrival cost at a point: S⁻¹(z₀ − z̄), and the columns of S⁻¹ (R146). -/
structure Arrival where
  /-- stage-0 STATE variables -/
  vars : List Nat := []
  /-- S⁻¹(z₀ − z̄) -/
  r : List W64 := []
  /-- columns of S⁻¹ -/
  w : List (List W64) := []
deriving DecidableEq, Repr, Inhabited

/-- The arrival cost of CLASS 3 at a point; none for another class. -/
def SolveIn.arrival (c : SolveIn) (x : List W64) : FlM (Option Arrival) :=
  if c.im.cls ≠ 3 then pure none
  else do
    let vs := c.im.stateVars 0
    let n := vs.length
    let s := triRows n c.prior
    let d ← (vs.zip (c.zbar ++ List.replicate n 0)).mapM (fun (v, z) => nSub (x.getD v 0) z)
    let r ← triSolve s d
    let w ← (List.range n).mapM (fun j => triSolve s ((List.range n).map (fun i => if i = j then one64 else 0)))
    pure (some ⟨vs, r, w⟩)

/-- The terms that measurements and the arrival cost add to the derivative along a variable. -/
def extraGrad (ms : List (W64 × Row × W64)) (ar : Option Arrival) (v : Nat) : List (W64 × W64) :=
  ms.filterMap (fun (wr, row, _) => (Row.at row v).map (fun a => (a, wr)))
  ++ (match ar with
    | none => []
    | some a => if a.vars.contains v then (a.w.getD (a.vars.idxOf v) []).zip a.r else [])

/-- The terms that measurements and the arrival cost add to a second derivative. -/
def extraHess (ms : List (W64 × Row × W64)) (ar : Option Arrival) (i j : Nat) : FlM (List (W64 × W64)) := do
  let a ← ms.filterMapM (fun (_, row, w) => match Row.at row i, Row.at row j with
    | some x, some y => do let t ← nMul w x; pure (some (t, y))
    | _, _ => pure none)
  pure (a ++ (match ar with
    | none => []
    | some ar => if ar.vars.contains i && ar.vars.contains j then (ar.w.getD (ar.vars.idxOf i) []).zip (ar.w.getD (ar.vars.idxOf j) []) else []))

/-- The quadratic problem at a reference point (R95, R99, R146): `x` is the point, `fix` the variables that the reference point holds at 0 and
the problem at other values (the pinned ones of a linear class). -/
def SolveIn.buildQp (c : SolveIn) (x : List W64) (g : GraphVals) (d : Derivs) (fix : List (Nat × W64)) : FlM Qp := do
  let im := c.im
  let fv := freeVars im
  let ms ← (measTerms im c.cfg c.env.params (im.stages.map StageRec.stage)).mapM (fun m => do
    let row := (d.meas.find? (fun e => e.1 == m.node)).map Prod.snd |>.getD []
    let h ← linSum [g.vals.getD m.node 0] (fixedPart fix row)
    let r ← nSub h m.y
    let wr ← nMul m.w r
    pure (wr, row, m.w))
  let ar ← c.arrival (fix.foldl (fun (l : List W64) e => l.set e.1 e.2) x)
  let keys := (d.hess.map Prod.fst ++ ms.flatMap (fun (_, r, _) => r.flatMap (fun a => (r.filter (fun b => b.1 ≤ a.1)).map (fun b => (a.1, b.1))))
    ++ (match ar with | none => [] | some a => a.vars.flatMap (fun i => (a.vars.filter (fun j => j ≤ i)).map (fun j => (i, j))))).eraseDups
  let cells ← keys.mapM (fun (i, j) => do
    let e ← extraHess ms ar i j
    let v ← linSum (((d.hess.find? (fun e => e.1 == (i, j))).map Prod.snd).getD []) e
    pure ((i, j), v))
  let full : Sym := cells
  let q ← fv.mapM (fun v => do
    let own := ((d.grad.find? (fun e => e.1 == v)).map Prod.snd).getD []
    let pin := fix.filterMap (fun (p, y) => (full.at v p).map (fun a => (a, y)))
    linSum own (extraGrad ms ar v ++ pin))
  let eqs := (im.equalities.zip d.eqs).map (fun ((node, tgt), r) =>
    let row := (toPlaces fv r).map (fun e => (e.1, negW e.2))
    let t := fv.idxOf? tgt
    ({ row := match t with | some t => Image.insBy Prod.fst (t, one64) row | none => row, tgt := t,
       stage := ((im.stages.find? (fun s => decide (s.nodeFirst ≤ node ∧ node < s.nodeFirst + s.nodeCount))).map StageRec.stage).getD 0 } : EqRow))
  let e0 ← (im.equalities.zip d.eqs).mapM (fun ((node, tgt), r) => do
    let v ← linSum [g.vals.getD node 0] (fixedPart fix r)
    nSub ((Row.at fix tgt).getD (x.getD tgt 0)) v)
  let sides ← im.sides.mapM (fun s => do
    let row := if s.isNode then ((d.cons.find? (fun e => e.1 == s.what)).map Prod.snd).getD [] else [(s.what, one64)]
    let v ← linSum [sideValue x g.vals s] (fixedPart fix row)
    pure (⟨toPlaces fv row, s.upper, sideActive c.env.params s, c.env.params.getD s.param 0, v⟩ : QSide))
  pure ⟨fv.length, fv.map im.varStage, fv.map (fun v => ((im.blocks[im.blockOf v]?).map (fun b => b.kind == 0)).getD false),
    cells.filterMap (fun ((i, j), v) => match fv.idxOf? i, fv.idxOf? j with | some a, some b => some ((a, b), v) | _, _ => none),
    q, eqs, e0, sides⟩

/-- The committed values of the pinned variables. -/
def SolveIn.pinned (c : SolveIn) : List (Nat × W64) :=
  ((List.range c.im.nVars).filter c.im.pinnedVar).map (fun v => (v, c.lc.primal.getD v 0))

/-- The constant matrices and vectors of a linear class (Table 4-4, R114): the graphs and their derivatives with every variable 0, from which the
problem with the committed pinned values follows. Their sums keep the fixed order, so that a fresh evaluation gives the same bits. -/
def SolveIn.linData (c : SolveIn) : FlM (GraphVals × Derivs) := do
  let z := List.replicate c.im.nVars (0 : W64)
  let f := (← get).fixed
  modify (fun s => { s with fixed := true, part := s.part + 1 })
  let g ← evalNodes c.env { askRoles c.im [1, 2, 3, 4] with derivs := true } z
  let d ← derivsAt c.env (alongOf c.im true) z g
  modify (fun s => { s with fixed := f })
  pure (g, d)

/-- The quadratic problem of a linear class; `fresh`: its matrices are computed in this iteration. -/
def SolveIn.linQp (c : SolveIn) (fresh : Bool) : FlM Qp := do
  let (g, d) ← if fresh then c.linData else silently c.linData
  atStep 1 0 0
  c.buildQp (List.replicate c.im.nVars 0) g d c.pinned

/-- Place values of a point, and a point with new place values. -/
def placesOf (im : Image) (x : List W64) : List W64 := (freeVars im).map (fun v => x.getD v 0)
/-- A point with new place values. -/
def withPlaces (im : Image) (x v : List W64) : List W64 := ((freeVars im).zip v).foldl (fun (l : List W64) e => l.set e.1 e.2) x

/-- Defects and signed distances at a point with evaluated nodes (R96: taken at the iterate's variables, from the nodes' values). -/
def SolveIn.defectsAt (c : SolveIn) (x : List W64) (g : GraphVals) : FlM (List W64 × List W64) := do
  let es ← defects c.env x g.vals
  let gs ← c.im.sides.mapM (fun s => if sideActive c.env.params s then sideGap c.env.params x g.vals s else pure 0)
  pure (es, gs)
/-- r_p at a point with evaluated nodes. -/
def SolveIn.rpAt (c : SolveIn) (x : List W64) (g : GraphVals) : FlM W64 := primalResidual c.env x g.vals

/-- An iterate's interior-point part. -/
def Iterate.ip (im : Image) (it : Iterate) : IpPoint := ⟨placesOf im it.primal, it.eqMult, it.ineqMult, it.slack⟩

/-- ADMM's signed y of a side from a multiplier of that side, and back (R95, Table 4-6). -/
def QSide.signed (x : QSide) (m : W64) : W64 := if x.upper then m else negW m

/-- What an evaluation of a point with derivatives delivers. -/
structure PointEval where
  /-- values -/
  g : GraphVals := {}
  /-- derivatives -/
  d : Derivs := {}
deriving DecidableEq, Repr, Inhabited

/-- An evaluation with derivatives at a point of a nonlinear problem (R111, R112). -/
def SolveIn.evalFull (c : SolveIn) (x : List W64) : FlM PointEval := do
  let g ← evalGraph c.env (askAll c.im true) x
  let d ← derivsAt c.env (alongOf c.im false) x g
  pure ⟨g, d⟩

/-- The first evaluation of a steep (R49, R96, R97, R101, R158; Table 4-4): LC with its starting slacks and residuals, and what was evaluated. -/
def SolveIn.firstPass (c : SolveIn) : FlM (Iterate × PointEval) := do
  let x := c.lc.primal
  if 4 ≤ c.im.cls then do
    let g ← evalGraph c.env (askStage 0 (c.im.cls == 4)) x
    pure ({ c.lc with rp := 0, rd := 0, mu := 0 }, ⟨g, {}⟩)
  else if linearClass c.im then do
    let src ← here
    let g ← evalGraph c.env (askAll c.im false) x
    let p ← c.linQp (!c.reuse)
    let it ← startDuals c.env c.lc g.vals
    if c.im.method = 4 then do
      let rows ← p.adRows
      let v := placesOf c.im x
      let ax ← adImage rows v
      let z ← (rows.zip ax).mapM (fun (r, a) => if r.live then r.clip a else pure 0)
      let a : AdPoint := ⟨v, it.eqMult ++ it.ineqMult, z, admmRho⟩
      let r ← p.adResid rows a
      pure ({ it with z, rho := admmRho, rp := r.rp, rd := r.rd, mu := 0, src := none }, ⟨g, {}⟩)
    else do
      let rp ← c.rpAt x g
      let r ← p.resid [] [] (it.ip c.im) false
      pure ({ it with rp, rd := r.rd, mu := r.mu, src }, ⟨g, {}⟩)
  else do
    let src ← here
    let e ← c.evalFull x
    atStep 1 0 0
    let it ← startDuals c.env c.lc e.g.vals
    let rp ← c.rpAt x e.g
    let p ← c.buildQp x e.g e.d []
    let r ← p.resid [] [] (it.ip c.im) true
    pure ({ it with rp, rd := r.rd, mu := r.mu, nu := 0, src }, e)

/-- What an iteration delivers. -/
structure IterRes where
  /-- the new iterate, its factor not yet clamped -/
  it : Iterate := {}
  /-- the infeasibility condition of R106, R109 or R113 holds -/
  cert : Bool := false
  /-- a subproblem met its inner test (R112) -/
  inner : Bool := true
  /-- settings of a diagonal element to SD_MIN by a downdate (R157) -/
  clamped : Nat := 0
  /-- the change of a later iteration of an EKF step is within TOL_PRIMAL (R156) -/
  still : Bool := false
deriving DecidableEq, Repr, Inhabited

/-- One interior-point iteration of a linear class (R100, R106). -/
def SolveIn.ipmIter (c : SolveIn) (it : Iterate) (p : Qp) (g : GraphVals) : FlM (Option IterRes) := do
  let (es, gs) ← silently (c.defectsAt it.primal g)
  atStep 1 0 0
  let x := it.ip c.im
  let rd ← p.lagrangian x.v x.y x.z
  let n ← p.ipmStep c.solver 0 x es gs rd it.mu
  match n with
  | none => pure none
  | some n => do
    let primal := withPlaces c.im it.primal n.v
    modify (fun s => { s with part := s.part + 1 })
    let g ← evalNodes c.env (askRoles c.im [1, 2]) primal
    atStep 8 0 0
    let rp ← c.rpAt primal g
    let r ← p.resid [] [] n false
    let (cert, y) ← p.certified (b64 c.im.tolP) (b64 c.im.tolD) n
    pure (some { it := { it with primal, eqMult := n.y, ineqMult := n.z, slack := n.s, rp, rd := r.rd, mu := r.mu, cert := y }, cert })

/-- One ADMM iteration (R107 to R109). -/
def SolveIn.admmIter (c : SolveIn) (it : Iterate) (p : Qp) : FlM (Option IterRes) := do
  let rows ← silently p.adRows
  let ord := Config.ldltOrder c.im.structSig (p.n + rows.length)
  let src ← (match it.src with | some x => pure (some x) | none => here)
  atStep 1 0 0
  let f ← match it.src with
    | none => p.adFactor rows ord it.rho
    | some _ => againAt src (p.adFactor rows ord it.rho)
  match f with
  | none => pure none
  | some solve => do
    let a ← p.admmStep rows solve 0 ⟨placesOf c.im it.primal, it.eqMult ++ it.ineqMult, it.z, it.rho⟩
    atStep 5 0 0
    let r ← p.adResid rows a
    atStep 6 0 0
    let (cert, y) ← p.adCertified rows (b64 c.im.tolP) (b64 c.im.tolD) (it.eqMult ++ it.ineqMult) a.y
    let rho ← p.nextRho rows (c.count + 1) a r
    let m := p.eqs.length
    pure (some { it := { it with primal := withPlaces c.im it.primal a.v, eqMult := a.y.take m, ineqMult := a.y.drop m, z := a.z, rho,
                                 rp := r.rp, rd := r.rd, mu := 0, cert := y, src := if rho = it.rho then src else none }, cert })

/-- What a subproblem yields (R110). -/
structure SubRes where
  /-- the step -/
  d : List W64 := []
  /-- its multipliers and slacks -/
  x : IpPoint := {}
  /-- its residuals -/
  r : Resid := {}
  /-- it met the inner test -/
  conv : Bool := false
  /-- it is certified infeasible, with the certificate -/
  cert : Option (List W64) := none
deriving DecidableEq, Repr, Inhabited

/-- The inner test (R110): R97 applied to the subproblem; ADMM omits μ. -/
def innerTest (im : Image) (r : Resid) : Bool :=
  leW r.rp (b64 im.tolP) && leW r.rd (b64 im.tolD) && (im.qpMethod == 4 || leW r.mu (b64 im.tolC))

/-- Inner interior-point iterations (R110). -/
def SolveIn.innerIpm (c : SolveIn) (p : Qp) : Nat → Nat → Bool → IpPoint → Resid → FlM (Option SubRes)
  | 0, _, _, x, r => pure (some { d := x.v, x, r })
  | n + 1, k, prev, x, r => do
    atStep 1 0 k
    let es ← p.defects x.v
    let gs ← p.gaps x.v
    let rd ← p.lagrangian x.v x.y x.z
    let y ← p.ipmStep c.solver k x es gs rd r.mu
    match y with
    | none => pure none
    | some y => do
      atStep 8 0 k
      let es ← p.defects y.v
      let gs ← p.gaps y.v
      let r ← p.resid es gs y false
      let (cert, v) ← p.certified (b64 c.im.tolP) (b64 c.im.tolD) y
      if cert && prev then pure (some { d := y.v, x := y, r, cert := some v })
      else if innerTest c.im r then pure (some { d := y.v, x := y, r, conv := true })
      else innerIpm c p n (k + 1) cert y r

/-- An ADMM point of a subproblem as multipliers and slacks of the sides. -/
def Qp.fromAdmm (p : Qp) (a : AdPoint) : FlM IpPoint := do
  let m := p.eqs.length
  let z := (p.sides.zip (a.y.drop m)).map (fun (q, y) => if q.active then (let t := q.signed y; if ltW 0 t then t else 0) else 0)
  let gs ← p.gaps a.v
  let s := (p.sides.zip gs).map (fun (q, g) => if !q.active then inf64 else if ltW g 0 then 0 else g)
  pure ⟨a.v, a.y.take m, z, s⟩

/-- Inner ADMM iterations (R110). -/
def SolveIn.innerAdmm (c : SolveIn) (p : Qp) (rows : List AdRow) (ord : List Nat) : Nat → Nat → Option KktSolve → AdPoint → Resid → FlM (Option SubRes)
  | 0, _, _, a, r => do let x ← p.fromAdmm a; pure (some { d := a.v, x, r })
  | n + 1, k, f, a, _ => do
    atStep 1 0 k
    let f ← match f with | some f => pure (some f) | none => p.adFactor rows ord a.rho
    match f with
    | none => pure none
    | some solve => do
      let b ← p.admmStep rows solve k a
      atStep 5 0 k
      let r ← p.adResid rows b
      atStep 6 0 k
      let (cert, v) ← p.adCertified rows (b64 c.im.tolP) (b64 c.im.tolD) a.y b.y
      if cert then do let x ← p.fromAdmm b; pure (some { d := b.v, x, r, cert := some v })
      else if innerTest c.im r then do let x ← p.fromAdmm b; pure (some { d := b.v, x, r, conv := true })
      else do
        let rho ← p.nextRho rows k b r
        innerAdmm c p rows ord n (k + 1) (if rho = a.rho then some solve else none) { b with rho } r

/-- A QP subproblem (R110): from the step 0 with LC's multipliers and slacks, at least 2^-10 (R101). -/
def SolveIn.subproblem (c : SolveIn) (it : Iterate) (p : Qp) : FlM (Option SubRes) := do
  atStep 1 0 1
  let v := List.replicate p.n (0 : W64)
  if c.im.qpMethod = 4 then do
    let rows ← p.adRows
    let y := it.eqMult ++ (p.sides.zip it.ineqMult).map (fun (q, m) => q.signed m)
    let ax ← adImage rows v
    let z ← (rows.zip ax).mapM (fun (r, a) => if r.live then r.clip a else pure 0)
    c.innerAdmm p rows (Config.ldltOrder c.im.structSig (p.n + rows.length)) 4000 1 none ⟨v, y, z, admmRho⟩ {}
  else do
    let gs ← p.gaps v
    let s ← (p.sides.zip (gs.zip it.slack)).mapM (fun (q, g, s) => if !q.active then pure inf64 else if c.count = 0 then pure s else nMax tenth64 g)
    let z := (p.sides.zip it.ineqMult).map (fun (q, m) => if q.active then maxW tenth64 m else 0)
    let x : IpPoint := ⟨v, it.eqMult, z, s⟩
    let mu ← p.mu x.z x.s
    c.innerIpm p 64 1 false x ⟨0, 0, mu⟩

/-- The cost at a point (R61, R146): stage costs, measurement terms and the arrival cost. -/
def SolveIn.cost (c : SolveIn) (x : List W64) (g : GraphVals) : FlM W64 := do
  let half := powW (-1)
  let a ← c.im.stages.mapM (fun s => stageCost c.im s g.vals)
  let m ← (measTerms c.im c.cfg c.env.params (c.im.stages.map StageRec.stage)).mapM (fun m => do
    let r ← nSub (g.vals.getD m.node 0) m.y
    let q ← nMul r r
    let t ← nMul m.w q
    nMul half t)
  let ar ← c.arrival x
  let z ← match ar with
    | none => pure []
    | some ar => do let q ← dotR (ar.r.map (fun v => (v, v))); let t ← nMul half q; pure [t]
  sumR (a ++ m ++ z)

/-- ‖c‖₁ of the merit function (R111): equality defect magnitudes and inequality violations. -/
def SolveIn.violation (c : SolveIn) (x : List W64) (g : GraphVals) : FlM W64 := do
  let es ← defects c.env x g.vals
  let vs ← excesses c.env x g.vals
  let v ← vs.mapM (fun t => nMax 0 t)
  sumR (es.map absW ++ v)

/-- The ℓ1 merit of a point (R111). -/
def SolveIn.merit (c : SolveIn) (nu : W64) (x : List W64) (g : GraphVals) : FlM W64 := do
  let f ← c.cost x g
  let v ← c.violation x g
  nFma nu v f

/-- A point moved along a step of the places. -/
def SolveIn.moved (c : SolveIn) (x d : List W64) (a : W64) : FlM (List W64) := do
  let v ← ((placesOf c.im x).zip d).mapM (fun (u, d) => nFma a d u)
  pure (withPlaces c.im x v)

/-- The backtracking line search (R111): α = 1, 1/2, to 2^-7, the last accepted whatever its merit. -/
def SolveIn.search (c : SolveIn) (x d : List W64) (nu m0 slope : W64) : Nat → Nat → FlM W64
  | 0, k => pure (powW (-(k : Int)))
  | n + 1, k => do
    let a := powW (-(k : Int))
    atStep 3 0 0
    let y ← c.moved x d a
    let g ← evalGraph c.env (askAll c.im false) y
    atStep 3 0 0
    let m ← c.merit nu y g
    let t ← nMul (ratW 1 10000) a
    let b ← nFma t slope m0
    if leW m b || n = 0 then pure a else search c x d nu m0 slope n (k + 1)

/-- One outer iteration of SQP_FULL or SQP_RTI (R110 to R113) from an evaluated point. -/
def SolveIn.sqpIter (c : SolveIn) (it : Iterate) (e : PointEval) : FlM (Option IterRes) := do
  atStep 2 0 1
  let p ← c.buildQp it.primal e.g e.d []
  let r ← c.subproblem it p
  match r with
  | none => pure none
  | some r =>
    match r.cert with
    | some y => pure (some { it := { it with cert := y }, cert := true, inner := false })
    | none =>
      if c.im.method = 6 then do
        atStep 3 0 0
        let x ← c.moved it.primal r.d one64
        pure (some { it := { it with primal := x, eqMult := r.x.y, ineqMult := r.x.z, slack := r.x.s, rp := r.r.rp, rd := r.r.rd, mu := r.r.mu, src := none },
                     inner := r.conv })
      else do
        atStep 3 0 0
        let yn ← normInf (r.x.y ++ r.x.z)
        let y2 ← nMul (intW 2) yn
        let nu ← nMax it.nu y2
        let m0 ← c.merit nu it.primal e.g
        let gd ← dotR (p.q.zip r.d)
        let c1 ← c.violation it.primal e.g
        let slope ← linSub [gd] [(nu, c1)]
        let a ← c.search it.primal r.d nu m0 slope 8 0
        let x ← c.moved it.primal r.d a
        let src ← here
        let e ← c.evalFull x
        atStep 4 0 0
        let q ← c.buildQp x e.g e.d []
        let rp ← c.rpAt x e.g
        let z ← q.resid [] [] ⟨[], r.x.y, r.x.z, r.x.s⟩ true
        pure (some { it := { it with primal := x, eqMult := r.x.y, ineqMult := r.x.z, slack := r.x.s, rp, rd := z.rd, mu := z.mu, nu, src }, inner := r.conv })

end Sys2Proof.Machine
end

