-- ==== Sys2Proof/Machine/Filter.lean ====
section
/-! DEFINITION. Estimation steps (R153 to R158): Householder triangularisation, the square-root updates of EKF, UKF and the CLASS 3 prior; and one
iteration of any class as a function of its inputs (R252). -/
namespace Sys2Proof.Machine

/-- v·w less nothing: one reduction (R254). -/
def dot (a b : List W64) : FlM W64 := dotR (a.zip b)
/-- Column `j` of a matrix given by rows. -/
def colOf (m : List (List W64)) (j : Nat) : List W64 := m.map (fun r => r.getD j 0)
/-- Matrix product of rows. -/
def matMul (a b : List (List W64)) (cols : Nat) : FlM (List (List W64)) := a.mapM (fun r => (List.range cols).mapM (fun j => dot r (colOf b j)))
/-- A square matrix of a lower triangle. -/
def square (n : Nat) (l : List W64) : List (List W64) := (triRows n l).map (fun r => r ++ List.replicate (n - r.length) 0)
/-- The lower triangle of a matrix, row by row. -/
def flatTri (m : List (List W64)) : List W64 := m.zipIdx.flatMap (fun (r, i) => (r ++ List.replicate (i + 1) 0).take (i + 1))
/-- A diagonal matrix. -/
def diagOf (d : List W64) : List (List W64) := d.zipIdx.map (fun (v, i) => (List.range d.length).map (fun j => if i = j then v else 0))
/-- Matrices side by side. -/
def beside (a b : List (List W64)) : List (List W64) := (a.zip b).map (fun (x, y) => x ++ y)

/-- One Householder reflection from the right: row 0 becomes its norm in place 0 and zeros, the others follow; column signs make the norm
positive. -/
def reflect : List (List W64) → FlM (W64 × List W64 × List (List W64))
  | [] => pure (0, [], [])
  | v :: rest => do
    let q ← dot v v
    let n ← nSqrt q
    let v0 := v.headD 0
    let neg := ltW v0 0
    let u0 ← if neg then nSub v0 n else nAdd v0 n
    let u := u0 :: v.drop 1
    let uu ← dot u u
    if !ltW 0 uu && !isNan64 uu then pure (n, rest.map (fun r => r.headD 0), rest.map (fun r => r.drop 1))
    else do
      let beta ← nDiv (intW 2) uu
      let rs ← rest.mapM (fun r => do
        let d ← dot r u
        let k ← nMul beta d
        (r.zip u).mapM (fun (x, y) => nFma (negW k) y x))
      -- the reflected row is −sign(v0)·n in place 0
      let flip (x : W64) : W64 := if neg then x else negW x
      pure (n, rs.map (fun r => flip (r.headD 0)), rs.map (fun r => r.drop 1))

/-- Householder triangularisation (R154): the lower-triangular factor S of M Mᵀ with a non-negative diagonal, column by column. -/
def triangularise : Nat → List (List W64) → FlM (List (List W64))
  | 0, _ => pure []
  | n + 1, m => do
    let r ← reflect m
    let t ← triangularise n r.2.2
    pure ([r.1] :: (r.2.1.zip t).map (fun (a, b) => a :: b))
/-- The same, as a square of rows padded with zeros. -/
def factorOf (m : List (List W64)) : FlM (List (List W64)) := do
  let t ← triangularise m.length m
  pure (t.map (fun r => r ++ List.replicate (m.length - r.length) 0))

/-- The square-root measurement update: from S, rows H and noise deviations, the factor after it and the parts of the gain, Ḡ and S_y (K = Ḡ S_y⁻¹). -/
def rootUpdate (s : List (List W64)) (h : List (List W64)) (dev : List W64) : FlM (List (List W64) × List (List W64) × List (List W64)) := do
  let n := s.length
  let m := h.length
  let hs ← matMul h s n
  let top := beside (diagOf dev) hs
  let bottom := s.map (fun r => List.replicate m 0 ++ r)
  let t ← factorOf (top ++ bottom)
  pure ((t.drop m).map (fun r => r.drop m), (t.drop m).map (fun r => r.take m), (t.take m).map (fun r => r.take m))

/-- The standard deviation of a weight: 1 / √w. -/
def devOf (w : W64) : FlM W64 := do let q ← nSqrt w; nDiv one64 q

/-- A gradient row over given variables. -/
def rowOver (vs : List Nat) (r : Row) : List W64 := vs.map (fun v => (Row.at r v).getD 0)

/-- x + Ḡ S_y⁻¹ e. -/
def gainStep (x : List W64) (gbar sy : List (List W64)) (e : List W64) : FlM (List W64) := do
  let y ← triSolve sy e
  (x.zip gbar).mapM (fun (v, r) => do let d ← linSum [v] (r.zip y); pure d)

/-- The stage-1 part of a point replaced. -/
def setVars (x : List W64) (vs : List Nat) (v : List W64) : List W64 := (vs.zip v).foldl (fun (l : List W64) e => l.set e.1 e.2) x

/-- The standard deviations of the process noise. -/
def SolveIn.noise (c : SolveIn) (n : Nat) : List W64 := match c.cfg with | some e => (List.range n).map (fun i => c.env.params.getD (e.q + i) 0) | none => List.replicate n 0

/-- The stage record of a stage. -/
def stageOf (im : Image) (k : Nat) : Option StageRec := im.stages.find? (fun s => s.stage == k)

/-- F: the derivative of the stage-0 NEXT_STATE nodes along the stage-0 STATE variables, and their values. -/
def SolveIn.process (c : SolveIn) (x : List W64) (g : GraphVals) : FlM (List W64 × List (List W64)) := do
  match stageOf c.im 0 with
  | none => pure ([], [])
  | some s => do
    let ns := c.im.roleNodes s 1
    let al := alongOf c.im true
    let rows ← ns.mapM (fun n => nodeGrad c.env al x g s n.2)
    pure (ns.map (fun n => g.vals.getD n.2 0), rows.map (rowOver (c.im.stateVars 0)))

/-- The rows of a stage's MEASUREMENT nodes with w > 0 along given variables: value less y, row, deviation (R156: only those). -/
def SolveIn.measRows (c : SolveIn) (stage : Nat) (x : List W64) (g : GraphVals) (vs : List Nat) : FlM (List (W64 × List W64 × W64)) := do
  match stageOf c.im stage with
  | none => pure []
  | some s => do
    let al := alongOf c.im true
    ((measTerms c.im c.cfg c.env.params [stage]).filter (fun m => ltW 0 m.w)).mapM (fun m => do
      let r ← nodeGrad c.env al x g s m.node
      atSite (fun _ => { unit := 3, location := 3 })
      let e ← nSub m.y (g.vals.getD m.node 0)
      let d ← devOf m.w
      pure (e, rowOver vs r, d))

/-- The prediction of an EKF step (R156): x⁻ and the factor of F S Sᵀ Fᵀ + Q. -/
def SolveIn.predict (c : SolveIn) (g : GraphVals) (s : List (List W64)) : FlM (List W64 × List (List W64)) := do
  let (xm, f) ← c.process c.lc.primal g
  atStep 2 0 0
  let fs ← matMul f s s.length
  let p ← factorOf (beside fs (diagOf (c.noise f.length)))
  pure (xm, p)

/-- Every |a − b| is at most a bound (R156), as a step of the method. -/
def withinTol (tol : Nat) (a b : List W64) : FlM Bool := do
  let ds ← (a.zip b).mapM (fun (x, y) => nSub x y)
  let n ← normInf ds
  pure (leW n (b64 tol))

/-- One iteration of an EKF step (R156): iteration 1 predicts; each relinearises h, at x⁻ or at the last iterate, and updates from x⁻. -/
def SolveIn.ekfIter (c : SolveIn) (g : GraphVals) : FlM IterRes := do
  let vs := c.im.stateVars 1
  let n := vs.length
  let it := c.lc
  atStep 1 0 0
  let (xm, sm) ← if c.count = 0 then c.predict g (square n it.cov) else pure (it.pred.1, square n it.pred.2)
  let at' := if c.count = 0 then setVars it.primal vs xm else it.primal
  let h ← evalGraph c.env (askStage 1 true) at'
  let rows ← c.measRows 1 at' h vs
  atStep 3 0 0
  let old := vs.map (fun v => it.primal.getD v 0)
  if rows.isEmpty then do
    let still ← if c.count = 0 then pure false else withinTol c.im.tolP xm old
    pure { it := { it with primal := setVars it.primal vs xm, cov := flatTri sm, pred := (xm, flatTri sm) }, still }
  else do
    let (s, gbar, sy) ← rootUpdate sm (rows.map (fun r => r.2.1)) (rows.map (fun r => r.2.2))
    -- y − h − H (x⁻ − x)
    let d ← (xm.zip (vs.map (fun v => at'.getD v 0))).mapM (fun (a, b) => nSub a b)
    let e ← rows.mapM (fun (e, r, _) => if c.count = 0 then pure e else linSub [e] (r.zip d))
    let x ← gainStep xm gbar sy e
    let still ← if c.count = 0 then pure false else withinTol c.im.tolP x old
    pure { it := { it with primal := setVars it.primal vs x, cov := flatTri s, pred := (xm, flatTri sm) }, still }

/-- A rank-one downdate of a factor (R157): a diagonal element it would make non-positive becomes SD_MIN and is counted. -/
def downdate (sdMin : W64) : List (List W64) → List W64 → Nat → FlM (List (List W64) × Nat)
  | s, v, k =>
    (List.range s.length).foldlM (fun (a : List (List W64) × List W64 × Nat) j => do
      let (s, v, k) := a
      let d := (s.getD j []).getD j 0
      let x := v.getD j 0
      let q ← linSub [] [(x, x)]
      let r2 ← nFma d d q
      if !ltW 0 r2 && !isNan64 r2 then pure (s.set j ((s.getD j []).set j sdMin), v, k + 1)
      else do
        let r ← nSqrt r2
        let c ← nDiv r d
        let t ← nDiv x d
        let rows ← (List.range s.length).mapM (fun i => do
          let row := s.getD i []
          if i < j then pure (row, v.getD i 0)
          else if i = j then pure (row.set j r, v.getD i 0)
          else do
            let u ← nFma (negW t) (v.getD i 0) (row.getD j 0)
            let y ← nDiv u c
            let cv ← nMul c (v.getD i 0)
            let w ← nFma (negW t) y cv
            pure (row.set j y, w))
        pure (rows.map Prod.fst, rows.map Prod.snd, k)) (s, v, k) >>= fun a => pure (a.1, a.2.2)

/-- The factor of Σ wᵢ dᵢ dᵢᵀ + D Dᵀ, dᵢ with weight w for i ≥ 1 and w0 for d₀; a negative w0 enters as a downdate (R157). -/
def sigmaFactor (sdMin w0 w : W64) (ds : List (List W64)) (extra : List (List W64)) : FlM (List (List W64) × Nat) := do
  let r ← nSqrt w
  let r0 ← nSqrt (absW w0)
  let neg := ltW w0 0
  let cols ← (ds.zipIdx).mapM (fun (d, i) => d.mapM (fun v => nMul (if i = 0 then r0 else r) v))
  let used := if neg then cols.drop 1 else cols
  let n := extra.length
  let m := (List.range n).map (fun i => used.map (fun c => c.getD i 0))
  let s ← factorOf (beside m extra)
  if neg then downdate sdMin s (cols.headD []) 0 else pure (s, 0)

/-- The step of CLASS 5 (R157). `g` is the evaluation at the centre point. -/
def SolveIn.ukfIter (c : SolveIn) (g : GraphVals) : FlM IterRes := do
  let it := c.lc
  let v0 := c.im.stateVars 0
  let v1 := c.im.stateVars 1
  let n := v1.length
  match c.cfg, stageOf c.im 0 with
  | some cfg, some s0 => do
    atStep 1 0 0
    let s := square n it.cov
    let nk ← nAdd (intW n) cfg.kappa
    let a2 ← nMul cfg.alpha cfg.alpha
    let t ← nMul a2 nk
    let lam ← nSub t (intW n)
    let nl ← nAdd (intW n) lam
    let root ← nSqrt nl
    let wm0 ← nDiv lam nl
    let w1 ← nAdd wm0 one64
    let w2 ← nSub w1 a2
    let wc0 ← nAdd w2 cfg.beta
    let nl2 ← nMul (intW 2) nl
    let wi ← nDiv one64 nl2
    let centre := v0.map (fun v => it.primal.getD v 0)
    let pts ← (List.range n).mapM (fun j => do
      let col := colOf s j
      let up ← (centre.zip col).mapM (fun (x, y) => nFma root y x)
      let dn ← (centre.zip col).mapM (fun (x, y) => nFma (negW root) y x)
      pure (up, dn))
    let sig := pts.map Prod.fst ++ pts.map Prod.snd
    let next (g : GraphVals) : List W64 := (c.im.roleNodes s0 1).map (fun n => g.vals.getD n.2 0)
    let xs ← sig.mapM (fun p => do let g ← evalGraph c.env (askStage 0 false) (setVars it.primal v0 p); pure (next g))
    let xs := next g :: xs
    let ms := (measTerms c.im c.cfg c.env.params [1]).filter (fun m => ltW 0 m.w)
    let ys ← (sig.length + 1 |> List.range).mapM (fun i => do
      let p := if i = 0 then centre else sig.getD (i - 1) []
      let h ← evalGraph c.env (askStage 1 false) (setVars (setVars it.primal v0 p) v1 (xs.getD i []))
      pure (ms.map (fun m => h.vals.getD m.node 0)))
    atStep 2 0 0
    let wts := wm0 :: List.replicate sig.length wi
    let mean (l : List (List W64)) (k : Nat) : FlM (List W64) := (List.range k).mapM (fun i => dotR (wts.zip (colOf l i)))
    let xm ← mean xs n
    let dx ← xs.mapM (fun x => (x.zip xm).mapM (fun (a, b) => nSub a b))
    let q := diagOf (c.noise n)
    if ms.isEmpty then do
      let (p, k) ← sigmaFactor cfg.sdMin wc0 wi dx q
      pure { it := { it with primal := setVars it.primal v1 xm, cov := flatTri p }, clamped := k }
    else do
      atStep 3 0 0
      let ym ← mean ys ms.length
      let dy ← ys.mapM (fun y => (y.zip ym).mapM (fun (a, b) => nSub a b))
      let dev ← ms.mapM (fun m => devOf m.w)
      let (sy, k1) ← sigmaFactor cfg.sdMin wc0 wi dy (diagOf dev)
      let wc := wc0 :: List.replicate sig.length wi
      let pxy ← (List.range n).mapM (fun i => (List.range ms.length).mapM (fun j => do
        let l ← ((dx.zip dy).zip wc).mapM (fun ((a, b), w) => do let t ← nMul w (a.getD i 0); pure (t, b.getD j 0))
        dotR l))
      -- K = P_xy S_y⁻ᵀ S_y⁻¹, row by row
      let m := ms.length
      let k ← pxy.mapM (fun r => do
        let u ← triSolve sy r
        (List.range m).reverse.foldlM (fun (x : List W64) i => do
          let v ← linSub [u.getD i 0] (((List.range m).filter (fun j => i < j)).map (fun j => ((sy.getD j []).getD i 0, x.getD (j - i - 1) 0)))
          let z ← nDiv v ((sy.getD i []).getD i 0)
          pure (z :: x)) [])
      let e ← (ms.zip ym).mapM (fun (m, y) => nSub m.y y)
      let x ← (xm.zip k).mapM (fun (v, r) => linSum [v] (r.zip e))
      -- the factor of Σ w (dx − K dy)(·)ᵀ + K R Kᵀ + Q
      let ds ← (dx.zip dy).mapM (fun (a, b) => (a.zip k).mapM (fun (v, r) => linSub [v] (r.zip b)))
      let kr ← k.mapM (fun r => (r.zip dev).mapM (fun (a, b) => nMul a b))
      let (p, k2) ← sigmaFactor cfg.sdMin wc0 wi ds (beside kr q)
      pure { it := { it with primal := setVars it.primal v1 x, cov := flatTri p }, clamped := k1 + k2 }
  | _, _ => pure { it }

/-- One iteration (R47, R100, R107, R111, R112, R156, R157, Table 4-4): what it delivers, none where regularisation is exhausted (R104). Iteration 1
holds the first evaluation. -/
def SolveIn.iterate (c : SolveIn) : FlM (Option IterRes) := do
  if c.im.cls = 5 then do
    let f ← c.firstPass
    let r ← c.ukfIter f.2.g
    pure (some r)
  else if c.im.cls = 4 then do
    let g ← if c.count = 0 then do let f ← c.firstPass; pure f.2.g else pure {}
    let r ← c.ekfIter g
    pure (some r)
  else if linearClass c.im then do
    let f ← if c.count = 0 then c.firstPass else pure (c.lc, {})
    let p ← silently (c.linQp false)
    if c.im.method = 4 then c.admmIter f.1 p
    else do
      let g ← silently (evalNodes c.env (askRoles c.im [1, 2]) f.1.primal)
      c.ipmIter f.1 p g
  else do
    let f ← if c.count = 0 then c.firstPass
      else if c.im.method = 6 then do let e ← c.evalFull c.lc.primal; pure (c.lc, e)
      else do let e ← againAt c.lc.src (c.evalFull c.lc.primal); pure (c.lc, e)
    c.sqpIter f.1 f.2

/-- The first evaluation run on its inputs. -/
def SolveIn.runFirst (c : SolveIn) : (Iterate × PointEval) × NumSt := c.firstPass.run c.start
/-- An iteration run on its inputs. -/
def SolveIn.runIter (c : SolveIn) : Option IterRes × NumSt := c.iterate.run c.start

/-- What the prior update reads (R155): the inputs of the steep that froze, and whether its code is usable. -/
def SolveIn.prior' (c : SolveIn) (usable : Bool) : FlM (List W64 × List (List W64)) := do
  let vs := c.im.stateVars 0
  let n := vs.length
  let x := if usable then c.lc.primal else setVars c.lc.primal vs (c.zbar ++ List.replicate n 0 |>.take n)
  let g ← evalGraph c.env (askStage 0 true) x
  let s := square n c.prior
  let (nx, f) ← c.process x g
  let q := diagOf (c.noise f.length)
  if usable then do
    let rows ← c.measRows 0 x g vs
    let sp ← if rows.isEmpty then pure s else do let u ← rootUpdate s (rows.map (fun r => r.2.1)) (rows.map (fun r => r.2.2)); pure u.1
    let fs ← matMul f sp n
    let p ← factorOf (beside fs q)
    pure ((c.im.stateVars 1).map (fun v => x.getD v 0), p)
  else do
    let fs ← matMul f s n
    let p ← factorOf (beside fs q)
    pure (nx, p)

end Sys2Proof.Machine
end

