-- ==== Sys2Proof/Machine/Warm.lean ====
section
/-! DEFINITION. What a steep starts from and computes with: its evaluation inputs, warm-start point, the evaluations it deals out, the
shape of a completed iterate, the record of a trap, the merging of flags (R49, R84 to R89, R96, R98, R101, R114, R134, R153, R172, R174,
R206, R217 to R221). -/
namespace Sys2Proof.Machine

/-- What a steep's evaluations read (R174, R180). -/
def envOf (s : State) (p : Nat) (im : Image) (t : Steep) : GraphEnv :=
  { im, params := t.params, heritage := heritage s, problem := p, steep := t.number,
    weights := (List.range 16).map (fun k => match im.findModel k with | some m => weightsIn im t.gens m | none => []),
    ctx := (List.range 16).map (fun k => (prob s p).ctx.get k) }

/-- The inputs of a steep's computation as it stands (R252, Table 11-1). -/
def solveIn (s : State) (p : Nat) (im : Image) (t : Steep) : SolveIn :=
  let q := prob s p
  { env := envOf s p im t, lc := t.lc, count := t.count, fixed := q.fixed, seed := t.seed, tries := t.tries, evals := t.evals,
    clusters := q.sched.clusters, cfg := q.est.cfg, zbar := q.est.zbar, prior := q.est.cov, reuse := t.reuse }

/-- What a prior update leaves from a prior: the estimator, and the numeric state with its exceptions, none of which traps (R154, R155,
R217). Its sums follow those of the steep's iterations. -/
def priorStep (s : State) (p : Nat) (im : Image) (e : Est) (u : PriorUpd) : Est × NumSt :=
  let c := solveIn s p im u.steep
  let c := { c with zbar := e.zbar, prior := e.cov
                    env := { c.env with ctx := (List.range 16).map (fun k => u.ctx.get k) } }
  let r := (c.prior' u.usable).run { c.start with mask := 0, sums := 2 ^ 80 }
  let l := flatTri r.1.2
  let bad := r.1.1.any (fun v => !isFin64 v) || l.any (fun v => !isFin64 v)
  let k := match e.cfg with | some c => clampCov c (covN im) l | none => (l, 0)
  (if bad then estCount 9 1 { e with cov := initCov (prob s p) } else estCount 7 k.2 { e with zbar := r.1.1, cov := k.1 }, r.2)

/-- The prior that the next steep uses, once the updates in progress have completed (R155). -/
def estAfter (s : State) (p : Nat) (im : Image) (e : Est) : Est :=
  e.updating.foldl (fun e u => if u.void then e else (priorStep s p im e u).1) e

/-- The parameters that the graphs read (R114). -/
def graphParams (im : Image) : List Nat :=
  (im.nodes.flatMap (fun n => ([n.a, n.b, n.c].filter (fun r => r != noneRef && r / 2 ^ 28 == 2)).map (fun r => r % 2 ^ 28))).eraseDups
/-- Their committed values. -/
def graphValues (im : Image) (params : List W64) : List W64 := (graphParams im).map (fun i => params.getD i 0)

/-- The problem's most recent pour whose iterate was frozen before an LT (R85). -/
def pourBefore (q : Prob) (lt : Nat) : Option Poured :=
  match q.poured with
  | some o => if o.frozen < lt then some o else q.older.filter (fun o => decide (o.frozen < lt))
  | none => none

/-- The source iterate of a problem's warm start at a release now, its image and its steep number (R84, R85). -/
def warmSource (s : State) (p : Nat) (q : Prob) : Option (Image × Iterate × W64) :=
  if q.warmMode = 2 then none
  else
    let src := prob s (if q.warmMode = 1 then q.warmSrc else p)
    if src.st = .empty then none
    else match src.im, pourBefore src s.lt with
      | some im, some d => d.it.map (fun it => (im, it, d.steep))
      | _, _ => none

/-- The warm-start point of R86 to R88, and the source pour's steep number. -/
def warmOf (s : State) (p : Nat) (q : Prob) (im : Image) : WarmPoint × Option W64 :=
  match warmSource s p q with
  | some (src, it, n) => (mapWarm im src it, some n)
  | none => (coldPoint im, none)

/-- The covariance factor a steep starts with (R153): the prior factor of CLASS 3, else the source's factor, diag(P0) where it has
none of this order. -/
def covOf (q : Prob) (im : Image) (hasSrc : Bool) (it : Iterate) : List W64 :=
  if im.cls < 3 then []
  else
    let n := covN im
    let l := if im.cls = 3 then q.est.cov else it.cov
    if hasSrc && l.length == n * (n + 1) / 2 then l else initCov q

/-- Slacks and multipliers at a point as its evaluation would set them (R95, R101), with no flag: what LC holds of them before the
first evaluation (log entry 128). -/
def quietDuals (env : GraphEnv) (it : Iterate) : Iterate :=
  ((do let g ← evalGraph env (askRoles env.im [2]) it.primal
       startDuals env it g.vals : FlM Iterate).run { rnd := env.im.rnd, fixed := true }).1

/-- The starting iterate: pinned blocks take their committed parameters (R89), the factor is the one above. -/
def startPoint (q : Prob) (env : GraphEnv) (hasSrc : Bool) (it : Iterate) : Iterate :=
  quietDuals env { it with primal := pinPoint env.im env.params it.primal, cov := covOf q env.im hasSrc it }

/-- The stages among those given that have a TREE_ROOT, dealt to the steep's pipelines (R134). -/
def dealJdu (im : Image) (pipes : Nat) (stages : List Nat) : List (List Nat) :=
  if hasJdu im ∧ 0 < pipes then
    (List.range pipes).map (fun i => ((im.jduStages.zipIdx).filter (fun x => x.2 % pipes == i && stages.contains x.1)).map Prod.fst)
  else []

/-- The (model, quadrant) shares of an evaluation of the given stages (R172). -/
def dealModels (im : Image) (quads : Nat) (stages : List Nat) : List (Nat × Nat) :=
  if 0 < quads then im.models.flatMap (fun m =>
    (List.range (min quads ((im.modelStages m.model).filter (fun k => stages.contains k)).length)).map (fun i => (m.model, i))) else []

/-- The stages of a model whose inputs depend on the JDU's output (R171). -/
def jduFed (im : Image) (m : Nat) : List Nat :=
  match im.findModel m with
  | none => []
  | some r => (im.stages.filter (fun s => (im.modelStages m).contains s.stage
      && ((im.stageNodes s).filter (fun n => (needsFrom im s ((List.range r.nIn).map (fun j => s.nodeFirst + r.inFirst + j))).contains n.2)).any
          (fun n => n.1.op == 0x40))).map StageRec.stage

/-- A model's evaluation waits for the JDU stages that its inputs depend on (R171). -/
def Steep.modelWaits (t : Steep) (im : Image) (m : Nat) : Bool := (jduFed im m).any (fun k => t.jduLeft.any (fun l => l.contains k))

/-- Every share of the evaluation dealt out last is in. -/
def Steep.sharesIn (t : Steep) : Bool := t.jduLeft.all List.isEmpty && t.modelLeft.isEmpty

/-- Deal out the evaluations that are due: each begins when the one before it is complete, and one with no share for another unit is
complete at once (R134, R172). -/
def dealPasses (im : Image) (c : Sched) : List (List Nat) → Steep → Steep
  | [], t => { t with passes := [] }
  | k :: rest, t =>
    if t.sharesIn then
      dealPasses im c rest { t with begun := t.begun ++ [k], jduLeft := dealJdu im c.pipes k, modelLeft := dealModels im c.quadrants k }
    else { t with passes := k :: rest }

/-- The evaluations of the graphs that an iteration contains, as the stages of each (Table 4-4): before its first evaluation is known
that one alone. -/
def passesOf (c : SolveIn) (evaluated : Bool) : List (List Nat) :=
  if evaluated then c.runIter.2.passes else [if 4 ≤ c.im.cls then [0] else c.im.stages.map StageRec.stage]

/-- Begin an iteration, or the retry of one (R47, R104, R119, R474). -/
def beginIter (s : State) (p : Nat) (im : Image) (t : Steep) : Steep :=
  let t := { t with phase := .running, iterating := true, iterSince := s.lt, breakdowns := 0, jduLeft := [], modelLeft := [], begun := [],
                    retryBegun := t.again }
  dealPasses im (prob s p).sched (passesOf (solveIn s p im t) t.evaluated) t

/-- The evaluations per MODEL that the steep has begun (Table 8-3, word c). -/
def Steep.evalsBegun (t : Steep) (im : Image) : List Nat :=
  (List.range 16).map (fun m => t.evals.getD m 0 + (t.begun.filter (fun k => (im.modelStages m).any (fun x => k.contains x))).length)

/-- Cut or pad a list of words to a length. -/
def fitTo (n : Nat) (l : List W64) : List W64 := (l ++ List.replicate (n - l.length) 0).take n

/-- The trap that a record names (R219): the first in time; of those of one evaluation, whose units run together, the first by UNIT,
STAGE, LOCATION (log entry 129). -/
def firstTrap (l : List TrapOp) : Option TrapOp :=
  match l with
  | [] => none
  | x :: rest =>
    if 3 ≤ x.unit then some x
    else
      let before (a b : TrapOp) : Bool :=
        decide (a.unit < b.unit ∨ (a.unit = b.unit ∧ (a.stage < b.stage ∨ (a.stage = b.stage ∧ a.location < b.location))))
      some ((rest.filter (fun y => y.part == x.part && decide (y.unit ≤ 2))).foldl (fun a y => if before y a then y else a) x)

/-- TRAP_MASK bit number of the exception that traps (R218). -/
def trapBit (mask : Nat) (f : BitVec 5) : Nat := ((List.range 5).find? (fun i => f.getLsbD i && mask.testBit i)).getD 0

/-- Keep a trap's record (R220). -/
def keepTrap (s : State) (im : Image) (t : Steep) (x : TrapOp) (q : Prob) : Prob :=
  { q with
    traps := satInc q.traps
    trap := some { steep := t.number, iteration := min (t.count + 1) 0xFFFF, exception := trapBit im.trapMask x.able, t := x,
                   mode := BitVec.ofNat 8 (b2n (heritage s) + 2 * b2n q.fixed + 4 * im.round) } }

/-- Merge flags of a steep into a sticky record: the record, and what the steep has merged (R206, R217, R221). -/
def mergeFlags {w : Nat} (number : W64) (had new : BitVec w) (r : FlagRec) : FlagRec × BitVec w :=
  if new = 0 then (r, had)
  else
    ({ flags := r.flags ||| new.toNat,
       counts := r.counts.zipIdx.map (fun (c, i) => if new.getLsbD i && !had.getLsbD i then satInc c else c),
       first := if r.first = BitVec.allOnes 64 then number else r.first }, had ||| new)

/-- Merge tensor flags of a steep (R206, log entry 111). -/
def mergeTensor (p : Nat) (t : Steep) (tn : BitVec 5) (s : State) : Steep × State :=
  let m := mergeFlags t.number t.mTensor tn (prob s p).tensor
  ({ t with mTensor := m.2 }, modProb p (fun q => { q with tensor := m.1 }) s)

/-- Merge scalar flags of a steep (R217). -/
def mergeScalar (p : Nat) (t : Steep) (sc : BitVec 7) (s : State) : Steep × State :=
  let m := mergeFlags t.number t.mScalar sc (prob s p).scalar
  ({ t with mScalar := m.2 }, modProb p (fun q => { q with scalar := m.1 }) s)

/-- The factor of a completed iterate after the clamp, and how many elements moved (R154). -/
def clampIter (q : Prob) (im : Image) (it : Iterate) : Iterate × Nat :=
  match q.est.cfg with
  | some c =>
    if im.cls = 4 ∨ im.cls = 5 then (let r := clampCov c (covN im) it.cov; ({ it with cov := r.1 }, r.2)) else (it, 0)
  | none => (it, 0)

/-- R98: a value that a completion would commit is not finite. -/
def nonFinite (im : Image) (params : List W64) (it : Iterate) : Bool :=
  let act := im.sides.map (sideActive params)
  it.primal.any (fun v => !isFin64 v) || it.eqMult.any (fun v => !isFin64 v) || it.ineqMult.any (fun v => !isFin64 v)
  || (it.slack.zip act).any (fun x => x.2 && !isFin64 x.1) || it.cov.any (fun v => !isFin64 v)
  || !isFin64 it.rp || !isFin64 it.rd || !isFin64 it.mu

/-- The iterate record's arrays (Table 4-6). -/
def iterateArrays (it : Iterate) (cert : Bool) : List Byte :=
  (it.primal ++ it.eqMult ++ it.ineqMult ++ it.slack ++ (if cert then it.cert else [])).flatMap (wBytes 8)

/-- The iterate record's header (Table 4-5). -/
def iterateHeader (steep : W64) (status : W32) (im : Image) (rp rd mu : W64) (cert : Bool) : List Byte :=
  wBytes 8 steep ++ wBytes 4 status ++ leBytes 4 im.nVars ++ leBytes 4 im.nEq ++ leBytes 4 im.nIneq ++ wBytes 8 rp ++ wBytes 8 rd
  ++ wBytes 8 mu ++ leBytes 1 (b2n cert) ++ zeros 15

end Sys2Proof.Machine
end

