-- ==== Sys2Proof/Machine/Pours.lean ====
section
/-! DEFINITION. Where a pour goes: the digest, the twin's digest, the pour ring, client streams, pour slots; the commands that set
rings and streams (R264, R276, R277, R343, R352, R369, R370, R425 to R427, R526). -/
namespace Sys2Proof.Machine

/-- The bytes a digest absorbs of a pour (R264, R369). -/
def digestBytes (steep : W64) (status : W32) (result : List W64) : List Byte :=
  wBytes 8 steep ++ wBytes 4 (twinMask status) ++ result.flatMap (wBytes 8)

/-- R264: a pour numbered DIGEST_FROM or above is absorbed. -/
def absorb (steep : W64) (status : W32) (result : List W64) (q : Prob) : Prob :=
  if steep.toNat < q.digestFrom.toNat then q
  else { q with digest := fnv q.digest (digestBytes steep status result), digestPours := satInc q.digestPours, digestLast := steep }

/-- Write a pour to the problem's ring (R426, R427, Table 18-11). -/
def ringPour (p : Nat) (steep : W64) (status : W32) (result : List W64) (s : State) : State :=
  match s.rings.find? (fun e => e.2.problem == some p) with
  | none => s
  | some (k, r) =>
    let size := 2 ^ r.log2
    if (r.head - r.tail).toNat = size then { s with rings := s.rings.set k { r with dropped := satInc r.dropped } }
    else
      let i := r.head.toNat % size
      let a := r.base.toNat + i * r.entryBytes
      let body := wBytes 8 steep ++ leBytes 2 p ++ zeros 2 ++ leBytes 4 (8 * result.length) ++ zeros 8 ++ result.flatMap (wBytes 8)
      let lap := if i + 1 = size then (if r.lap = 0xFFFFFFFF then 1 else r.lap + 1) else r.lap
      raise (16 + k) (post .host a (wBytes 4 status ++ wBytes 4 r.lap)
        (post .host (a + 8) body { s with rings := s.rings.set k { r with head := r.head + 1, lap := lap } }))

/-- Cut a list into parts of `n` bytes; an empty list is one empty part. -/
def partsOf (n : Nat) (l : List Byte) : List (List Byte) :=
  if l.isEmpty then [[]] else (List.range (ceilDiv l.length (max n 1))).map (fun i => (l.drop (i * n)).take n)

/-- DATA bytes of a part (R352). -/
def partBytes (mtu : Nat) (t : Transport) : Nat :=
  let ip := match t with | .ipv4 => 28 | .ipv6 => 48 | .raw => 0
  (mtu - (18 + ip + 16 + 32 + 4)) / 8 * 8

/-- The POUR frames of a set (Table 15-9). -/
def pourFrames (p client seq : Nat) (steep : W64) (status : W32) (mtu : Nat) (t : Transport) (bs : List Byte) : List (List Byte) :=
  let n := partBytes mtu t
  let ps := partsOf n bs
  ps.zipIdx.map (fun (d, i) => yspFrame 0x82 client ((seq + i) % 2 ^ 32)
    (leBytes 2 p ++ leBytes 2 i ++ leBytes 2 ps.length ++ zeros 2 ++ wBytes 8 steep ++ wBytes 4 status ++ leBytes 4 bs.length
      ++ leBytes 4 (i * n) ++ zeros 4 ++ d))

/-- Send one pour to one destination (R343, R352, R526): a set for its client's addresses on every egress port; nothing for a
client without an entry. -/
def streamPour (p : Nat) (steep : W64) (status : W32) (bs : List Byte) (d : Dest) (s : State) : State :=
  let c := s.clients.get d.client.toNat
  if !c.used then s
  else
    let cb : Option SeqGen := if d.cb = 0xFFFF then none else s.net.gens.get? d.cb
    let ports := match cb with
      | some g => [g.p0, g.p1].filter (fun k => (port s k).state == PortState.up)
      | none => egressOf s c.mac (s.net.cfg.vlan.setWidth 12) none
    if ports.isEmpty then s
    else
      let mtu := (ports.map (fun k => (port s k).cfg.mtu)).foldl Nat.min 65535
      let fs := pourFrames p d.client.toNat c.outSeq.toNat steep status mtu c.transport bs
      let s := { s with clients := s.clients.set d.client.toNat { c with outSeq := c.outSeq + BitVec.ofNat 32 fs.length } }
      let s := match cb with
        | some g => modNet (fun n => { n with gens := n.gens.set d.cb { g with seq := g.seq + BitVec.ofNat 16 fs.length } }) s
        | none => s
      forAll ports (fun k t => enqueue k d.tc (.pour d.client p steep false { clientDst s c with rtag := cb.map SeqGen.seq } fs) (trimSets d.client p k t)) s

/-- `y × 2^15` to the nearest integer, ties to even, saturated to 16 bits (R277); `y` finite. -/
def q15Of (y : W64) : Int :=
  match decodeF f64 y.toNat with
  | .fin neg m e =>
    let k := e + 15
    let a : Int := if 0 ≤ k then (if 64 < k ∧ m ≠ 0 then 65536 else (m * 2 ^ k.toNat : Nat)) else rneDiv m (2 ^ (-k).toNat)
    clampI (-32768) 32767 (if neg then -a else a)
  | _ => 0

/-- R277: the pour path's part of a slot write: the codes of every entry, or a refusal counted. -/
def slotPour (p : Nat) (status : W32) (result : List W64) (s : State) : State :=
  match s.edge.binds.get? p with
  | none => s
  | some b =>
    let ys := b.entries.map (fun e => (e.slot, b64 (ffma f64 .rne (result.getD e.element 0).toNat e.scale.toNat e.offset.toNat).v))
    let b' := if !b.accept.getLsbD (statusCode status) then { b with refused := satInc b.refused }
      else if ys.any (fun y => !isFin64 y.2) then { b with nonfinite := satInc b.nonfinite }
      else { b with pours := b.pours ++ [ys.map (fun y => (y.1, q15Of y.2))] }
    modEdge (fun e => { e with binds := e.binds.set p b' }) s

/-- Write the oldest pour on its way to the edge die into its slots (R277). -/
def writeSlots (p : Nat) (e : Edge) : Edge :=
  match e.binds.get? p with
  | none => e
  | some b =>
    match b.pours with
    | [] => e
    | x :: rest =>
      if e.on then
        { e with binds := e.binds.set p { b with pours := rest, fresh := some e.tick }
                 slots := x.foldl (fun t y => t.set y.1 y.2) e.slots }
      else { e with binds := e.binds.set p { b with pours := rest } }

/-- SLOT_WRITE (R277). -/
def doSlotWrite (p : Fin 1024) (s : State) : State := modEdge (writeSlots p) s
/-- SLOT_WRITE (R277). -/
def execSlotWrite (p : Fin 1024) (s : State) : Host.Outcome State Fault Refusal := finish s (doSlotWrite p s)

/-- TWIN_DIVERGE's DATA (Table 18-15). -/
def divergeData (steep : W64) (kind : Nat) (st1 st2 : W32) (d1 d2 : W64) : List Byte :=
  wBytes 8 steep ++ leBytes 1 kind ++ zeros 3 ++ wBytes 4 st1 ++ wBytes 4 st2 ++ zeros 4 ++ wBytes 8 d1 ++ wBytes 8 d2

/-- Compare the two digests of a steep (R369, R370). -/
def compareDigests (p : Nat) (steep : W64) (st1 st2 : W32) (d1 d2 : W64) (s : State) : State :=
  if d1 = d2 then modProb p (fun q => { q with twin := { q.twin with matched := satInc q.twin.matched } }) s
  else event 0x40 p (divergeData steep 0 st1 st2 d1 d2)
    (modProb p (fun q => { q with twin := { q.twin with diverged := satInc q.twin.diverged } }) s)

/-- R369: at a freeze of a PAIRED steep the digest goes to the partner, and is compared when the partner's has come. -/
def twinPour (p : Nat) (mismatch : Bool) (steep : W64) (status : W32) (result : List W64) (s : State) : State :=
  let st := twinMask status
  let d := fnv fnvBasis (digestBytes steep status result)
  let s := putVc2 0 1 (.twin 1 p [steep, st.setWidth 64, d, BitVec.ofNat 64 (b2n mismatch)]) s
  match (prob s p).twin.partner.find? (fun x => x.1 == steep) with
  | some x =>
    compareDigests p steep st x.2.1 d x.2.2
      (modProb p (fun q => { q with twin := { q.twin with partner := q.twin.partner.filter (fun x => x.1 != steep) } }) s)
  | none => modProb p (fun q => { q with twin := { q.twin with own := q.twin.own ++ [(steep, st, d, s.lt)] } }) s

/-- Every destination of a pour (R15, R24): ring, streams, slots. -/
def deliverPour (p : Nat) (steep : W64) (status : W32) (result : List W64) (s : State) : State :=
  let s := ringPour p steep status result s
  let s := forAll (prob s p).dests (streamPour p steep status (result.flatMap (wBytes 8))) s
  slotPour p status result s

/-- The ring a problem is bound to. -/
def ringOf (s : State) (p : Nat) : Option Nat := (s.rings.find? (fun e => e.2.problem == some p)).map Prod.fst

/-- POUR_RING_SET (R425). With ENABLE 1 the base meets R413 and R422 as every descriptor address does: a frame-borne base in master memory
completes with BAD_ADDRESS (log entry 141). -/
def effPourRing (m : Cmd) (s : State) : State × Reply :=
  let a := argBytes m.c
  let k := u8 a 0
  let lg := u8 a 1
  let en := u8 a 2
  let res := match (prob s (pOf m)).im with | some im => im.resultBytes | none => 0
  let mine := ringOf s (pOf m)
  let elsewhere := (match mine with | some j => j != k | none => false)
    || (match (s.rings.get k).problem with | some q => q != pOf m | none => false)
  checked (descChecks true false m
      ++ [(en == 1 && addrBad m m.c.addr 0, stBadAddress), ((prob s (pOf m)).st == .empty, stNotLoaded),
          (decide (31 < k ∨ 1 < en) || (en == 1 && (decide (lg < 4 ∨ 16 < lg ∨ m.c.addr.toNat % 4096 ≠ 0) || m.c.addr.getLsbD 63)), stRingRange),
          (en == 1 && decide (lenOf m % 64 ≠ 0 ∨ lenOf m < 32 + res), stRingRange),
          (elsewhere, stRingRange)]) s
    (okay (if en = 1 then
        { s with rings := s.rings.mod k (fun r => { r with problem := some (pOf m), base := m.c.addr, log2 := lg, entryBytes := lenOf m,
                                                           head := 0, tail := 0, lap := 1 }) }
      else if mine = some k then { s with rings := s.rings.mod k (fun r => { r with problem := none }) }
      else s))

/-- POUR_RING_SET, 0x0313 (R425). -/
def execPourRingSet (c : CmdIn) (s : State) : Host.Outcome State Fault Refusal := finish s (submit 0x0313 effPourRing c s)

/-- POUR_STREAM_SET (R526). -/
def effPourStream (m : Cmd) (s : State) : State × Reply :=
  let bs := inRec s m
  let n := u8 bs 2
  let es := chunks 8 n (bs.drop 8)
  let ds := es.map (fun e => (⟨byteAt e 0, u8 e 1, u16 e 2⟩ : Dest))
  checked (descChecks true false m ++ inChecks m (some (u16 bs 0)) (8 + 8 * n)
      ++ [((prob s (pOf m)).st == .empty, stNotLoaded),
          (decide (8 < n) || !zeroAt bs 3 5 || es.any (fun e => decide (7 < u8 e 1 ∨ (127 < u16 e 2 ∧ u16 e 2 ≠ 0xFFFF)) || !zeroAt e 4 4)
            || !decide (ds.map Dest.client).Nodup, stTsnRange)]) s
    (okay (modProb (pOf m) (fun q => { q with dests := ds }) s))

/-- POUR_STREAM_SET, 0x0516 (R526). -/
def execPourStreamSet (c : CmdIn) (s : State) : Host.Outcome State Fault Refusal := finish s (submit 0x0516 effPourStream c s)

end Sys2Proof.Machine
end

