-- ==== Sys2Proof/Machine/LoopOps.lean ====
section
/-! DEFINITION. Commands and register writes of the loop engine: starts, stops, slot bindings, profiles (R272, R276, R278, R280 to
R290). -/
namespace Sys2Proof.Machine

/-- The loops that are STOPPING among a list, as a mask. -/
def stoppingMask (e : Edge) (ns : List Nat) : W32 :=
  ns.foldl (fun m n => if (loopN e n).state = .stopping then m ||| ((1#32) <<< n) else m) 0

/-- LOOP_START (R283, R284): every named loop starts, or each that R284 refuses sets CFG_ERR and none starts. -/
def effLoopStart (m : Cmd) (s : State) : State × Reply :=
  let ns := bitsOf (argN m.c 0 4) 32
  let bad := ns.filter (fun n => startBad s.edge n (takenLoops s.edge ++ ns))
  checked (descChecks false false m) s
    (if bad.isEmpty then okay (modEdge (fun e => ns.foldl (fun e n => askStart n e) e) s)
     else (modEdge (fun e => bad.foldl (fun e n => e.modLoop n (fun l => { l with cfgErr := true })) e) s, .done stLoopConfig []))

/-- LOOP_STOP (R285): it completes when every stop that it named has completed. -/
def effLoopStop (m : Cmd) (s : State) : State × Reply :=
  let ns := bitsOf (argN m.c 0 4) 32
  let e := ns.foldl (fun e n => askStop n e) s.edge
  let mask := stoppingMask e ns
  checked (descChecks false false m) s
    (if mask = 0 then okay { s with edge := e } else ({ s with edge := e }, .held (.loops mask) false))

/-- LOOP_START, 0x0601 (R283). -/
def execLoopStart (c : CmdIn) (s : State) : Host.Outcome State Fault Refusal := finish s (submit 0x0601 effLoopStart c s)
/-- LOOP_STOP, 0x0602 (R285). -/
def execLoopStop (c : CmdIn) (s : State) : Host.Outcome State Fault Refusal := finish s (submit 0x0602 effLoopStop c s)

/-- An entry of a slot binding record (Table 12-3). -/
def parseSlotEntry (bs : List Byte) : SlotEntry := { slot := u8 bs 0, element := u32 bs 4, scale := w64At bs 8, offset := w64At bs 16 }

/-- The entries of a slot binding record. -/
def slotRecords (bs : List Byte) : List (List Byte) := chunks 24 (u16 bs 2) (bs.drop 16)

/-- No value twice. -/
def noRepeats : List Nat → Bool
  | [] => true
  | x :: xs => !xs.contains x && noRepeats xs

/-- R276: SLOT_RANGE; `nres` is the number of result values. -/
def slotMapBad (bs : List Byte) (nres : Nat) : Bool :=
  let n := u16 bs 2
  let es := slotRecords bs
  decide (64 < n) || decide (u16 bs 4 / 512 ≠ 0) || (u16 bs 4).testBit 7 || !zeroAt bs 6 2 || !zeroAt bs 12 4
  || (n != 0 && decide (u32 bs 8 < 10 ∨ 10000000 < u32 bs 8))
  || es.any (fun r => let x := parseSlotEntry r
      decide (63 < x.slot ∨ nres ≤ x.element) || !zeroAt r 1 3 || !isFin64 x.scale || !isFin64 x.offset)
  || !noRepeats (es.map (fun r => u8 r 0))

/-- Every pour of a problem that is on its way to the edge die is written (R276). -/
def flushPours (p : Nat) (e : Edge) : Edge := ((Tbl.get e.binds p).pours).foldl (fun e _ => writeSlots p e) e

/-- SLOT_MAP_SET's effect (R276): pours under way go by the previous binding; a replaced binding keeps its age. -/
def setBinding (p : Nat) (bs : List Byte) (e : Edge) : Edge :=
  let e := flushPours p e
  if u16 bs 2 = 0 then dropBinding p e
  else { e with binds := e.binds.set p { Tbl.get e.binds p with
          accept := BitVec.ofNat 16 (u16 bs 4), staleUs := u32 bs 8, entries := (slotRecords bs).map parseSlotEntry } }

/-- SLOT_MAP_SET (R276). -/
def effSlotMap (m : Cmd) (s : State) : State × Reply :=
  let bs := inRec s m
  let p := pOf m
  let nres := match (prob s p).im with | some im => im.resultBytes / 8 | none => 0
  let others := (s.edge.binds.filter (fun b => b.1 != p)).flatMap (fun b => b.2.entries.map SlotEntry.slot)
  checked (descChecks true false m ++ inChecks m (some (u16 bs 0)) (16 + 24 * u16 bs 2)
      ++ [((prob s p).st == .empty, stNotLoaded), (slotMapBad bs nres, stSlotRange),
          ((slotRecords bs).any (fun r => others.contains (u8 r 0)), stSlotConflict)]) s
    (okay (modEdge (setBinding p bs) s))

/-- SLOT_MAP_SET, 0x0603 (R276). -/
def execSlotMapSet (c : CmdIn) (s : State) : Host.Outcome State Fault Refusal := finish s (submit 0x0603 effSlotMap c s)

/-- Word `i` of loop `n` in a profile (R287), without its reserved bits. -/
def profileWord (bs : List Byte) (n i : Nat) : W32 := loopWord i (BitVec.ofNat 32 (u32 bs (0x40 + 64 * n + 4 * i)))
/-- LE_SEL_MEMBERS of selector `m` in a profile. -/
def profileMembers (bs : List Byte) (m : Nat) : W32 := BitVec.ofNat 32 (u32 bs (0x840 + 16 * m))
/-- LE_SEL_CFG of selector `m` in a profile. -/
def profileSelCfg (bs : List Byte) (m : Nat) : W32 := BitVec.ofNat 32 (u32 bs (0x844 + 16 * m)) &&& 0x3F
/-- AUTOSTART. -/
def profileAuto (bs : List Byte) : W32 := BitVec.ofNat 32 (u32 bs 0x10)

/-- The form of a profile record: MAGIC, VERSION, SIZE, CHECK and the reserved fields (R287, R288). -/
def profileForm (bs : List Byte) : Bool :=
  u32 bs 0 == 0x4C584459 && u16 bs 4 == 1 && u16 bs 6 == 0x8C0 && w64At bs 8 == fnv fnvBasis ((bs.drop 0x10).take 0x8B0)
  && zeroAt bs 0x14 44 && (List.range 32).all (fun n => zeroAt bs (0x40 + 64 * n + 60) 4)
  && (List.range 8).all (fun m => zeroAt bs (0x840 + 16 * m + 8) 8)

/-- The values of a profile go into the registers of a STOPPED loop (R267, R289). -/
def loadLoop (bs : List Byte) (n : Nat) (l : Loop) : Loop :=
  let ws := (List.range 15).map (profileWord bs n)
  { l with written := ws, force := ws, latch := none }
/-- The values of a profile go into a selector (R289). -/
def loadSel (bs : List Byte) (m : Nat) (x : Selector) : Selector := { x with members := profileMembers bs m, cfg := profileSelCfg bs m }

/-- A profile goes into the registers of some loops and selectors. -/
def loadInto (bs : List Byte) (loops sels : List Nat) (e : Edge) : Edge :=
  let e := loops.foldl (fun e n => e.modLoop n (loadLoop bs n)) e
  { e with sels := sels.foldl (fun t m => t.mod m (loadSel bs m)) e.sels }

/-- R288: PROFILE_BAD; R284 is applied to the loops of AUTOSTART as the record sets them. -/
def profileBad (bs : List Byte) : Bool :=
  let auto := bitsOf (profileAuto bs).toNat 32
  let e := loadInto bs (List.range 32) (List.range 8) ({} : Edge)
  !profileForm bs || auto.any (fun n => startBad e n auto)

/-- PROFILE_WRITE (R288). -/
def effProfileWrite (m : Cmd) (s : State) : State × Reply :=
  let bs := inRec s m
  let i := argN m.c 0 1
  checked (descChecks false false m ++ inChecks m none 2240 ++ [(decide (7 < i) || profileBad bs, stProfileBad)]) s
    (okay (storeLater 0 i bs s))

/-- PROFILE_LOAD (R289). -/
def effProfileLoad (m : Cmd) (s : State) : State × Reply :=
  let mask := BitVec.ofNat 32 (argN m.c 4 4)
  let ns := bitsOf mask.toNat 32
  let prof := if argN m.c 0 1 < 8 then s.edge.profiles.get? (argN m.c 0 1) else none
  let bs := prof.getD []
  let sels := (List.range 8).filter (fun k => ((s.edge.sels.get k).members ||| profileMembers bs k) &&& ~~~mask == 0)
  checked (descChecks false false m
      ++ [(ns.any (fun n => (loopN s.edge n).state != .stopped), stLoopRunning), (!prof.any profileForm, stProfileEmpty)]) s
    (okay (modEdge (fun e =>
      let e := loadInto bs ns sels e
      if (argN m.c 1 1).testBit 0 then (bitsOf (mask &&& profileAuto bs).toNat 32).foldl (fun e n => startOne n e) e else e) s))

/-- PROFILE_BOOT_SET (R289). -/
def effProfileBoot (m : Cmd) (s : State) : State × Reply :=
  let i := argN m.c 0 1
  checked (descChecks false false m ++ [(decide (7 < i ∧ i ≠ 0xFF), stProfileEmpty)]) s (okay (storeLater 1 0 (leBytes 1 i) s))

/-- PROFILE_WRITE, 0x0604 (R288). -/
def execProfileWrite (c : CmdIn) (s : State) : Host.Outcome State Fault Refusal := finish s (submit 0x0604 effProfileWrite c s)
/-- PROFILE_LOAD, 0x0605 (R289). -/
def execProfileLoad (c : CmdIn) (s : State) : Host.Outcome State Fault Refusal := finish s (submit 0x0605 effProfileLoad c s)
/-- PROFILE_BOOT_SET, 0x0606 (R289). -/
def execProfileBootSet (c : CmdIn) (s : State) : Host.Outcome State Fault Refusal := finish s (submit 0x0606 effProfileBoot c s)

/-- The direct window is open: Rankoaz is ready and the edge die is powered (R410). -/
def edgeOpen (s : State) : Bool := ready s && s.edge.on

/-- A write of a word of a loop (R267, R280): in force on receipt while STOPPED; otherwise it waits for the boundary, or is
ignored apart from KP_COMP. -/
def writeWord (tick i : Nat) (v : W32) (l : Loop) : Loop :=
  let v := loopWord i v
  if l.state = .stopped then forceOne { l with written := l.written.set i v } (i, v)
  else if i = 0 then
    let w := (l.force.getD 0 0 &&& 0xBFFFFFFF) ||| (v &&& 0x40000000)
    { l with written := l.written.set 0 w, queue := l.queue ++ [(0, w, tick)], cfgIgnored := l.cfgIgnored || w != v }
  else if i < 4 then { l with cfgIgnored := true }
  else { l with written := l.written.set i v, queue := l.queue ++ [(i, v, tick)] }

/-- A write of HOLD (R281). -/
def writeHold (tick : Nat) (h : Bool) (l : Loop) : Loop :=
  let w : W32 := BitVec.ofNat 32 (b2n h)
  if l.state = .stopped then forceOne { l with hold := h } (16, w) else { l with hold := h, queue := l.queue ++ [(16, w, tick)] }

/-- A write of CLEAR_SAFE as 1 (R278). -/
def writeClear (tick : Nat) (l : Loop) : Loop :=
  if l.state = .stopped then forceOne l (17, 0) else { l with queue := l.queue ++ [(17, 0, tick)] }

/-- A write of LE_SEL_MEMBERS or LE_SEL_CFG (R272). -/
def writeSel (m : Nat) (cfg : Bool) (v : W32) (e : Edge) : Edge :=
  let x := e.sels.get m
  let ns := bitsOf (x.members ||| (if cfg then 0 else v)).toNat 32
  if ns.any (fun n => (loopN e n).state != .stopped) then
    ns.foldl (fun e n => e.modLoop n (fun l => if l.state = .stopped then l else { l with cfgIgnored := true })) e
  else { e with sels := e.sels.set m (if cfg then { x with cfg := v &&& 0x3F } else { x with members := v }) }

/-- A write of RUN (R283, R285, R286). -/
def writeRun (n : Nat) (run : Bool) (e : Edge) : Edge := if run then startOne n e else askStop n e

/-- LE_RUN_WRITE (R283, R285). -/
def doLeRun (n : Fin 32) (run : Bool) (s : State) : State := when (edgeOpen s) (modEdge (writeRun n run)) s
/-- LE_HOLD_WRITE (R281). -/
def doLeHold (n : Fin 32) (h : Bool) (s : State) : State := when (edgeOpen s) (modEdge (fun e => e.modLoop n (writeHold e.tick h))) s
/-- CLEAR_SAFE (R278). -/
def doClearSafe (n : Fin 32) (s : State) : State := when (edgeOpen s) (modEdge (fun e => e.modLoop n (writeClear e.tick))) s
/-- LE_CFG_WRITE (R280): register 0 LE_CFG, 1 LE_PERIOD, 2 LE_PHASE, 3 LE_PV_ORIGIN. -/
def doLeCfg (n : Fin 32) (r : Fin 4) (v : W32) (s : State) : State := when (edgeOpen s) (modEdge (fun e => e.modLoop n (writeWord e.tick r v))) s
/-- LE_SEL_WRITE (R272). -/
def doLeSel (m : Fin 8) (cfg : Bool) (v : W32) (s : State) : State := when (edgeOpen s) (modEdge (writeSel m cfg v)) s

/-- LE_RUN_WRITE (R283). -/
def execLeRunWrite (n : Fin 32) (run : Bool) (s : State) : Host.Outcome State Fault Refusal := finish s (doLeRun n run s)
/-- LE_HOLD_WRITE (R281). -/
def execLeHoldWrite (n : Fin 32) (h : Bool) (s : State) : Host.Outcome State Fault Refusal := finish s (doLeHold n h s)
/-- CLEAR_SAFE (R278). -/
def execClearSafe (n : Fin 32) (s : State) : Host.Outcome State Fault Refusal := finish s (doClearSafe n s)
/-- LE_CFG_WRITE (R280). -/
def execLeCfgWrite (n : Fin 32) (r : Fin 4) (v : W32) (s : State) : Host.Outcome State Fault Refusal := finish s (doLeCfg n r v s)
/-- LE_SEL_WRITE (R272). -/
def execLeSelWrite (m : Fin 8) (cfg : Bool) (v : W32) (s : State) : Host.Outcome State Fault Refusal := finish s (doLeSel m cfg v s)
/-- SLOT_STALE (R278): the age runs from the last accepted pour, so that a binding turns stale with LE_TICK alone; its loops
follow their STALE_ACT at their next boundary (log entry 17). -/
def execSlotStale (_p : Fin 1024) (s : State) : Host.Outcome State Fault Refusal := finish s s

/-- The boot profile (R290): its outcome, and the engine loaded and started. -/
def bootProfileRun (e : Edge) : Edge :=
  match e.bootProfile with
  | none => { e with bootRecord := some (0xFF, 2) }
  | some i =>
    match e.profiles.get? i with
    | some bs =>
      if profileForm bs then
        let e := loadInto bs (List.range 32) (List.range 8) e
        { (bitsOf (profileAuto bs).toNat 32).foldl (fun e n => startOne n e) e with bootStarted := true, bootRecord := some (i, 0) }
      else { e with bootInvalid := true, bootRecord := some (i, 1) }
    | none => { e with bootInvalid := true, bootRecord := some (i, 1) }

/-- BOOT_PROFILE_START (R290), at +5 ms. -/
def doBootProfile (s : State) : State :=
  if s.pwr.stage = .edge then modPwr (fun w => { w with stage := .profile }) (modEdge bootProfileRun s) else s
/-- BOOT_PROFILE_START (R290). -/
def execBootProfileStart (s : State) : Host.Outcome State Fault Refusal := finish s (doBootProfile s)

end Sys2Proof.Machine
end

