-- ==== Sys2Proof/Machine/Fio.lean ====
section
/-! DEFINITION. Field inputs and outputs: configuration, conversion, pulse counting, faults, set registers (R294 to R306). -/
namespace Sys2Proof.Machine

/-- An active selector or a loop that runs, or an output on its way, drives an output (R296): 1 analog, 2 digital. -/
def loopDriven (e : Edge) (dest idx : Nat) : Bool :=
  (List.range 32).any (fun n => (loopN e n).state != .stopped && (targetOf e n).2 == (dest, idx))
  || e.outs.any (fun o => o.dest == dest && o.index == idx)

/-- The common bits of a channel status register (Table 13-5). -/
def chanBits (live seen : BitVec 4) : Nat := live.toNat + 16 * b2n (live != 0) + 256 * seen.toNat
/-- FIO_AIN_STATUS. -/
def ainStatus (e : Edge) (i : Nat) : W32 :=
  let a := e.ains.get i
  BitVec.ofNat 32 (chanBits a.live a.seen + 2 ^ 18 * b2n a.calInvalid)
/-- FIO_PIN_STATUS. -/
def pinStatus (e : Edge) (i : Nat) : W32 :=
  let a := e.pins.get i
  BitVec.ofNat 32 (17 * b2n a.live + 256 * b2n a.seen + 2 ^ 24 * a.quadErr.toNat)
/-- FIO_AOUT_STATUS. -/
def aoutStatus (e : Edge) (i : Nat) : W32 :=
  let a := e.aouts.get i
  BitVec.ofNat 32 (chanBits a.live a.seen + 2 ^ 16 * b2n (loopDriven e 1 i) + 2 ^ 17 * b2n a.ignored + 2 ^ 18 * b2n a.calInvalid)
/-- FIO_DOUT_STATUS. -/
def doutStatus (e : Edge) (i : Nat) : W32 :=
  let a := e.douts.get i
  BitVec.ofNat 32 (chanBits a.live a.seen + 4096 * b2n a.latched + 2 ^ 16 * b2n (loopDriven e 2 i) + 2 ^ 17 * b2n a.ignored)
/-- FIO_SUPPLY (Table 13-6). -/
def supplyReg (e : Edge) : W32 := BitVec.ofNat 32 (b2n e.vioLow + 2 * b2n e.vioReversed + 4 * b2n e.cfgInvalid)

/-- Number of a kind in ARG of FIO_CONDITION. -/
def fioKindNum : FioKind → Nat
  | .ain => 0 | .pin => 1 | .aout => 2 | .dout => 3 | .vio => 4
/-- The status register that FIO_CONDITION carries. -/
def fioStatus (e : Edge) (k : FioKind) (i : Nat) : W32 :=
  match k with
  | .ain => ainStatus e i
  | .pin => pinStatus e i
  | .aout => aoutStatus e i
  | .dout => doutStatus e i
  | .vio => supplyReg e
/-- A live condition changed: it is recorded (R303). -/
def fioEvent (k : FioKind) (i : Nat) (s : State) : State :=
  edgeEvent 3 (256 * fioKindNum k + i) (wBytes 4 (fioStatus s.edge k i)) s

/-- Entry offsets of the configuration record (Table 13-3). -/
def fioOff : Nat → Nat
  | 0 => 0x10 | 1 => 0x50 | 2 => 0x90 | _ => 0xD0
/-- The 8-byte entry of a channel: kind 0 AIN, 1 PIN, 2 AOUT, 3 DOUT. -/
def fioEntry (bs : List Byte) (kind i : Nat) : List Byte := (bs.drop (fioOff kind + 8 * i)).take 8

/-- Defaults of the Range column (Table 13-4). -/
def fioDefaultBody : List Byte :=
  zeros 64 ++ (List.replicate 8 ([0#8, 4#8] ++ zeros 6)).flatten ++ zeros 64 ++ (List.replicate 8 (zeros 4 ++ leBytes 4 64000)).flatten
/-- A record around its entries. -/
def fioRecord (body : List Byte) : List Byte :=
  leBytes 4 0x46584459 ++ leBytes 2 1 ++ leBytes 2 0x110 ++ wBytes 8 (fnv fnvBasis body) ++ body
/-- The record in force (R306): the defaults where none is. -/
def fioInForce (e : Edge) : List Byte := e.fioForce.getD (fioRecord fioDefaultBody)

/-- TRIM_OFFSET and TRIM_GAIN are in range (Table 13-4). -/
def trimOk (bs : List Byte) (off : Nat) : Bool :=
  decide (-512 ≤ s16 bs off ∧ s16 bs off ≤ 511 ∧ -2048 ≤ s16 bs (off + 2) ∧ s16 bs (off + 2) ≤ 2047)
/-- An entry lies within Table 13-4. -/
def fioEntryOk (kind : Nat) (bs : List Byte) : Bool :=
  match kind with
  | 0 => decide (u8 bs 0 ≤ 1 ∧ u8 bs 1 ≤ 6 ∧ u8 bs 2 ≤ u8 bs 0) && zeroAt bs 3 1 && trimOk bs 4
  | 1 => decide (u8 bs 0 ≤ 2) && zeroAt bs 2 6
  | 2 => trimOk bs 0 && zeroAt bs 6 2
  | _ => decide (u8 bs 0 ≤ 1 ∧ u8 bs 1 ≤ 1 ∧ 3200 ≤ u32 bs 4 ∧ u32 bs 4 ≤ 6400000) && zeroAt bs 2 2
/-- R304, R306: a record that passes its check. -/
def fioGood (bs : List Byte) : Bool :=
  bs.length == 272 && u32 bs 0 == 0x46584459 && u16 bs 4 == 1 && u16 bs 6 == 0x110 && w64At bs 8 == fnv fnvBasis ((bs.drop 0x10).take 0x100)
  && (List.range 4).all (fun k => (List.range 8).all (fun i => fioEntryOk k (fioEntry bs k i)))

/-- A channel takes its entry; one whose mode changes clears its live conditions and history and starts detection again (R306). -/
def Ain.take (bs : List Byte) (a : Ain) : Ain :=
  let cur := u8 bs 0 == 1
  let b := { a with current := cur, filter := u8 bs 1, liveZero := bitN (u8 bs 2) 0, trimOff := s16 bs 4, trimGain := s16 bs 6 }
  if cur == a.current then b else { b with live := 0, hist := [], raw := [], tests := (0, 0), zeroRun := (0, 0) }
/-- The same for a pulse input. -/
def Pin.take (bs : List Byte) (a : Pin) : Pin :=
  let b := { a with mode := u8 bs 0, glitch := u8 bs 1 }
  if b.mode = a.mode then b else { b with live := false, hist := [] }
/-- The same for an analog output, which has no mode. -/
def Aout.take (bs : List Byte) (a : Aout) : Aout := { a with trimOff := s16 bs 0, trimGain := s16 bs 2, dflt := s16 bs 4 }
/-- The same for a digital output. -/
def Dout.take (bs : List Byte) (a : Dout) : Dout :=
  let pwm := u8 bs 0 == 1
  let b := { a with pwm := pwm, latchAct := u8 bs 1 == 1, period := u32 bs 4 }
  if pwm == a.pwm then b else { b with live := 0, latched := false, shortOff := none }

/-- Change every entry of a table of eight. -/
def Tbl.each8 [Inhabited α] (t : Tbl α) (f : Nat → α → α) : Tbl α := (List.range 8).foldl (fun t i => t.mod i (f i)) t

/-- A record comes into force (R304, R306). -/
def applyFio (bs : List Byte) (e : Edge) : Edge :=
  { e with
    fioForce := some bs
    ains := e.ains.each8 (fun i => Ain.take (fioEntry bs 0 i))
    pins := e.pins.each8 (fun i => Pin.take (fioEntry bs 1 i))
    aouts := e.aouts.each8 (fun i => Aout.take (fioEntry bs 2 i))
    douts := e.douts.each8 (fun i => Dout.take (fioEntry bs 3 i)) }

/-- A running loop reads or drives a channel, or an active selector drives it (R306). -/
def fioUsed (e : Edge) (kind i : Nat) : Bool :=
  match kind with
  | 0 => (List.range 32).any (fun n => let l := loopN e n
      l.state != .stopped && ((l.cfg 3 2 == 2 && l.cfg 9 4 == i) || (l.cfg 1 0 == 0 && l.cfg 11 10 == 0 && l.cfg 17 12 == i)
        || (l.cfg 19 18 == 1 && l.cfg 21 20 == 2 && l.cfg 24 22 == i)))
  | 1 => (List.range 32).any (fun n => let l := loopN e n
      l.state != .stopped && ((l.cfg 3 2 == 3 && l.cfg 9 4 == i)
        || (l.cfg 1 0 == 0 && (l.cfg 11 10 == 1 || l.cfg 11 10 == 2) && l.cfg 17 12 == i)
        || (l.cfg 19 18 == 1 && l.cfg 21 20 == 3 && l.cfg 24 22 == i)))
  | 2 => loopDriven e 1 i
  | _ => loopDriven e 2 i

/-- R306: a channel whose entry changes is in use. -/
def fioInUse (e : Edge) (bs : List Byte) : Bool :=
  (List.range 4).any (fun k => (List.range 8).any (fun i => fioEntry bs k i != fioEntry (fioInForce e) k i && fioUsed e k i))

/-- The live conditions of a channel: kind 0 AIN, 1 PIN, 2 AOUT, 3 DOUT. -/
def fioLive (e : Edge) (kind : FioKind) (i : Nat) : Nat :=
  match kind with
  | .ain => (e.ains.get i).live.toNat
  | .pin => b2n (e.pins.get i).live
  | .aout => (e.aouts.get i).live.toNat
  | .dout => (e.douts.get i).live.toNat
  | .vio => 0

/-- A record comes into force by a command; each channel whose live conditions it clears is recorded (R303, R306). -/
def changeFio (bs : List Byte) (s : State) : State :=
  let t := modEdge (applyFio bs) s
  let chans := [FioKind.ain, .pin, .aout, .dout].flatMap (fun k => (List.range 8).map (fun i => (k, i)))
  forAll (chans.filter (fun c => fioLive s.edge c.1 c.2 != fioLive t.edge c.1 c.2)) (fun c t => fioEvent c.1 c.2 t) t

/-- FIO_CONFIG_WRITE (R306). -/
def effFioWrite (m : Cmd) (s : State) : State × Reply :=
  let bs := inRec s m
  checked (descChecks false false m ++ inChecks m none 272 ++ [(!fioGood bs, stFioBad), (fioInUse s.edge bs, stFioInUse)]) s
    (okay (storeLater 2 0 bs (changeFio bs s)))
/-- FIO_CONFIG_READ (R306). -/
def effFioRead (m : Cmd) (s : State) : State × Reply :=
  checked (descChecks false false m ++ outChecks m 272) s (putOut m (fioInForce s.edge) s)
/-- FIO_CLEAR_LATCH (R306). -/
def effClearLatch (m : Cmd) (s : State) : State × Reply :=
  checked (descChecks false false m) s
    (okay (modEdge (fun e => { e with douts := (bitsOf (argN m.c 0 1) 8).foldl (fun t i => t.mod i (fun d => { d with latched := false })) e.douts }) s))

/-- FIO_CONFIG_WRITE, 0x0607 (R306). -/
def execFioConfigWrite (c : CmdIn) (s : State) : Host.Outcome State Fault Refusal := finish s (submit 0x0607 effFioWrite c s)
/-- FIO_CONFIG_READ, 0x0608 (R306). -/
def execFioConfigRead (c : CmdIn) (s : State) : Host.Outcome State Fault Refusal := finish s (submit 0x0608 effFioRead c s)
/-- FIO_CLEAR_LATCH, 0x0609 (R306). -/
def execFioClearLatch (c : CmdIn) (s : State) : Host.Outcome State Fault Refusal := finish s (submit 0x0609 effClearLatch c s)

/-- PD58 is powered (R266, R278, R296): everything of the edge die but the nonvolatile store is built afresh; whether factory data
fail their check is free (R305). -/
def edgePowerUp (s : State) : State :=
  let d := drawN 16 s
  let bad (i : Nat) : Bool := (d.1.getD i 0).getLsbD 0
  let ai := (List.range 8).map (fun i => (i, { ({} : Ain) with calInvalid := bad i }))
  let ao := (List.range 8).map (fun i => (i, { ({} : Aout) with calInvalid := bad (8 + i) }))
  modEdge (fun e => { ({} : Edge) with
    profiles := e.profiles, bootProfile := e.bootProfile, fioStore := e.fioStore, on := true, ains := ai, aouts := ao }) d.2

/-- The stored record, or the defaults with CFG_INVALID where it fails its check (R304); then the analog outputs drive DEFAULT (R296). -/
def bootFio (e : Edge) : Edge :=
  let r := e.fioStore.filter fioGood
  let e := { applyFio (r.getD (fioRecord fioDefaultBody)) e with cfgInvalid := r.isNone }
  { e with aouts := e.aouts.each8 (fun _ a => { a with code := a.dflt, set := a.dflt }) }

/-- FIO_CONFIG_APPLY (R304), at +3 ms: PD58 is powered and the configuration applied. -/
def doFioApply (s : State) : State :=
  if s.pwr.stage = .warden then modPwr (fun w => { w with stage := .edge }) (modEdge bootFio (edgePowerUp s)) else s
/-- FIO_CONFIG_APPLY (R304). -/
def execFioConfigApply (s : State) : Host.Outcome State Fault Refusal := finish s (doFioApply s)

/-- R305: trim of a code. -/
def trimCode (off gain c : Int) : Int := clampI (-32768) 32767 (rneDiv (c * (65536 + gain)) 65536 + off)

/-- OPEN of an analog input after a test or a code (R301). -/
def Ain.settleOpen (a : Ain) : Ain :=
  let lz := a.current && a.liveZero
  if a.live.getLsbD 0 then
    if 4 ≤ a.tests.2 ∧ (lz = false ∨ 16 ≤ a.zeroRun.2) then { a with live := a.live &&& 0xE } else a
  else if 4 ≤ a.tests.1 ∨ (lz = true ∧ 16 ≤ a.zeroRun.1) then { a with live := a.live ||| 1, seen := a.seen ||| 1 } else a

/-- Count one more of a consecutive pair, saturating at 16. -/
def runOf (first : Bool) (r : Nat × Nat) : Nat × Nat := if first then (min 16 (r.1 + 1), 0) else (0, min 16 (r.2 + 1))

/-- LT stamp, ns, of an entry taken `back` ns ago, where the main die provided LT then (R299). -/
def stampBack (s : State) (back : Nat) : Option Nat := if mainOn s && decide (back ≤ s.lt) then some (s.lt - back) else none

/-- The count of a pulse input is latched (R299). -/
def latchPin (st : Option Nat) (a : Pin) : Pin := { a with hist := ((st, a.count.toInt) :: a.hist).take 65536 }

/-- The mean of the last `2^n` raw codes (R298); `x` stands for those not yet taken. -/
def meanRaw (n : Nat) (x : Int) (raw : List Int) : Int :=
  rneDiv (((raw ++ List.replicate (2 ^ n) x).take (2 ^ n)).foldl (· + ·) 0) (2 ^ n)

/-- A conversion enters an analog input (R294, R298, R299, R301, R305). -/
def Ain.convert (raw free : Int) (st : Option Nat) (a : Ain) : Ain :=
  let raws := (trimCode a.trimOff a.trimGain raw :: a.raw).take 64
  let c := if a.live.getLsbD 2 then 32767 else meanRaw a.filter free raws
  ({ a with raw := raws, code := c, hist := ((st, c) :: a.hist).take 65536, zeroRun := runOf (decide (c < 5898)) a.zeroRun } : Ain).settleOpen

/-- Change an analog input, recording a change of its live conditions. -/
def updAin (i : Nat) (f : Ain → Ain) (s : State) : State :=
  let a := s.edge.ains.get i
  let t := modEdge (fun e => { e with ains := e.ains.set i (f a) }) s
  if (f a).live = a.live then t else fioEvent .ain i t

/-- AIN_CONVERSION (R298, R299): the code complete 1 µs after its aperture; the pulse input of the same number is latched. -/
def doAinConversion (ch : Fin 8) (raw : BitVec 16) (s : State) : State :=
  if s.edge.on then
    let d := draw s
    let n := (s.edge.ains.get ch).filter
    let s := modEdge (fun e => { e with pins := e.pins.mod ch (latchPin (stampBack s 0)) }) d.2
    updAin ch (Ain.convert raw.toInt (d.1.setWidth 16).toInt (stampBack s (1000 + 500 * (2 ^ n - 1)))) s
  else s

/-- AIN_OPEN_WIRE_TEST (R299, R301). -/
def doOpenWire (ch : Fin 8) (fails : Bool) (s : State) : State :=
  if s.edge.on then
    updAin ch (fun a => Ain.settleOpen { a with tests := runOf fails a.tests })
      (modEdge (fun e => { e with pins := e.pins.mod ch (latchPin (stampBack s 0)) }) s)
  else s

/-- AIN_RECONNECT_TEST (R301): the end of SHORT of a current input. -/
def doReconnect (ch : Fin 8) (ok : Bool) (s : State) : State :=
  if s.edge.on && (s.edge.ains.get ch).live.getLsbD 2 && ok then updAin ch (fun a => { a with live := a.live &&& 0xB }) s else s

/-- AOUT_LOAD_TEST (R301): OPEN of an analog output, suspended while it is SHORT. -/
def Aout.test (fails : Bool) (a : Aout) : Aout :=
  let a := { a with tests := runOf fails a.tests }
  if a.live.getLsbD 0 then (if 4 ≤ a.tests.2 then { a with live := a.live &&& 0xE } else a)
  else if 4 ≤ a.tests.1 then { a with live := a.live ||| 1, seen := a.seen ||| 1 } else a

/-- Change an analog output, recording a change of its live conditions. -/
def updAout (i : Nat) (f : Aout → Aout) (s : State) : State :=
  let a := s.edge.aouts.get i
  let t := modEdge (fun e => { e with aouts := e.aouts.set i (f a) }) s
  if (f a).live = a.live then t else fioEvent .aout i t
/-- Change a digital output, recording a change of its live conditions. -/
def updDout (i : Nat) (f : Dout → Dout) (s : State) : State :=
  let a := s.edge.douts.get i
  let t := modEdge (fun e => { e with douts := e.douts.set i (f a) }) s
  if (f a).live = a.live then t else fioEvent .dout i t
/-- Change a pulse input, recording a change of OPEN. -/
def updPin (i : Nat) (f : Pin → Pin) (s : State) : State :=
  let a := s.edge.pins.get i
  let t := modEdge (fun e => { e with pins := e.pins.set i (f a) }) s
  if (f a).live = a.live then t else fioEvent .pin i t

/-- AOUT_LOAD_TEST (R301). -/
def doLoadTest (ch : Fin 8) (fails : Bool) (s : State) : State :=
  if s.edge.on && !(s.edge.aouts.get ch).live.getLsbD 2 then updAout ch (Aout.test fails) s else s

/-- R300: new valid levels of A and B. -/
def Pin.edge (a b : Bool) (p : Pin) : Pin :=
  let da := a != p.a
  let db := b != p.b
  let q := { p with a := a, b := b }
  let add (up : Bool) : Pin := { q with count := if up then p.count + 1 else p.count - 1 }
  match p.mode with
  | 0 => if da && db then { q with quadErr := satInc p.quadErr } else if da then add (a != b) else if db then add (a == b) else q
  | 1 => if da && a then add true else q
  | _ => if da && a then add (!b) else q

/-- PULSE_EDGE (R300). -/
def doPulse (ch : Fin 8) (a b : Bool) (s : State) : State := when s.edge.on (updPin ch (Pin.edge a b)) s

/-- A live bit and its sticky bit. -/
def setLive (k : Nat) (on : Bool) (live seen : BitVec 4) : BitVec 4 × BitVec 4 :=
  let bit := (1#4) <<< k
  if on then (live ||| bit, seen ||| bit) else (live &&& ~~~bit, seen)

/-- A condition of a digital output with its action (R301): a SHORT switches it off, and off for good under LATCH. -/
def Dout.cond (tick k : Nat) (on : Bool) (a : Dout) : Dout :=
  let r := setLive k on a.live a.seen
  let b := { a with live := r.1, seen := r.2 }
  if k = 2 ∧ on = true then (if a.latchAct then { b with latched := true } else { b with shortOff := some tick }) else b

/-- FIO_CONDITION (R301, R302): 0 OPEN, 1 OVER_RANGE, 2 SHORT, 3 OVERVOLT; for VIO 0 VIO_LOW, 1 VIO_REVERSED. OPEN of analog inputs
and outputs comes from their tests, and the end of an input's SHORT from its reconnect test. -/
def doFioCondition (k : FioKind) (ch : Fin 8) (cond : Fin 4) (on : Bool) (s : State) : State :=
  if !s.edge.on then s
  else match k with
    | .ain =>
      if cond = 1 ∨ cond = 3 ∨ (cond = 2 ∧ on = true ∧ (s.edge.ains.get ch).current = true) then
        updAin ch (fun a => let r := setLive cond on a.live a.seen; { a with live := r.1, seen := r.2 }) s
      else s
    | .pin => if cond = 0 then updPin ch (fun a => { a with live := on, seen := a.seen || on }) s else s
    | .aout => if cond = 2 then updAout ch (fun a => let r := setLive 2 on a.live a.seen; { a with live := r.1, seen := r.2 }) s else s
    | .dout =>
      let a := s.edge.douts.get ch
      let held := a.live &&& 0xC != 0 || s.edge.vioLow || s.edge.vioReversed
      if cond = 2 ∨ cond = 3 ∨ (cond = 0 ∧ held = false) then updDout ch (Dout.cond s.edge.tick cond on) s else s
    | .vio =>
      let e := s.edge
      let e' := if cond = 0 then { e with vioLow := on } else if cond = 1 then { e with vioReversed := on } else e
      if e' = e then s else fioEvent .vio 0 { s with edge := e' }

/-- DOUT_SHORT_RETRY (R301): 100 ms after the switch-off the output is switched on again. -/
def doShortRetry (ch : Fin 8) (s : State) : State :=
  match (s.edge.douts.get ch).shortOff with
  | some t => if s.edge.on ∧ t + 20000000 ≤ s.edge.tick then updDout ch (fun a => { a with shortOff := none }) s else s
  | none => s

/-- The on-time of a PWM period (R295). -/
def onTime (code : Int) (period : Nat) : Nat :=
  if code ≤ 0 then 0 else if 32767 ≤ code then period else code.toNat * period / 32768

/-- PWM_PERIOD_START (R295). -/
def doPwm (ch : Fin 8) (s : State) : State :=
  if s.edge.on && (s.edge.douts.get ch).pwm then updDout ch (fun a => { a with onTicks := onTime a.code a.period }) s else s

/-- A digital output may be on (R302): no VIO fault, OVERVOLT, SHORT or LATCH holds it off. -/
def doutEnabled (e : Edge) (i : Nat) : Bool :=
  let a := e.douts.get i
  !e.vioReversed && !e.vioLow && !a.live.getLsbD 3 && !a.latched && a.shortOff.isNone
/-- The ticks of a PWM period, or whether at all, a digital output's contact is on (R295, R302). -/
def doutDrives (e : Edge) (i : Nat) : Nat :=
  let a := e.douts.get i
  if doutEnabled e i then (if a.pwm then a.onTicks else b2n (decide (0 < a.code))) else 0
/-- The code that an analog output drives, after its trim (R295, R305). -/
def aoutDrives (e : Edge) (i : Nat) : Int := let a := e.aouts.get i; trimCode a.trimOff a.trimGain a.code

/-- A write of a set register (R296). -/
def writeSet (aout : Bool) (i : Nat) (v : W32) (s : State) : State :=
  let c := (v.setWidth 16).toInt
  if loopDriven s.edge (if aout then 1 else 2) i then
    (if aout then updAout i (fun a => { a with ignored := true }) s else updDout i (fun a => { a with ignored := true }) s)
  else if aout then updAout i (fun a => { a with set := c, code := c }) s else updDout i (fun a => { a with set := c, code := c }) s

/-- FIO_SET_WRITE (R296). -/
def doSetWrite (aout : Bool) (ch : Fin 8) (v : W32) (s : State) : State := when (edgeOpen s) (writeSet aout ch v) s

/-- AIN_CONVERSION (R298). -/
def execAinConversion (ch : Fin 8) (raw : BitVec 16) (s : State) : Host.Outcome State Fault Refusal := finish s (doAinConversion ch raw s)
/-- AIN_OPEN_WIRE_TEST (R301). -/
def execAinOpenWireTest (ch : Fin 8) (fails : Bool) (s : State) : Host.Outcome State Fault Refusal := finish s (doOpenWire ch fails s)
/-- AIN_RECONNECT_TEST (R301). -/
def execAinReconnectTest (ch : Fin 8) (currentOk : Bool) (s : State) : Host.Outcome State Fault Refusal := finish s (doReconnect ch currentOk s)
/-- AOUT_LOAD_TEST (R301). -/
def execAoutLoadTest (ch : Fin 8) (fails : Bool) (s : State) : Host.Outcome State Fault Refusal := finish s (doLoadTest ch fails s)
/-- PULSE_EDGE (R300). -/
def execPulseEdge (ch : Fin 8) (a b : Bool) (s : State) : Host.Outcome State Fault Refusal := finish s (doPulse ch a b s)
/-- FIO_CONDITION (R301). -/
def execFioCondition (k : FioKind) (ch : Fin 8) (cond : Fin 4) (on : Bool) (s : State) : Host.Outcome State Fault Refusal :=
  finish s (doFioCondition k ch cond on s)
/-- DOUT_SHORT_RETRY (R301). -/
def execDoutShortRetry (ch : Fin 8) (s : State) : Host.Outcome State Fault Refusal := finish s (doShortRetry ch s)
/-- PWM_PERIOD_START (R295). -/
def execPwmPeriodStart (ch : Fin 8) (s : State) : Host.Outcome State Fault Refusal := finish s (doPwm ch s)
/-- FIO_SET_WRITE (R296). -/
def execFioSetWrite (aout : Bool) (ch : Fin 8) (v : W32) (s : State) : Host.Outcome State Fault Refusal := finish s (doSetWrite aout ch v s)

end Sys2Proof.Machine
end

