-- ==== Sys2Proof/Machine/Checkpoint.lean ====
section
/-! DEFINITION. The checkpoint record (R260, R261, Table 11-4). -/
namespace Sys2Proof.Machine

/-- Bytes padded with zeros to a multiple of 8. -/
def pad8 (bs : List Byte) : List Byte := bs ++ zeros ((8 - bs.length % 8) % 8)

/-- The warm-start section: an iterate header and the arrays without certificate. -/
def ckptWarm (im : Image) (source : W64) (flags : W32) (it : Iterate) : List Byte :=
  iterateHeader source flags im 0 0 0 false ++ iterateArrays it false

/-- The context section: vectors of each model with CONTEXT above 0, ascending MODEL (R180). -/
def ckptContext (im : Image) (q : Prob) : List Byte :=
  (im.models.filter (fun m => m.ctx != 0)).flatMap (fun m => ((q.ctx.get m.model).flatMap id).flatMap (wBytes 8))

/-- The weights section: each model whose generation in force is not 0. -/
def ckptWeights (q : Prob) : List Byte :=
  q.gens.flatMap (fun g => leBytes 1 g.1 ++ zeros 3 ++ wBytes 4 g.2.gen ++ pad8 g.2.weights)

/-- The estimator section (CLASS 3 to 5): N, z̄ and the factor S. -/
def ckptEst (im : Image) (q : Prob) (cov : List W64) : List Byte :=
  if im.cls < 3 then []
  else
    let n := covN im
    leBytes 4 n ++ zeros 4 ++ (if im.cls = 3 then fitTo n q.est.zbar else List.replicate n 0).flatMap (wBytes 8)
    ++ (fitTo (n * (n + 1) / 2) cov).flatMap (wBytes 8)

/-- The record with its header and CHECK (Table 11-4). -/
def ckptBytes (p : Nat) (im : Image) (q : Prob) (mode : Nat) (steep : W64) (warm : List Byte) (params cov : List W64) : List Byte :=
  let secs : List (List Byte) := [pad8 (params.flatMap (wBytes 8)), pad8 warm, pad8 (ckptContext im q), pad8 (ckptWeights q), pad8 (ckptEst im q cov)]
  let off (i : Nat) : Nat := if (secs.getD i []).isEmpty then 0 else 128 + ((secs.take i).map List.length).foldl (· + ·) 0
  let len (i : Nat) : Nat := (secs.getD i []).length
  let body := secs.flatMap id
  let head := leBytes 4 0x43584459 ++ leBytes 2 1 ++ leBytes 2 0x80 ++ leBytes 4 (128 + body.length) ++ leBytes 2 p ++ leBytes 1 mode
    ++ leBytes 1 q.sched.clusters ++ wBytes 8 steep ++ wBytes 8 im.structSig ++ wBytes 8 im.contentSig ++ wBytes 4 Config.planVersion
    ++ leBytes 4 im.nParams ++ leBytes 4 (off 0) ++ leBytes 4 (off 1) ++ leBytes 4 (len 1) ++ leBytes 4 (off 2) ++ leBytes 4 (len 2)
    ++ leBytes 4 (off 3) ++ leBytes 8 (len 3) ++ leBytes 4 (off 4) ++ leBytes 4 (len 4) ++ wBytes 8 q.committedSeq ++ zeros 16
  head ++ wBytes 8 (fnv (fnv fnvBasis head) body) ++ zeros 8 ++ body

/-- Bytes of the record a problem needs now (CKPT_SPACE, R259). -/
def ckptSize (im : Image) (q : Prob) : Nat :=
  128 + 8 * im.nParams + (64 + 8 * (im.nVars + im.nEq + 2 * im.nIneq)) + (ckptContext im q).length + (ckptWeights q).length
  + (ckptEst im q []).length

/-- R259, R260: the capture at the release of steep `t`: the warm-start point before R89, and the prior or factor that it uses. -/
def capture (p : Nat) (t : Steep) (s : State) : State :=
  let q := prob s p
  match q.im, q.ckpt with
  | some im, some k =>
    if k.captured.isSome ∨ t.number.toNat < k.atSteep.toNat then s
    else
      let e := estAfter s p im q.est
      let flags := BitVec.ofNat 32 (512 * b2n t.warmMapped + 1024 * b2n t.warmCold)
      let mode := b2n q.fixed + 2 * b2n (heritage s)
      let bs := ckptBytes p im { q with est := e } mode t.number (ckptWarm im t.source flags t.warm) t.params (if im.cls = 3 then e.cov else t.lc.cov)
      modProb p (fun q => { q with ckpt := some { k with captured := some bs } }) s
  | _, _ => s

end Sys2Proof.Machine
end

