-- ==== Sys2Proof/Machine/Engine.lean ====
section
/-! DEFINITION. The steep engine: how a steep ends and pours, what its set does then, dispatch and preemption (R15 to R24, R35 to R37,
R42, R47 to R50, R115 to R120, R180, R217, R264, R389 to R391). -/
namespace Sys2Proof.Machine

/-- ns charged to a steep so far (R37). -/
def Steep.spent (t : Steep) (now : Nat) : Nat :=
  match t.phase with
  | .commit | .running => t.charge + (now - t.since)
  | _ => t.charge

/-- The flags of a steep's pour (Table 1-13). -/
def Steep.flags (t : Steep) (fixed rb : Bool) : PourFlags :=
  { rolledBack := rb, warmMapped := t.warmMapped, warmCold := t.warmCold, reused := t.reused, retried := t.retried, degraded := t.degraded,
    fixed := fixed, twin := t.paired }

/-- R180: the rolling context after a freeze. -/
def rollContext (im : Image) (t : Steep) (ctx : Tbl (List (List W64))) : Tbl (List (List W64)) :=
  if t.shed then ctx
  else
    (im.models.filter (fun m => m.ctx != 0)).foldl (fun c m =>
      let h := c.get m.model
      let e := if t.evaluated then t.inputs.getD m.model [] else h.headD (List.replicate m.nIn 0)
      c.set m.model ((e :: h).take m.ctx)) ctx

/-- The result bytes of a steep's pour, as words (R42, R116). -/
def pourResult (q : Prob) (im : Image) (t : Steep) : List W64 :=
  if t.shed && t.reused then (match q.poured with | some o => o.result | none => []) else resultWords im t.lc

/-- The poured iterate after a pour: LC as frozen; a shed pour that repeats one leaves it (R42, R85, R116). -/
def pouredAfter (q : Prob) (t : Steep) (st : W32) (res : List W64) (lt : Nat) : Option Poured :=
  if t.shed && t.reused then q.poured
  else some { steep := t.number, status := st, it := some t.lc, frozen := lt, result := res }

/-- The last pour frozen before the poured iterate was (R85). -/
def olderAfter (q : Prob) (t : Steep) (lt : Nat) : Option Poured :=
  if t.shed && t.reused then q.older
  else match q.poured with
    | some o => if o.frozen < lt then some o else q.older
    | none => q.older

/-- The estimator after a freeze: a CLASS 3 problem's prior update begins (R155). -/
def estFrozen (q : Prob) (im : Image) (t : Steep) (code : Code) : Est :=
  if im.cls = 3 then
    { q.est with updating := q.est.updating ++ [{ steep := { t with evals := t.evalsBegun im, begun := [] }, usable := code == .solved || code == .deadlineFeas || code == .iterLimit, ctx := q.ctx }] }
  else q.est

/-- The counters of Table 2-12 after a pour. -/
def countPour (t : Steep) (code : Code) (rb : Bool) (c : Stats) : Stats :=
  { c with byCode := bumpAt c.byCode code.num 1
           shed := satPlus c.shed (b2n t.shed), degraded := satPlus c.degraded (b2n (t.degraded && !t.shed))
           rolledBack := satPlus c.rolledBack (b2n rb) }

/-- The problem after its steep's freeze (R36, R116, R155, R180, R264). -/
def frozenProb (q : Prob) (im : Image) (t : Steep) (code : Code) (rb : Bool) (st : W32) (res : List W64) (lt : Nat) : Prob :=
  absorb t.number st res { q with
    steep := none, poured := pouredAfter q t st res lt, older := olderAfter q t lt, final := some (t.number, st)
    stats := countPour t code rb q.stats, ctx := rollContext im t q.ctx, est := estFrozen q im t code }

/-- The steep as it pours: the factor of CLASS 3 is the prior's (R153). -/
def freezing (s : State) (p : Nat) (im : Image) (t : Steep) : Steep :=
  if im.cls = 3 then { t with lc := { t.lc with cov := (estAfter s p im (prob s p).est).cov } } else t

/-- STEEP_FREEZE (R50, R116): the steep's freeze and its pour to every destination, with what follows a freeze: counters, digest,
twin, estimator feed, training. `rb`: an iteration was abandoned. -/
def finishCore (p : Nat) (t : Steep) (code0 : Code) (rb0 : Bool) (s : State) : State :=
  let q := prob s p
  match q.im with
  | none => s
  | some im =>
    let t := freezing s p im t
    let code := if t.shed then .shed else code0
    let rb := rb0 && (code == .deadlineFeas || code == .deadlineInfeas)
    let res := pourResult q im t
    let st := statusWord code (if t.shed then 0 else t.count) (t.flags q.fixed rb)
    let s := modProb p (fun q => frozenProb q im t code rb st res s.lt) s
    let s := shedEvents (b2n t.shed + b2n (t.degraded && !t.shed)) s
    let s := if t.paired then twinPour p t.inputMismatch t.number st res s else s
    let s := feed p st res (deliverPour p t.number st res s)
    let xs := if t.evaluated then some (im.models.map (fun m => (m.model, t.inputs.getD m.model [] ++ (q.ctx.get m.model).flatMap id))) else none
    trainFreeze p t.number.toNat st t.shed xs t.params s

/-- Former sets on which nothing runs any more are gone, and no longer hold sets back (R389). -/
def dropGhosts (s : State) : State :=
  let gone := (s.sets.filter (fun e => decide (64 ≤ e.1) && !occupied s e.1)).map Prod.fst
  { s with sets := (s.sets.filter (fun e => !gone.contains e.1)).map (fun e => (e.1, { e.2 with blockers := e.2.blockers.filter (fun g => !gone.contains g) })) }

/-- R391: a set with no working unit of a kind is dissolved, and its problems are placed again. -/
def dissolve (k : Nat) (s : State) : State :=
  placeUnplaced (retireSet k { s with probs := s.probs.map (fun e => (e.1, if e.2.set = some k then { e.2 with set := none } else e.2)) })

/-- R390: a fence takes effect on a set. -/
def fenceInSet (k kind i : Nat) (s : State) : State :=
  match replaceUnit s k kind i with
  | some r => modSet k (fun _ => r) s
  | none => dissolve k s

/-- The unit of a set that a unit of Table 20-2 stands for: a cluster, a pipeline, or the quadrant of a vector engine or of a tile
whose quadrant no longer works; `none` where no unit of a set is lost (Tables 1-6 and 20-2, R185). -/
def setUnit (s : State) (kind i : Nat) : Option (Nat × Nat) :=
  match kind with
  | 0 => some (0, i)
  | 1 => some (1, i)
  | 2 => if quadWorks s (i / 32) then none else some (2, i / 32)
  | 3 => some (2, i)
  | _ => none

/-- A fence by command takes effect on a set with no steep in flight, where the unit is still fenced and in the set (R390). -/
def fenceNow (k : Nat) (f : Nat × Nat) (s : State) : State :=
  let t := modSet k (fun r => { r with fencing := r.fencing.filter (· != f) }) s
  match setUnit t f.1 f.2 with
  | some u => if fenced t f.1 f.2 && ((rset t k).units u.1).contains u.2 then fenceInSet k u.1 u.2 t else t
  | none => t

/-- A set with a steep in flight still uses a unit fenced by command (R390). -/
def fencePends (s : State) (f : Nat × Nat) : Bool := s.sets.any (fun e => e.2.fencing.contains f)

/-- The units whose UNIT_FENCE waits for a steep in flight (R478). -/
def fencesHeld (s : State) : List (Nat × Nat) :=
  s.mbx.running.filterMap (fun r => match r.await with | .fence k i => some (k, i) | _ => none)

/-- Fences by command whose set has no steep in flight take effect (R390), with the overload that they bring (R44), and their commands
complete (R478). -/
def settleFences (s : State) : State :=
  let due := s.sets.filter (fun e => !e.2.fencing.isEmpty && !occupied s e.1)
  let t := forAll due (fun e t => forAll e.2.fencing (fenceNow e.1) t) s
  forAll (fencesHeld t) (fun f t => if fencePends t f then t else endAwait (.fence f.1 f.2) stOk [] t) (if due.isEmpty then t else strain t)

/-- R391: a steep that waits and whose problem has no set pours its warm-start point with FAULT. -/
def faultUnplaced (s : State) : State :=
  forAll s.probs (fun e t =>
    match (prob t e.1).steep with
    | some x => if (prob t e.1).set.isNone && x.onSet.isNone && !x.barrier then finishCore e.1 x .fault false t else t
    | none => t) s

/-- A steep that never takes a set, with the code of its pour: shed, released by a retirement, past its deadline, with a limit of 0, or
without a set; none where it waits for its set (R42, R51, R391, Table 2-8). -/
def poursAtOnce (s : State) (p : Nat) (t : Steep) : Option Code :=
  if t.shed || t.byRetire || decide (t.deadline ≤ s.lt) then some .deadlineInfeas
  else if t.limit = 0 then some .iterLimit
  else if (prob s p).set.isNone then some .fault
  else none

/-- A steep at the head of those released while another was in flight pours, or becomes the steep in flight (R28, R42, R51). -/
def promote (p : Nat) (t : Steep) (s : State) : State :=
  if (prob s p).steep.isSome then modProb p (fun q => { q with after := q.after ++ [t] }) s
  else if t.barrier then modProb p (fun q => { q with steep := some t }) s
  else match poursAtOnce s p t with
    | some c => finishCore p t c false s
    | none => modProb p (fun q => { q with steep := some t }) s

/-- Steeps released while one was in flight go on once it has poured, in the order of their numbers. -/
def flushAfter (s : State) : State :=
  forAll s.probs (fun e t =>
    if (prob t e.1).steep.isNone then forAll (prob t e.1).after (promote e.1) (modProb e.1 (fun q => { q with after := [] }) t) else t) s

/-- R35: the steep of problem `a` comes before that of problem `b`. -/
def precedes (s : State) (a b : Nat) : Bool :=
  match (prob s a).steep, (prob s b).steep with
  | some x, some y =>
    let pa := (prob s a).sched.priority
    let pb := (prob s b).sched.priority
    decide (x.deadline < y.deadline ∨ (x.deadline = y.deadline ∧ (pb < pa ∨ (pa = pb ∧ a < b))))
  | _, _ => false

/-- The problems whose steeps wait for set `k`: queued ones of its problems, and those suspended on it (R36, R389). -/
def readyOf (s : State) (k : Nat) : List Nat :=
  (s.probs.filter (fun e => match e.2.steep with
    | some t => !t.barrier && ((t.phase == .queued && e.2.set == some k) || (t.phase == .suspended && t.onSet == some k))
    | none => false)).map Prod.fst

/-- The first in the order of R35. -/
def firstOf (s : State) (l : List Nat) : Option Nat :=
  l.foldl (fun b p => match b with | none => some p | some o => if precedes s p o then some p else some o) none

/-- A prior update or former sets hold the set back (R155, R389). -/
def heldBack (s : State) (k : Nat) : Bool :=
  !(rset s k).blockers.isEmpty || (probsOf s k).any (fun p => !(prob s p).est.updating.isEmpty)

/-- A steep begins its next iteration at LC. -/
def goOn (p : Nat) (t : Steep) (s : State) : State :=
  match (prob s p).im with
  | some im => modProb p (fun q => { q with steep := some (beginIter s p im t) }) s
  | none => s

/-- A steep as its set dispatches it: CLASS 3 takes the prior's factor (R153), and a linear problem whose graphs read what they read
before reuses its matrices (R114). -/
def dispatched (q : Prob) (t : Steep) : Steep :=
  match q.im with
  | none => t
  | some im =>
    let t := if im.cls = 3 then { t with lc := { t.lc with cov := q.est.cov } } else t
    { t with reuse := decide (im.cls ≤ 1) && q.linAt == some (graphValues im t.params) }

/-- A steep takes its set: commit first when it is new (R14, R36), its next iteration when it was suspended. -/
def startOn (p k : Nat) (s : State) : State :=
  match (prob s p).steep with
  | none => s
  | some t =>
    let s := modSet k (fun r => { r with running := some p }) s
    let t := { t with onSet := some k, since := s.lt }
    if t.phase = .queued then modProb p (fun q => { q with steep := some { dispatched q t with phase := .commit } }) s else goOn p t s

/-- Doublings are undone at a dispatch (R390). -/
def undoAll (s : State) (k : Nat) : RSet := undoDoubling s k 2 (undoDoubling s k 1 (undoDoubling s k 0 (rset s k)))

/-- A free set runs its first waiting steep (R36); domains that are not ON are woken for it (R18, R445). -/
def dispatch (k : Nat) (s : State) : State :=
  match s.sets.get? k with
  | none => s
  | some r0 =>
    if r0.running.isSome || heldBack s k then s
    else match firstOf s (readyOf s k) with
      | none => s
      | some p =>
        let r := if k < 64 then undoAll s k else r0
        let s := modSet k (fun _ => r) s
        if domainsOn s r then startOn p k s else wakeSet r s

/-- Every set dispatches. -/
def dispatchAll (s : State) : State := forAll (s.sets.map Prod.fst) dispatch s

/-- What follows when steeps have ended or sets have changed. -/
def settle (s : State) : State := dispatchAll (flushAfter (faultUnplaced (settleFences (dropGhosts s))))

/-- The set is free as soon as the iterate is frozen, or for CLASS 3 when the prior update has completed (R50). -/
def freeSteepSet (p : Nat) (t : Steep) (s : State) : State :=
  match t.onSet with
  | some k => if (rset s k).running = some p ∧ (prob s p).est.updating.isEmpty = true then modSet k (fun r => { r with running := none }) s else s
  | none => s

/-- An end by which a retry in progress has run its work without a fault (R474). -/
def endsRetry : Code → Bool
  | .deadlineFeas | .deadlineInfeas | .fault | .shed => false
  | _ => true

/-- Settle the faults of a discarded attempt as its retry ends: transient where it raised no fault, and the pour carries RETRIED (R119,
R474); unresolved where it was abandoned or never began (R475, log entry 130). -/
def settleRetry (ok : Bool) (t : Steep) (s : State) : Steep × State :=
  if !t.again then (t, s)
  else
    ({ t with again := false, retrying := [], retryBegun := false, retried := t.retried || ok },
     forAll t.retrying (fun u t => if ok then countTransient u.1 u.2.1 u.2.2 t else leaveUnresolved u.1 u.2.1 u.2.2 t) s)

/-- The steep in flight of a problem ends with a code. -/
def finishSteep (p : Nat) (code : Code) (rb : Bool) (s : State) : State :=
  match (prob s p).steep with
  | none => s
  | some t =>
    let x := settleRetry (endsRetry code && t.retryBegun) t s
    let r := match t.onSet with | some k => rset s k | none => {}
    refreshPower (endWork r (settle (freeSteepSet p x.1 (finishCore p x.1 code rb x.2))))

/-- The deadline code of a steep (R48, R49). -/
def Steep.deadlineCode (t : Steep) : Code := if t.evaluated && t.feasible then .deadlineFeas else .deadlineInfeas

/-- The steep in flight ends as at its deadline (R37, R48, R51, Table 2-13); a commit is never cut. -/
def endAtDeadline (p : Nat) (s : State) : State :=
  match (prob s p).steep with
  | none => s
  | some t =>
    if t.phase = .commit then modProb p (fun q => { q with steep := some { t with late := true } }) s
    else finishSteep p t.deadlineCode (t.phase == .running && t.iterating && decide (t.iterSince < s.lt)) s

/-- An iteration boundary (R36): a waiting steep that comes first takes the set; otherwise the next iteration begins. -/
def boundary (p : Nat) (t : Steep) (s : State) : State :=
  let t := { t with iterating := false }
  let s := modProb p (fun q => { q with steep := some t }) s
  match t.onSet with
  | none => s
  | some k =>
    let first := if heldBack s k then none else firstOf s (readyOf s k)
    match first with
    | some b =>
      if precedes s b p then
        dispatch k (modSet k (fun r => { r with running := none }) (modProb p (fun q => { q with
          steep := some { t with phase := .suspended, charge := t.spent s.lt, jduLeft := [], modelLeft := [] } }) s))
      else goOn p t s
    | none => goOn p t s

/-- A trap ends the steep (R120, R217 to R220): the tensor flags of its evaluations stay, its scalar flags do not (log entry 111). -/
def trapSteep (p : Nat) (im : Image) (t : Steep) (n : NumSt) (s : State) : State :=
  let x := mergeTensor p t n.tn s
  let s := modProb p (fun q => match firstTrap n.traps with
    | some o => keepTrap s im x.1 o { q with steep := some x.1 }
    | none => { q with steep := some x.1 }) x.2
  finishSteep p .trap false s

/-- The stage-0 inputs of each model in an evaluation (R180), by MODEL. -/
def stageInputs (im : Image) (nodes : List W64) : List (List W64) :=
  (List.range 16).map (fun k => match im.findModel k, im.stages with | some m, st :: _ => modelInputs st m nodes | _, _ => [])

/-- Neither the deadline nor the budget end has passed: an ending condition of this cycle still comes before them (R22, R37, R47). -/
def Steep.inTime (t : Steep) (now : Nat) : Bool := decide (now ≤ t.deadline ∧ t.spent now ≤ t.budget)

/-- The steep after its first evaluation: LC with its starting slacks and residuals, its feasibility where the evaluation came before the
deadline (R49), and the shares of the evaluations that follow (R134, R172). -/
def afterFirst (s : State) (p : Nat) (im : Image) (t : Steep) (it : Iterate) (e : PointEval) : Steep :=
  let t := { t with lc := it, evaluated := true, inputs := stageInputs im e.g.vals
                    feasible := feasible im it.rp && decide (s.lt < t.deadline ∧ t.spent s.lt < t.budget) }
  dealPasses im (prob s p).sched (((solveIn s p im t).runIter.2.passes).drop 1) t

/-- The first evaluation of a steep has been computed (R49, R96, R97, R101, R158): LC's residuals and slacks; it may trap, or the
warm-start point may converge. -/
def firstEval (p : Nat) (s : State) : State :=
  match (prob s p).im, (prob s p).steep with
  | some im, some t =>
    let r := (solveIn s p im t).runFirst
    if r.2.traps ≠ [] then trapSteep p im t r.2 s
    else
      let it := r.1.1
      let s := modProb p (fun q => { q with linAt := if im.cls ≤ 1 then some (graphValues im t.params) else q.linAt }) s
      if im.cls < 4 ∧ converged im it.rp it.rd it.mu = true then
        let x := mergeTensor p { t with lc := it, evaluated := true, inputs := stageInputs im r.1.2.g.vals } r.2.tn s
        finishSteep p .solved false (modProb p (fun q => { q with steep := some x.1 }) x.2)
      else modProb p (fun q => { q with steep := some (afterFirst s p im t it r.1.2) }) s
  | _, _ => s

/-- The shares dealt out last are all in: the first evaluation is complete (R47), or the evaluations that follow begin (R134, R172). -/
def evalDone (p : Nat) (s : State) : State :=
  match (prob s p).im, (prob s p).steep with
  | some im, some t =>
    if t.inTime s.lt && t.phase == .running && t.iterating && t.sharesIn then
      if t.evaluated then modProb p (fun q => { q with steep := some (dealPasses im q.sched t.passes t) }) s else firstEval p s
    else s
  | _, _ => s

/-- COMMIT_COMPLETE (R14, R48, R82, R85, R473): 2.5 ns per entry after the dispatch or the retry's begin; iteration 1 begins, or the
steep ends where its deadline or budget has passed. -/
def doCommit (p : Fin 1024) (s : State) : State :=
  match (prob s p).steep with
  | some t0 =>
    if t0.phase = .commit ∧ 5 * t0.commitEntries ≤ 2 * (s.lt - t0.since) then
      let x := settleRetry true t0 s
      let t := x.1
      let s := modProb p (fun q => { q with steep := some t }) x.2
      if t.late || decide (t.deadline ≤ s.lt) then finishSteep p .deadlineInfeas false s
      else if t.budget ≤ t.spent s.lt then
        finishSteep p .deadlineInfeas false (modProb p (fun q => { q with stats := { q.stats with overruns := satInc q.stats.overruns } }) s)
      else evalDone p (goOn p t s)
    else s
  | none => s

/-- A code that ends the steep at a completed iteration (R22, R97, R106, R109, R112, R113, R156, R157). -/
def endingCode (im : Image) (t : Steep) (r : IterRes) : Option Code :=
  let lc := t.lc
  let cert := decide (im.cls ≤ 3) && r.cert && (decide (4 ≤ im.method) || t.certPrev)
  if cert then some .cert
  else if im.cls = 5 then some .solved
  else if im.cls = 4 then if t.limit ≤ t.count ∨ (2 ≤ t.count ∧ r.still = true) then some .solved else none
  else if converged im lc.rp lc.rd lc.mu then some .solved
  else if t.limit ≤ t.count then some (if im.method = 6 ∧ r.inner = true then .solved else .iterLimit)
  else none

/-- Corrected errors of reads are counted: HBM, pool, unit-local (R381, Table 17-6a). -/
def countCorrected (n : Nat × Nat × Nat) (s : State) : State :=
  { s with mem := { s.mem with counts := bumpAt (bumpAt (bumpAt s.mem.counts 0 n.1) 5 n.2.1) 7 n.2.2 } }

/-- The steep after a completed iteration: its new LC, the count, and what the next iteration goes on from (R106, R115, R217). -/
def completed (im : Image) (t : Steep) (n : NumSt) (it : Iterate) : Steep :=
  { t with lc := it, count := t.count + 1, iterating := false, feasible := feasible im it.rp, evals := n.evals, passes := [], begun := [] }

/-- An iteration completes (R98, R115, R217): the buffers swap, flags merge, ending conditions are tested. -/
def completeIter (p : Nat) (im : Image) (t : Steep) (r : IterRes) (n : NumSt) (s : State) : State :=
  let x := mergeTensor p t n.tn s
  if nonFinite im t.params r.it then finishSteep p .numeric false (modProb p (fun q => { q with steep := some x.1 }) x.2)
  else
    let x := mergeScalar p x.1 n.sc x.2
    let x := settleRetry true x.1 x.2
    let k := clampIter (prob x.2 p) im r.it
    let t' := completed im x.1 n k.1
    let code := endingCode im t' r
    let t' := { t' with certPrev := r.cert, lc := { k.1 with cert := if code = some .cert then fitTo (im.nEq + im.nIneq) k.1.cert else k.1.cert } }
    let s := modProb p (fun q => { q with steep := some t', est := estCount 7 (k.2 + r.clamped) q.est }) x.2
    match code with
    | some c => finishSteep p c false s
    | none => boundary p t' s

/-- The steep runs an iteration whose evaluations are all in. -/
def Steep.inIteration (t : Steep) : Bool := t.phase == .running && t.iterating && t.evaluated && t.sharesIn && t.passes.isEmpty

/-- What the iteration in progress computes, where it runs and neither deadline nor budget end has passed (R22, R37, R47). -/
def Steep.running? (s : State) (p : Nat) (t : Steep) (im : Image) : Option (Option IterRes × NumSt) :=
  if t.inIteration && t.inTime s.lt then some (solveIn s p im t).runIter else none

/-- ITERATION_COMPLETE (R115): an iteration that neither traps nor exhausts its regularisation commits in one cycle. -/
def doIteration (p : Fin 1024) (corrected : Nat × Nat × Nat) (s : State) : State :=
  match (prob s p).im, (prob s p).steep with
  | some im, some t =>
    match t.running? s p im with
    | some (some r, n) => if n.traps = [] then completeIter p im t r n (countCorrected corrected s) else s
    | _ => s
  | _, _ => s

/-- FACTORISATION_BREAKDOWN (R104): the factorisation is repeated with a larger δ; the fifth breakdown of one iteration, inner iterations
included (log entry 145), ends the steep with NUMERIC. -/
def doBreakdown (p : Fin 1024) (s : State) : State :=
  match (prob s p).im, (prob s p).steep with
  | some im, some t =>
    match t.running? s p im with
    | some (_, n) =>
      if n.breaks ≤ t.breakdowns ∨ n.traps ≠ [] then s
      else if 4 ≤ t.breakdowns then
        let x := mergeTensor p t n.tn s
        finishSteep p .numeric false (modProb p (fun q => { q with steep := some x.1 }) x.2)
      else modProb p (fun q => { q with steep := some { t with breakdowns := t.breakdowns + 1 } }) s
    | none => s
  | _, _ => s

/-- ITERATION_TRAP (R120, R218, R219): an operation of the iteration in progress raises an enabled exception. -/
def doTrap (p : Fin 1024) (corrected : Nat × Nat × Nat) (s : State) : State :=
  match (prob s p).im, (prob s p).steep with
  | some im, some t =>
    if t.phase == .running && t.iterating && t.inTime s.lt then
      let n := if t.evaluated then (solveIn s p im t).runIter.2 else (solveIn s p im t).runFirst.2
      if n.traps = [] then s else trapSteep p im t n (countCorrected corrected s)
    else s
  | _, _ => s

/-- DEADLINE_REACHED (R47, R48). -/
def doDeadline (p : Fin 1024) (s : State) : State :=
  match (prob s p).steep with
  | some t => if t.deadline ≤ s.lt then endAtDeadline p s else s
  | none => s

/-- BUDGET_END (R37): the charge has reached the budget. -/
def doBudgetEnd (p : Fin 1024) (s : State) : State :=
  match (prob s p).steep with
  | some t =>
    if (t.phase == .commit || t.phase == .running) && decide (t.budget ≤ t.spent s.lt) && !t.late then
      endAtDeadline p (modProb p (fun q => { q with stats := { q.stats with overruns := satInc q.stats.overruns } }) s)
    else s
  | none => s

/-- JDU_STAGE_COMPLETE (R134): the pipeline's next dealt stage is in. -/
def doJduStage (p : Fin 1024) (pipe : Fin 8) (s : State) : State :=
  match (prob s p).steep with
  | some t =>
    if t.phase = .running ∧ t.iterating = true ∧ t.jduLeft.getD pipe [] ≠ [] then
      evalDone p (modProb p (fun q => { q with steep := some { t with jduLeft := t.jduLeft.modify pipe (fun l => l.drop 1) } }) s)
    else s
  | none => s

/-- MODEL_EVALUATION_COMPLETE (R171, R172): one quadrant's share of one model is in, once the JDU stages that its inputs depend on are. -/
def doModelEval (p : Fin 1024) (m : Fin 16) (qd : Fin 4) (s : State) : State :=
  match (prob s p).im, (prob s p).steep with
  | some im, some t =>
    if t.phase = .running ∧ t.iterating = true ∧ (m.val, qd.val) ∈ t.modelLeft ∧ t.modelWaits im m = false then
      evalDone p (modProb p (fun q => { q with steep := some { t with modelLeft := t.modelLeft.filter (· != (m.val, qd.val)) } }) s)
    else s
  | _, _ => s

/-- Discard the attempt of a steep's commit or iteration in which a detector has fired: its retry begins at this boundary (R119, R473).
A first evaluation in it is made again. -/
def discardAttempt (p : Nat) (us : List (Nat × Nat × Nat)) (s : State) : State :=
  match (prob s p).steep with
  | some t =>
    let t := { t with again := true, retrying := us, tries := t.tries + 1 }
    if t.phase = .commit then
      modProb p (fun q => { q with steep := some { t with charge := t.spent s.lt, since := s.lt, retryBegun := true } }) s
    else
      let again := t.evaluated && t.count != 0
      boundary p { t with evaluated := again, feasible := t.feasible && again, jduLeft := [], modelLeft := [], passes := [], begun := [] } s
  | none => s

/-- COMMIT_COMPLETE (R82). -/
def execCommitComplete (p : Fin 1024) (s : State) : Host.Outcome State Fault Refusal := finish s (doCommit p s)
/-- ITERATION_COMPLETE (R115). -/
def execIterationComplete (p : Fin 1024) (corrected : Nat × Nat × Nat) (s : State) : Host.Outcome State Fault Refusal :=
  finish s (doIteration p corrected s)
/-- FACTORISATION_BREAKDOWN (R104). -/
def execFactorisationBreakdown (p : Fin 1024) (s : State) : Host.Outcome State Fault Refusal := finish s (doBreakdown p s)
/-- ITERATION_TRAP (R120). -/
def execIterationTrap (p : Fin 1024) (corrected : Nat × Nat × Nat) (s : State) : Host.Outcome State Fault Refusal :=
  finish s (doTrap p corrected s)
/-- DEADLINE_REACHED (R48). -/
def execDeadlineReached (p : Fin 1024) (s : State) : Host.Outcome State Fault Refusal := finish s (doDeadline p s)
/-- BUDGET_END (R37). -/
def execBudgetEnd (p : Fin 1024) (s : State) : Host.Outcome State Fault Refusal := finish s (doBudgetEnd p s)
/-- JDU_STAGE_COMPLETE (R134). -/
def execJduStageComplete (p : Fin 1024) (pipe : Fin 8) (s : State) : Host.Outcome State Fault Refusal := finish s (doJduStage p pipe s)
/-- MODEL_EVALUATION_COMPLETE (R172). -/
def execModelEvaluationComplete (p : Fin 1024) (m : Fin 16) (q : Fin 4) (s : State) : Host.Outcome State Fault Refusal := finish s (doModelEval p m q s)

end Sys2Proof.Machine
end

