-- ==== Sys2Proof/Machine/Steeps.lean ====
section
/-! DEFINITION. Releases of steeps: periodic, requested and held, their commit, the twin barrier and its messages (R25 to R34, R41 to
R43, R51, R81 to R89, R151, R153, R155, R364 to R371). -/
namespace Sys2Proof.Machine

/-- What releases a steep. -/
structure Rel where
  /-- deadline, LT -/
  deadline : Nat := 0
  /-- release instant in the problem's time base -/
  instant : Int := 0
  /-- v of R43 -/
  cut : Option Nat := none
  /-- an excess request under SKIP (R42) -/
  shed : Bool := false
  /-- released by a retirement (R51) -/
  byRetire : Bool := false
deriving DecidableEq, Repr, Inhabited

/-- Iteration limit, budget and DEGRADED at an overload level with the cut of a held request: the smaller of each (R43, Table 2-8). -/
def shapeOf (c : Sched) (level : Nat) (cut : Option Nat) : Nat × Nat × Bool :=
  let l := (levelLimit c level, levelBudget c level, decide (level ≠ 0))
  match cut with
  | none => l
  | some v => if c.period ≤ v then l else (min l.1 (max 1 (c.limit * v / c.period)), min l.2.1 (c.budget * v / c.period), true)

/-- The steep of a release (R28, R34, R42, R43); `seed` numbers the order of arrival of its sums in fast mode. -/
def newSteep (q : Prob) (lt seed : Nat) (r : Rel) : Steep :=
  let sh := shapeOf q.sched q.level r.cut
  let shed := r.shed || (q.sched.policy == 0 && decide (1 ≤ q.level) && !r.byRetire)
  { number := q.nextSteep, release := lt, deadline := r.deadline, instant := r.instant, limit := sh.1, budget := sh.2.1, seed
    degraded := sh.2.2 && !shed, byRetire := r.byRetire, shed, reused := shed && q.poured.isSome, pairSeq := q.twin.pairSeq }

/-- The warm-start point that a release finds, before R89, and the repairs it took (R84 to R88, R263). A shed steep has the image's; it
leaves the record of a resume to the next release (log entry 132). -/
def withWarm (s : State) (p : Nat) (q : Prob) (im : Image) (t : Steep) : Steep × Nat :=
  if t.shed then ({ t with warm := (coldPoint im).it }, 0)
  else match q.resume.warm with
    | some r =>
      ({ t with warm := r.it, source := r.source, hasSource := true, resumed := true, warmMapped := r.flags.getLsbD 9,
                warmCold := r.flags.getLsbD 10 }, 0)
    | none =>
      let w := warmOf s p q im
      ({ t with warm := w.1.it, source := w.2.getD (BitVec.allOnes 64), hasSource := w.2.isSome, warmMapped := w.1.mapped, warmCold := w.1.cold },
        w.1.repaired)

/-- LC of a steep before its first evaluation: its warm-start point with the parameters that it holds (R89, R101). -/
def atStart (s : State) (p : Nat) (im : Image) (t : Steep) : Steep := { t with lc := startPoint (prob s p) (envOf s p im t) t.hasSource t.warm }

/-- z̄ and S of CLASS 3 where a steep starts without a source; the updates of the old prior no longer count (R153, R155). -/
def coldPrior (q : Prob) (im : Image) (t : Steep) : Est :=
  { q.est with zbar := (im.stateVars 0).map (fun i => t.lc.primal.getD i 0), cov := initCov q
               updating := q.est.updating.map (fun u => { u with void := true }) }

/-- The commit and binding at a release (R81, R82, R151, R263, R367): queued groups up to a number merge, the pending store commits,
samples bind; the steep holds the parameters. -/
def commitRelease (p : Nat) (upTo : W64) (t : Steep) (s : State) : State × Steep :=
  let q0 := mergeQueued upTo (prob s p)
  let q1 := commitParams { q0 with params := q0.resume.params.getD q0.params, resume := { q0.resume with params := none } }
  let q := if t.resumed then q1 else bindSamples s t.instant q1
  (modProb p (fun _ => q) s, { t with params := q.params, commitEntries := q0.pend.length })

/-- What follows the commit at a release (R89, R101, R153, R174, R240 to R244, R259): weight generations take force, the steep starts from
its warm-start point, a pending checkpoint captures. -/
def openRelease (p : Nat) (both : Option (List W32)) (t : Steep) (s : State) : State × Steep :=
  match (prob s p).im with
  | none => (s, t)
  | some im =>
    let s := releaseGens p t.number.toNat both s
    let t := atStart s p im { t with gens := (prob s p).gens }
    let s := if im.cls = 3 ∧ t.hasSource = false ∧ t.shed = false then modProb p (fun q => { q with est := coldPrior q im t }) s else s
    (if t.shed || t.byRetire then s else capture p t s, t)

/-- Put a steep at its place among those that wait behind the one in flight. -/
def insSteep (t : Steep) : List Steep → List Steep
  | [] => [t]
  | x :: l => if t.number.toNat < x.number.toNat then t :: x :: l else x :: insSteep t l

/-- A released steep takes its place: behind one in flight (R28, R42, R51); it pours at once where it takes no set, and otherwise waits
for its set. -/
def placeSteep (p : Nat) (t : Steep) (s : State) : State :=
  let q := prob s p
  if q.steep.isSome then modProb p (fun q => { q with after := insSteep t q.after }) s
  else match poursAtOnce s p t, q.set with
    | none, some k => dispatch k (modProb p (fun q => { q with steep := some t }) s)
    | c, _ => settle (finishCore p t (c.getD .fault) false s)

/-- A schedule's parameters as CONFIG_DIGEST takes them: Table 2-3 without TIME_BASE, little-endian (R364; field sizes: log entry 15). -/
def schedBytes (c : Sched) : List Byte :=
  leBytes 1 (b2n c.requested) ++ leBytes 4 c.period ++ leBytes 8 c.phase ++ leBytes 4 c.deadline ++ leBytes 4 c.budget ++ leBytes 4 c.iterTime
  ++ leBytes 2 c.limit ++ leBytes 1 c.priority ++ leBytes 1 c.policy ++ leBytes 1 c.clusters ++ leBytes 1 c.quadrants ++ leBytes 1 c.pipes

/-- CONFIG_DIGEST (R364). -/
def configDigest (q : Prob) : W64 :=
  let sig : W64 := match q.im with | some im => im.contentSig | none => 0
  fnv fnvBasis (wBytes 8 sig ++ wBytes 4 Config.planVersion ++ leBytes 1 q.sched.clusters ++ schedBytes q.sched)

/-- ROUNDS of the barrier message (Table 16-2). -/
def roundsOf (s : State) (p n : Nat) : List W32 := (List.range 16).map (fun m => BitVec.ofNat 32 (roundReported s p m n))

/-- PL0 is UP. -/
def twinLink (s : State) : Bool := (s.links.get 0).state == .up

/-- Send the barrier message of a release (R366). -/
def sendBarrier (p : Nat) (t : Steep) (s : State) : State :=
  let q := prob s p
  putVc2 0 2 (.twin 0 p ([BitVec.ofNat 64 (b2n (q.twin.state == .forming)), t.number, t.pairSeq, q.twin.chain, configDigest q]
    ++ t.rounds.map (BitVec.setWidth 64))) s

/-- A PAIRED problem loses its twin (R368): its queued groups merge, TWIN_LOST is recorded, it becomes SOLO. -/
def twinLost (p : Nat) (steep : W64) (s : State) : State :=
  event 0x41 p (wBytes 8 steep) (modProb p (fun q =>
    let q := mergeQueued (BitVec.allOnes 64) q
    { q with twin := { q.twin with state := .solo, early := none, own := [], partner := [] } }) s)

/-- The steep of a problem that waits at its barrier: in flight, or behind one that is. -/
def Prob.atBarrier (q : Prob) : Option Steep := (q.steep.toList ++ q.after).find? (fun t => t.barrier)
/-- The problem without a steep. -/
def Prob.without (q : Prob) (t : Steep) : Prob :=
  { q with steep := q.steep.filter (fun x => x.number != t.number), after := q.after.filter (fun x => x.number != t.number) }

/-- A steep whose barrier is over takes its release (R367, R368): that of a FORMING problem committed at the release itself (R81, R364). -/
def passBarrier (p : Nat) (upTo : W64) (both : Option (List W32)) (formed : Bool) (t : Steep) (s : State) : State :=
  let s := modProb p (fun q => q.without t) s
  let t := { t with barrier := false }
  let x := if formed then (s, t) else commitRelease p upTo t s
  let y := openRelease p both x.2 x.1
  placeSteep p y.2 y.1

/-- The steep runs alone (R364, R368). -/
def runAlone (p : Nat) (t : Steep) (s : State) : State :=
  let paired := (prob s p).twin.state == .paired
  passBarrier p (BitVec.allOnes 64) none (!paired) { t with paired := false } (if paired then twinLost p t.number s else s)

/-- The rounds that both barrier messages report, by MODEL (R240). -/
def bothRounds (a b : List W32) : List W32 := (a.zip b).map (fun x => if x.1.toNat ≤ x.2.toNat then x.1 else x.2)

/-- D(c) of the twin's chain (R365). -/
def Twin.chainAt (w : Twin) (c : W64) : W64 := ((w.chains.find? (fun x => x.1 == c)).map Prod.snd).getD fnvBasis

/-- The barrier resolves, where the partner's message for this steep is present (R364, R367, R370). -/
def tryBarrier (p : Nat) (s : State) : State :=
  let q := prob s p
  match q.atBarrier, q.twin.early with
  | some t, some b =>
    if b.steep.toNat < t.number.toNat then modProb p (fun q => { q with twin := { q.twin with early := none } }) s
    else
      let s := modProb p (fun q => { q with twin := { q.twin with early := none } }) s
      let both := some (bothRounds t.rounds b.rounds)
      if q.twin.state = .forming then
        if b.form ∧ b.steep = t.number ∧ b.config = configDigest q then
          passBarrier p 0 both true { t with paired := true }
            (modProb p (fun q => { q with twin := { q.twin with state := .paired, pairSeq := 0, chain := fnvBasis, chains := [(0, fnvBasis)], queue := [], own := [], partner := [] } }) s)
        else runAlone p t s
      else if b.steep = t.number ∧ b.form = false then
        let c := if t.pairSeq.toNat ≤ b.pairSeq.toNat then t.pairSeq else b.pairSeq
        let mine := q.twin.chainAt c
        let bad := decide (b.pairSeq.toNat ≤ t.pairSeq.toNat) && mine != b.chain
        let s := if bad then event 0x40 p (divergeData t.number 1 0 0 mine b.chain) s else s
        passBarrier p c both false { t with paired := true, inputMismatch := bad } s
      else runAlone p t s
  | _, _ => s

/-- A release with its warm-start point (R28, R34, R84, R88): the steep takes the next number. -/
def release (p : Nat) (r : Rel) (s : State) : State × Steep :=
  let q := prob s p
  let t := newSteep { q with sched := limpSched s q.sched } s.lt s.free r
  let x := match q.im with | some im => withWarm s p q im t | none => (t, 0)
  ({ (modProb p (fun q => { q with
      nextSteep := q.nextSteep + 1, lastRelease := some s.lt, prewarm := false, warmRepaired := satPlus q.warmRepaired x.2
      resume := if x.1.resumed then { q.resume with warm := none } else q.resume
      stats := { q.stats with releases := satInc q.stats.releases } }) s) with free := s.free + 1 }, x.1)

/-- A release (R28, R34, R81): a problem of a twin waits at its barrier before it goes on (R364, R367). -/
def releaseSteep (p : Nat) (r : Rel) (s : State) : State :=
  let q := prob s p
  let x := release p r s
  let s := x.1
  let t := x.2
  let forming := q.twin.state == .forming && decide (q.twin.start.toNat ≤ t.number.toNat) && !r.byRetire
  let paired := q.twin.state == .paired && !r.byRetire
  if (forming || paired) && twinLink s then
    let y := if forming then commitRelease p (BitVec.allOnes 64) t s else (s, { t with params := q.params })
    let t := { y.2 with barrier := true, gens := q.gens, rounds := roundsOf s p t.number.toNat }
    let t := match q.im with | some im => atStart y.1 p im t | none => t
    tryBarrier p (modProb p (fun q => if q.steep.isSome then { q with after := insSteep t q.after } else { q with steep := some t }) (sendBarrier p t y.1))
  else if paired then runAlone p t s
  else
    let y := commitRelease p (BitVec.allOnes 64) t s
    let z := openRelease p none y.2 y.1
    placeSteep p z.2 z.1

/-- PERIODIC_RELEASE (R28, R29): the time base has reached a release instant. A steep in flight that is past its deadline ends first; one
that is not, or whose commit still runs, goes on, and the steep released waits behind it (log entry 40). -/
def doPeriodic (p : Nat) (s : State) : State :=
  match dueInstant s (prob s p) with
  | none => s
  | some (x, n) =>
    let late := match (prob s p).steep with | some t => decide (t.deadline ≤ s.lt) | none => false
    let s := if late then endAtDeadline p s else s
    let s := modProb p (fun q => { q with lastInstant := some x, stats := { q.stats with steppedOver := satPlus q.stats.steppedOver n } }) s
    releaseSteep p { deadline := s.lt + (prob s p).sched.deadline, instant := x } (shedEvents n s)

/-- A held request is due (Table 2-7). -/
def heldDue (q : Prob) (lt : Nat) : Bool :=
  q.held.isSome && q.st == .enabled && q.steep.isNone && q.after.isEmpty
  && (match q.lastRelease with
    | none => true
    | some l => if q.sched.policy = 2 then decide (q.sched.period ≤ 2 * (lt - l)) else decide (q.sched.period ≤ lt - l))

/-- HELD_REQUEST_RELEASE (R41, R43): its instant is the time base's reading when the request was accepted (R147). -/
def doHeld (p : Nat) (s : State) : State :=
  let q := prob s p
  match q.held with
  | some h =>
    if heldDue q s.lt then
      let v := match q.lastRelease with | some l => s.lt - l | none => q.sched.period
      releaseSteep p { deadline := s.lt + q.sched.deadline, instant := h.instant, cut := if q.sched.policy = 2 then some v else none }
        (modProb p (fun q => { q with held := none }) s)
    else s
  | none => s

/-- An excess request (R41, Table 2-7). -/
def excess (p : Nat) (s : State) : State :=
  let q := prob s p
  let dl := s.lt + q.sched.deadline
  let now := clockNow s q.sched.tb
  if q.sched.policy = 0 then releaseSteep p { deadline := dl, instant := now, shed := true } s
  else match q.held with
    | none => modProb p (fun q => { q with held := some ⟨s.lt, dl, now⟩ }) s
    | some h =>
      shedEvents 1 (if q.sched.policy = 1 then
          modProb p (fun q => { q with held := some ⟨s.lt, dl, now⟩, stats := { q.stats with superseded := satInc q.stats.superseded } }) s
        else modProb p (fun q => { q with held := some { h with deadline := max h.deadline dl }, stats := { q.stats with merged := satInc q.stats.merged } }) s)

/-- Every release that is due takes place (R31). -/
def releaseDue (s : State) : State := forAll s.probs (fun e t => doHeld e.1 (doPeriodic e.1 t)) s

/-- A solve request delivered to the scheduler (R31 to R33): its status, and its effect, after every release that is due. -/
def solve (p : Nat) (s : State) : State × Status :=
  let q := prob s p
  if q.st ≠ .enabled ∨ q.staging = true then (s, stNotEnabled)
  else if q.sched.requested = false then (s, stNotRequested)
  else
    let s := releaseDue s
    let q := prob s p
    let timely := q.steep.isNone && q.held.isNone && (match q.lastRelease with | none => true | some l => decide (q.sched.period ≤ s.lt - l))
    (if timely then releaseSteep p { deadline := s.lt + q.sched.deadline, instant := clockNow s q.sched.tb } s else excess p s, stOk)

/-- SOLVE_REQUEST (R32, R33). -/
def effSolve (m : Cmd) (s : State) : State × Reply :=
  checked (descChecks true false m) s (let r := solve (pOf m) s; (r.1, .done r.2 []))

/-- A PAIRED problem's steep waits at its barrier for another steep number than a message's (R368). -/
def crossed (q : Prob) (b : BarrierIn) : Option Steep :=
  q.atBarrier.filter (fun t => q.twin.state == .paired && b.steep != t.number)

/-- BARRIER_MESSAGE_RECEIVED (R364, R367, R368): one with another STEEP than a PAIRED problem waits for ends its wait. -/
def doBarrier (p : Fin 1024) (b : BarrierIn) (s : State) : State :=
  if full s && ((prob s p).twin.state == .forming || (prob s p).twin.state == .paired) then
    match crossed (prob s p) b with
    | some t => runAlone p t s
    | none => tryBarrier p (modProb p (fun q => { q with twin := { q.twin with early := some b } }) s)
  else s

/-- BARRIER_TIMEOUT (R364, R368): TWIN_WAIT after the local release. -/
def doBarrierTimeout (p : Fin 1024) (s : State) : State :=
  match (prob s p).atBarrier with
  | some t =>
    if t.release + (prob s p).twin.wait ≤ s.lt then
      runAlone p t (if (prob s p).twin.state = .paired then modProb p (fun q => { q with twin := { q.twin with timeouts := satInc q.twin.timeouts } }) s else s)
    else s
  | none => s

/-- DIGEST_MESSAGE_RECEIVED (R369, R370). -/
def doDigest (p : Fin 1024) (mismatch : Bool) (steep : W64) (status : W32) (digest : W64) (s : State) : State :=
  if (prob s p).twin.state = .paired then
    let s := if mismatch then event 0x40 p (divergeData steep 1 0 status 0 digest) s else s
    match (prob s p).twin.own.find? (fun x => x.1 == steep) with
    | some x =>
      compareDigests p steep x.2.1 status x.2.2.1 digest
        (modProb p (fun q => { q with twin := { q.twin with own := q.twin.own.filter (fun x => x.1 != steep) } }) s)
    | none => modProb p (fun q => { q with twin := { q.twin with partner := q.twin.partner ++ [(steep, status, digest)] } }) s
  else s

/-- DIGEST_TIMEOUT (R369): no partner digest 100 µs after the local freeze. -/
def doDigestTimeout (p : Fin 1024) (s : State) : State :=
  match (prob s p).twin.own with
  | x :: _ => if (prob s p).twin.state = .paired ∧ x.2.2.2 + 100000 ≤ s.lt then twinLost p x.1 s else s
  | [] => s

/-- SOLVE_REQUEST, 0x0303 (R32). -/
def execSolveRequest (c : CmdIn) (s : State) : Host.Outcome State Fault Refusal := finish s (submit 0x0303 effSolve c s)
/-- PERIODIC_RELEASE (R28). -/
def execPeriodicRelease (p : Fin 1024) (s : State) : Host.Outcome State Fault Refusal := finish s (doPeriodic p s)
/-- HELD_REQUEST_RELEASE (R41). -/
def execHeldRequestRelease (p : Fin 1024) (s : State) : Host.Outcome State Fault Refusal := finish s (doHeld p s)
/-- BARRIER_MESSAGE_RECEIVED (R367). -/
def execBarrierMessageReceived (p : Fin 1024) (b : BarrierIn) (s : State) : Host.Outcome State Fault Refusal := finish s (doBarrier p b s)
/-- BARRIER_TIMEOUT (R368). -/
def execBarrierTimeout (p : Fin 1024) (s : State) : Host.Outcome State Fault Refusal := finish s (doBarrierTimeout p s)
/-- DIGEST_MESSAGE_RECEIVED (R369). -/
def execDigestMessageReceived (p : Fin 1024) (mismatch : Bool) (steep : W64) (status : W32) (digest : W64) (s : State) :
    Host.Outcome State Fault Refusal := finish s (doDigest p mismatch steep status digest s)
/-- DIGEST_TIMEOUT (R369). -/
def execDigestTimeout (p : Fin 1024) (s : State) : Host.Outcome State Fault Refusal := finish s (doDigestTimeout p s)

end Sys2Proof.Machine
end

