-- ==== Sys2Proof/Machine/Problems.lean ====
section
/-! DEFINITION. Enabling and retiring problems, weight staging, prior updates, pre-warm, and the records a master reads of a problem
(R25 to R27, R30, R38, R39, R46, R51 to R53, R121, R155, R182 to R184, R206, R220, R221, R360, R384, R387, R388). -/
namespace Sys2Proof.Machine

/-- A problem as an enable leaves it before its schedule runs: counters, numbers and iterates begin again (R27, R34, R52, R180, R220, R264). -/
def freshRun (q : Prob) (c : Sched) (now : Int) : Prob :=
  { q with
    st := .enabled, sched := c, nextSteep := 0, lastRelease := none, lastInstant := none, notBefore := now, held := none
    level := 0, stats := {}, steep := none, after := [], poured := none, final := none, digest := fnvBasis, digestFrom := 0, digestPours := 0
    digestLast := BitVec.allOnes 64, trap := none, traps := 0, resume := {}, older := none, linAt := none, levelAt := none, prewarm := false, staging := false, spans := false
    inHbm := q.inHbm || q.place.flags.getLsbD 1
    est := { q.est with zbar := [], cov := [], updating := [] }
    ctx := match q.im with
      | none => []
      | some im => (im.models.filter (fun m => m.ctx != 0)).foldl (fun t m => t.set m.model (List.replicate m.ctx (List.replicate m.nIn 0))) [] }

/-- METHODs that a peer group can carry (R360). -/
def spannable (im : Image) : Bool :=
  let ok (m : Nat) : Bool := m == 1 || m == 2 || m == 4
  ok im.method || ((im.method == 5 || im.method == 6) && ok im.qpMethod)

/-- The device belongs to a group that carries problems: another member, and every link to one UP (R359). -/
def groupReady (s : State) : Bool :=
  s.group.id != 0 && !s.group.invalid && decide (1 < s.group.n)
  && ((List.range s.group.n).all (fun r => r == s.group.rank.toNat || (s.links.get (s.group.links.getD r 0).toNat).state == .up))

/-- The assignment of the largest home share of a spanning problem, with at most `n` clusters. -/
def homeShare (s : State) (p : Cand) : Nat → Option (List Trial)
  | 0 => none
  | n + 1 =>
    match search s { p with c := { p.c with clusters := n + 1 } } with
    | some ts => some ts
    | none => homeShare s p n

/-- Admission (R38, R39, R360): the new assignment, whether it spans the group, and the state after the members' answer, which is a
free value (log entry 1). -/
def admitRun (s : State) (p : Nat) (c : Sched) : Option (List Trial × Bool) × State :=
  let cand : Cand := ⟨p, c, (prob s p).place⟩
  match search s cand with
  | some ts => (some (ts, false), s)
  | none =>
    match (prob s p).im with
    | none => (none, s)
    | some im =>
      if spannable im && groupReady s then
        match homeShare s cand (c.clusters - 1) with
        | none => (none, s)
        | some ts =>
          let d := draw s
          (if d.1.getLsbD 0 then some (ts, true) else none, d.2)
      else (none, s)

/-- A set's quadrants hold models to be staged. -/
def needsStaging (s : State) (k : Nat) : Bool :=
  !(rset s k).quads.isEmpty && (probsOf s k).any (fun p => match (prob s p).im with | some im => !im.models.isEmpty | none => false)

/-- Enable a problem after its checks (R27, R38, R39, R182): the status, and whether staging is still to be done; `f` finishes the
problem's state. -/
def enableWith (p : Nat) (c : Sched) (f : Prob → Prob) (s : State) : State × Option Status :=
  let r := admitRun s p c
  match r.1 with
  | none => (r.2, some stAdmitRefused)
  | some (ts, spans) =>
    let s1 := modProb p (fun q => f { freshRun q c (clockNow s c.tb) with spans := spans }) r.2
    let s2 := settle (adopt ts s1)
    match (prob s2 p).set with
    | some k =>
      if needsStaging s2 k then
        (modSet k (fun r => { r with toStage := r.quads.eraseDups }) (modProb p (fun q => { q with staging := true }) s2), none)
      else (strain s2, some stOk)
    | none => (strain s2, some stOk)

/-- Checks of R26 on a schedule block. -/
def schedChecks (s : State) (m : Cmd) : List (Bool × Status) :=
  [(schedBad (argBytes m.c), stSchedRange), (schedImageBad (prob s (pOf m)) (parseSched (argBytes m.c)), stSchedRange)]

/-- PROBLEM_ENABLE (R26, R38, R53). -/
def effEnable (m : Cmd) (s : State) : State × Reply :=
  let q := prob s (pOf m)
  let c := parseSched (argBytes m.c)
  checked (descChecks true false m ++ [(q.st == .empty, stNotLoaded), (q.st == .enabled, stAlreadyEnabled)] ++ schedChecks s m) s
    (if q.st = .retiring then (modProb (pOf m) (fun q => { q with heldEnable := some c }) s, .held .enable false)
     else
       let r := enableWith (pOf m) c id s
       match r.2 with
       | some st => (r.1, .done st [])
       | none => (r.1, .held .enable true))

/-- The RESULT of PROBLEM_RETIRE (R52); the status word is 0 where no steep was ever released (log entry 134). -/
def retireResult (q : Prob) : List Byte :=
  match q.final with
  | some f => wBytes 8 f.1 ++ wBytes 4 f.2
  | none => wBytes 8 (BitVec.allOnes 64) ++ zeros 4

/-- Retirement begins (R51, R259): the steep in flight and those behind it end as at their deadline, a held request is released with that
instant as its deadline, whole and not DEGRADED (log entry 134), a checkpoint not captured is abandoned. -/
def beginRetire (p : Nat) (s : State) : State :=
  let s := match (prob s p).ckpt with
    | some k => if k.captured.isNone then
        endAwaitP .checkpoint p stCkptAbandoned [] (modProb p (fun q => { q with ckpt := none }) s) else s
    | none => s
  let s := modProb p (fun q => { q with st := .retiring, after := q.after.map (fun t => { t with deadline := min t.deadline s.lt, barrier := false }) }) s
  let s := endAtDeadline p s
  match (prob s p).held with
  | some h => releaseSteep p { deadline := s.lt, instant := h.instant, byRetire := true } (modProb p (fun q => { q with held := none }) s)
  | none => s

/-- PROBLEM_RETIRE (R51 to R53, Table 2-15). -/
def effRetire (m : Cmd) (s : State) : State × Reply :=
  let p := pOf m
  let q := prob s p
  checked (descChecks true false m ++ [(q.st == .empty, stNotLoaded)]) s
    (if q.st = .loaded then (s, .done stOk (retireResult q))
     else if q.st = .retiring then (s, .held .retire false)
     else (beginRetire p s, .held .retire false))

/-- A captured checkpoint is written and its command completes (R259). -/
def writeCheckpoint (p : Nat) (s : State) : State :=
  match (prob s p).ckpt with
  | some k =>
    match k.captured with
    | some bs =>
      let s := modProb p (fun q => { q with ckpt := none }) s
      match runsOf s .checkpoint p with
      | r :: _ =>
        if bs.length ≤ lenOf r.cmd then endAwaitP .checkpoint p stOk [] (putRecord r.cmd.c.addr bs s)
        else endAwaitP .checkpoint p stCkptSpace (leBytes 4 bs.length) s
      | [] => s
    | none => s
  | none => s

/-- The problem leaves its resource set; a set without problems is gone (R52, R182). -/
def leaveSet (p : Nat) (s : State) : State :=
  match (prob s p).set with
  | none => s
  | some k =>
    let s := modProb p (fun q => { q with set := none, staged := [] }) s
    if (probsOf s k).isEmpty then retireSet k s else s

/-- The end of a retirement (R52, R53, R391): the problem is LOADED, its commands complete, units that came free place problems and a
held PROBLEM_ENABLE is carried out. A problem with a lost line is unloaded (R383). -/
def retireDone (p : Nat) (s : State) : State :=
  let former : RSet := match (prob s p).set with | some k => rset s k | none => {}
  let s := modProb p (fun q => { q with st := .loaded, level := 0, spans := false, prewarm := false }) (leaveSet p (writeCheckpoint p s))
  let s := endAwaitP .retire p stOk (retireResult (prob s p)) s
  let s := if (prob s p).lost then endAwaitP .enable p stNotLoaded [] (unloadProb p s) else s
  let s := endWork former (strain (settle (placeUnplaced s)))
  match (prob s p).heldEnable with
  | none => s
  | some c =>
    let s := modProb p (fun q => { q with heldEnable := none }) s
    let r := enableWith p c id s
    match r.2 with
    | some st => endAwaitP .enable p st [] r.1
    | none => r.1

/-- RETIREMENT_COMPLETE (R52). -/
def doRetired (p : Fin 1024) (s : State) : State :=
  let q := prob s p
  if q.st == .retiring && q.steep.isNone && q.after.isEmpty && q.est.updating.isEmpty then retireDone p s else s

/-- Bytes of a quadrant's weight region (R182). -/
def weightRegion : Nat := 16 * 2 ^ 20

/-- What a set's quadrants are to hold (R182, R241): for each problem and model its key, the generation in force with its weights, then
the highest generation accepted and not promoted. -/
def stageWanted (s : State) (k : Nat) : List (Nat × Nat × Nat × Nat × List Byte) :=
  let now := (probsOf s k).flatMap (fun p => match (prob s p).im with
    | some im => im.models.map (fun m => (p, m.model, m.key, (genNo (prob s p) m.model).toNat, weightsIn im (prob s p).gens m))
    | none => [])
  let next := now.filterMap (fun x =>
    (((jobOf s x.1 x.2.1).map Job.accepted).getD []).foldl (fun b a => match b with
      | none => some (x.1, x.2.1, x.2.2.1, a)
      | some y => if y.2.2.2.1 < a.1 then some (x.1, x.2.1, x.2.2.1, a) else some y) (none : Option (Nat × Nat × Nat × Nat × List Byte)))
  now ++ next

/-- R182: the models of a set staged in one quadrant, in order, until the next would not fit, as problem, MODEL and generation; equal
MODEL_KEYs take one copy while they hold their images' weights (R241). -/
def stageModels (s : State) (k : Nat) : List (Nat × Nat × Nat) :=
  ((stageWanted s k).foldl (fun (a : List (Nat × Nat × Nat) × List (Nat × List Byte) × Nat × Bool) x =>
    let e := (x.1, x.2.1, x.2.2.2.1)
    let w := x.2.2.2.2
    if a.2.2.2 then a
    else if x.2.2.2.1 = 0 ∧ a.2.1.contains (x.2.2.1, w) = true then (a.1 ++ [e], a.2.1, a.2.2.1, false)
    else if weightRegion < a.2.2.1 + w.length then (a.1, a.2.1, a.2.2.1, true)
    else (a.1 ++ [e], if x.2.2.2.1 = 0 then (x.2.2.1, w) :: a.2.1 else a.2.1, a.2.2.1 + w.length, false)) ([], [], 0, false)).1

/-- The problem's PROBLEM_ENABLE completes once its set's quadrants are staged (R27, R182). -/
def stagedProb (k : Nat) (s : State) : State :=
  forAll (probsOf s k) (fun p t =>
    if (prob t p).staging then
      endAwaitP .enable p stOk [] (modProb p (fun q => { q with staging := false, notBefore := clockNow t q.sched.tb }) t)
    else t) s

/-- WEIGHT_STAGING_COMPLETE (R182, R241): a quadrant of a set is staged, between two steeps of the set. -/
def doStaging (qd : Fin 4) (s : State) : State :=
  forAll (s.sets.filter (fun e => decide (e.1 < 64) && e.2.toStage.contains qd.val && e.2.running.isNone)) (fun e t =>
    let ms := stageModels t e.1
    let t := modSet e.1 (fun r => { r with toStage := r.toStage.filter (· != qd.val) }) t
    let t := forAll (probsOf t e.1) (fun p t => modProb p (fun q => { q with
      staged := q.staged.filter (fun x => x.2.1 != qd.val) ++ (ms.filter (fun x => x.1 == p)).map (fun x => (x.2.1, qd.val, x.2.2)) }) t) t
    if (rset t e.1).toStage.isEmpty then strain (stagedProb e.1 t) else t) s

/-- Merge the flags of a prior update with those of the steep that froze (R206, R217, R221). -/
def mergePrior (u : PriorUpd) (n : NumSt) (q : Prob) : Prob :=
  { q with scalar := (mergeFlags u.steep.number u.steep.mScalar n.sc q.scalar).1, tensor := (mergeFlags u.steep.number u.steep.mTensor n.tn q.tensor).1 }

/-- PRIOR_UPDATE_COMPLETE (R154, R155, R217): the prior for the next steep, unless a start without a source has replaced the old one; the
set is free once no update is left (R50). -/
def doPrior (p : Fin 1024) (corrected : Nat × Nat × Nat) (s : State) : State :=
  let q := prob s p
  match q.im, q.est.updating with
  | some im, u :: rest =>
    let r := priorStep s p im q.est u
    let s := countCorrected corrected s
    let s := modProb p (fun q => mergePrior u r.2 { q with est := { (if u.void then q.est else r.1) with updating := rest } }) s
    let mine := s.sets.filter (fun e => e.2.running == some p.val && rest.isEmpty)
    let s := forAll mine (fun e t => modSet e.1 (fun r => { r with running := none }) t) s
    refreshPower (forAll mine (fun e t => endWork e.2 t) (settle s))
  | _, _ => s

/-- PREWARM_START (R30, R319): the wake of the set's domains begins tKETTLE, or tCOLD where one is cold, before the predicted release. -/
def doPrewarm (p : Fin 1024) (s : State) : State :=
  let q := prob s p
  match q.set with
  | none => s
  | some k =>
    let r := rset s k
    let cold := (domainsOf r).any (fun d => (pd s d).state == .off || (pd s d).state == .goingOff)
    let lead : Int := if cold then 40000 else 2000
    if q.st == .enabled && !q.sched.requested && !q.staging && !q.prewarm && decide (0 < q.sched.period) && clockRuns s q.sched.tb
        && decide (predictLt s q.sched.tb (nextInstant s q) ≤ s.lt + lead) then
      wakeSet r (modProb p (fun q => { q with prewarm := true }) s)
    else s

/-- SHED_INTERVAL_END (R46): the interrupt once for an interval of MBX_SHED_IRQ_INTERVAL µs in which MBX_SHED_TOTAL changed; the next interval
begins. Interval 0 disables it. -/
def doShedInterval (s : State) : State :=
  if ready s && s.mbx.shedInterval != 0 && decide (s.mbx.shedStart + 1000 * s.mbx.shedInterval.toNat ≤ s.lt) then
    let t := modMbx (fun b => { b with shedChanged := false, shedStart := s.lt }) s
    if s.mbx.shedChanged then event 0x30 0 (wBytes 4 s.mbx.shedTotal) t else t
  else s

/-- TILE_RECLAIM (R183, R184): a tile that runs training work gives it up within tTRECLAIM; the abandoned block pass is repeated later
and no result changes, so nothing the model holds does (log entry 16). -/
def doReclaim (_tile : Fin 128) (s : State) : State := s

/-- The steep statistics record (Table 2-12). -/
def statsRecord (q : Prob) : List Byte :=
  let c := q.stats
  ([q.nextSteep, c.releases, c.shed, c.superseded, c.merged, c.degraded, c.steppedOver, c.overruns, c.rolledBack] ++ c.byCode).flatMap (wBytes 8)
  ++ leBytes 1 q.st.code ++ leBytes 1 q.level ++ zeros 6

/-- STEEP_STATS_READ (R46). -/
def effStats (m : Cmd) (s : State) : State × Reply :=
  checked (descChecks true false m ++ outChecks m 152 ++ [((prob s (pOf m)).st == .empty, stNotLoaded)]) s (putOut m (statsRecord (prob s (pOf m))) s)

/-- The iterate record of a problem that has one (Tables 4-5 and 4-6). -/
def iterateRecord (q : Prob) : Option (List Byte) :=
  match q.im, q.poured with
  | some im, some d => d.it.map (fun it =>
      let cert := statusCode d.status == 4
      iterateHeader d.steep d.status im it.rp it.rd it.mu cert ++ iterateArrays it cert)
  | _, _ => none

/-- ITERATE_READ (R121, R383). -/
def effIterate (m : Cmd) (s : State) : State × Reply :=
  let q := prob s (pOf m)
  let bs := (iterateRecord q).getD []
  checked (descChecks true false m ++ [(addrBad m m.c.addr (lenOf m), stBadAddress), (q.st == .empty, stNotLoaded),
      ((iterateRecord q).isNone, stNoIterate), (decide (lenOf m < bs.length), stBadLength)]) s (putOut m bs s)

/-- The trap record (Table 9-4). -/
def trapRecord (p : Nat) (traps : W64) (r : TrapRec) : List Byte :=
  wBytes 8 r.steep ++ wBytes 8 traps ++ leBytes 2 p ++ leBytes 2 r.iteration ++ leBytes 1 r.t.unit ++ leBytes 1 r.t.phase
  ++ leBytes 1 r.exception ++ leBytes 1 r.t.flags.toNat ++ leBytes 2 r.t.opcode ++ leBytes 1 (b2n r.t.width32) ++ [r.mode]
  ++ leBytes 4 r.t.stage ++ leBytes 8 r.t.location ++ wBytes 8 r.t.a ++ wBytes 8 r.t.b ++ wBytes 8 r.t.c ++ wBytes 8 r.t.default ++ zeros 8

/-- TRAP_READ (R220). -/
def effTrapRead (m : Cmd) (s : State) : State × Reply :=
  let q := prob s (pOf m)
  checked (descChecks true false m ++ outChecks m 80 ++ [(q.st == .empty, stNotLoaded), (q.trap.isNone, stNoTrap)]) s
    (match q.trap with | some r => putOut m (trapRecord (pOf m) q.traps r) s | none => okay s)

/-- A flag record: FIRST_STEEP, FLAGS, counters (Tables 8-5 and 9-6). -/
def flagRecord (r : FlagRec) : List Byte := wBytes 8 r.first ++ leBytes 4 r.flags ++ zeros 4 ++ r.counts.flatMap (wBytes 8)

/-- SCALAR_FLAGS_READ (R221): the record, then flags and counts are cleared. -/
def effScalarFlags (m : Cmd) (s : State) : State × Reply :=
  let q := prob s (pOf m)
  checked (descChecks true false m ++ outChecks m 72 ++ [(q.st == .empty, stNotLoaded)]) s
    (putOut m (flagRecord q.scalar) (modProb (pOf m) (fun q => { q with
      scalar := { counts := List.replicate 7 0 }, steep := q.steep.map (fun t => { t with mScalar := 0 })
      est := { q.est with updating := q.est.updating.map (fun u => { u with steep := { u.steep with mScalar := 0 } }) } }) s))

/-- TENSOR_FLAGS_READ (R206): the record, then flags and counts are cleared. -/
def effTensorFlags (m : Cmd) (s : State) : State × Reply :=
  let q := prob s (pOf m)
  checked (descChecks true false m ++ outChecks m 56 ++ [(q.st == .empty, stNotLoaded)]) s
    (putOut m (flagRecord q.tensor) (modProb (pOf m) (fun q => { q with
      tensor := { counts := List.replicate 5 0 }, steep := q.steep.map (fun t => { t with mTensor := 0 })
      est := { q.est with updating := q.est.updating.map (fun u => { u with steep := { u.steep with mTensor := 0 } }) } }) s))

/-- PLACE_CONSTRAIN (R387, R524). -/
def effPlace (m : Cmd) (s : State) : State × Reply :=
  let bs := inRec s m
  let q := prob s (pOf m)
  checked (descChecks true false m ++ inChecks m (some (u16 bs 0)) 32
      ++ [(q.st == .empty, stNotLoaded), (q.st != .loaded, stProblemBusy),
          (decide (u64 bs 8 = 0 ∨ 3 < u8 bs 2 ∨ 15 < u8 bs 3) || !zeroAt bs 5 3 || !zeroAt bs 16 16, stPlaceRange)]) s
    (okay (modProb (pOf m) (fun q => { q with place := ⟨byteAt bs 2, byteAt bs 3, byteAt bs 4, w64At bs 8⟩ }) s))

/-- A map of logical to physical units, 0xFF where unused. -/
def unitMap (n : Nat) (l : List Nat) : List Byte := (List.range n).map (fun i => BitVec.ofNat 8 (l.getD i 0xFF))

/-- The placement record (Table 17-7). -/
def placeRecord (s : State) (q : Prob) : List Byte :=
  let fl (placed dbl : Bool) : Nat := b2n placed + 2 * b2n dbl + 4 * b2n (q.place.flags.getLsbD 0) + 8 * b2n q.inHbm + 16 * b2n q.lcInPool
  match (if q.st = .enabled then q.set else none) with
  | some k =>
    let r := rset s k
    leBytes 2 k ++ leBytes 1 r.clusters.length ++ leBytes 1 r.quads.length ++ leBytes 1 r.pipes.length
    ++ leBytes 1 (fl true (decide (1 < doubling r))) ++ leBytes 1 (doubling r) ++ zeros 1
    ++ unitMap 64 r.clusters ++ unitMap 4 r.quads ++ unitMap 8 r.pipes ++ zeros 12
  | none => leBytes 2 0xFFFF ++ zeros 3 ++ leBytes 1 (fl false false) ++ zeros 2 ++ List.replicate 76 0xFF#8 ++ zeros 12

/-- PLACE_READ (R388). -/
def effPlaceRead (m : Cmd) (s : State) : State × Reply :=
  checked (descChecks true false m ++ outChecks m 96 ++ [((prob s (pOf m)).st == .empty, stNotLoaded)]) s (putOut m (placeRecord s (prob s (pOf m))) s)

/-- MEM_STATUS_READ (R384, Table 17-6a): the free bytes of HBM are not given and are a free value (log entry 1). -/
def effMemStatus (m : Cmd) (s : State) : State × Reply :=
  checked (descChecks false false m ++ outChecks m 96) s
    (let d := draw s
     putOut m (s.mem.counts.flatMap (wBytes 8) ++ leBytes 1 s.mem.spares ++ zeros 3 ++ leBytes 4 (32 * 2 ^ 20 - caddyUsed s) ++ wBytes 8 d.1) d.2)

/-- PROBLEM_ENABLE, 0x0301 (R26). -/
def execProblemEnable (c : CmdIn) (s : State) : Host.Outcome State Fault Refusal := finish s (submit 0x0301 effEnable c s)
/-- PROBLEM_RETIRE, 0x0302 (R51). -/
def execProblemRetire (c : CmdIn) (s : State) : Host.Outcome State Fault Refusal := finish s (submit 0x0302 effRetire c s)
/-- STEEP_STATS_READ, 0x0304 (R46). -/
def execSteepStatsRead (c : CmdIn) (s : State) : Host.Outcome State Fault Refusal := finish s (submit 0x0304 effStats c s)
/-- ITERATE_READ, 0x0305 (R121). -/
def execIterateRead (c : CmdIn) (s : State) : Host.Outcome State Fault Refusal := finish s (submit 0x0305 effIterate c s)
/-- TRAP_READ, 0x030A (R220). -/
def execTrapRead (c : CmdIn) (s : State) : Host.Outcome State Fault Refusal := finish s (submit 0x030A effTrapRead c s)
/-- SCALAR_FLAGS_READ, 0x030B (R221). -/
def execScalarFlagsRead (c : CmdIn) (s : State) : Host.Outcome State Fault Refusal := finish s (submit 0x030B effScalarFlags c s)
/-- TENSOR_FLAGS_READ, 0x0410 (R206). -/
def execTensorFlagsRead (c : CmdIn) (s : State) : Host.Outcome State Fault Refusal := finish s (submit 0x0410 effTensorFlags c s)
/-- PLACE_CONSTRAIN, 0x0311 (R387). -/
def execPlaceConstrain (c : CmdIn) (s : State) : Host.Outcome State Fault Refusal := finish s (submit 0x0311 effPlace c s)
/-- PLACE_READ, 0x0312 (R388). -/
def execPlaceRead (c : CmdIn) (s : State) : Host.Outcome State Fault Refusal := finish s (submit 0x0312 effPlaceRead c s)
/-- MEM_STATUS_READ, 0x0110 (R384). -/
def execMemStatusRead (c : CmdIn) (s : State) : Host.Outcome State Fault Refusal := finish s (submit 0x0110 effMemStatus c s)
/-- RETIREMENT_COMPLETE (R52). -/
def execRetirementComplete (p : Fin 1024) (s : State) : Host.Outcome State Fault Refusal := finish s (doRetired p s)
/-- WEIGHT_STAGING_COMPLETE (R182). -/
def execWeightStagingComplete (q : Fin 4) (s : State) : Host.Outcome State Fault Refusal := finish s (doStaging q s)
/-- PRIOR_UPDATE_COMPLETE (R155). -/
def execPriorUpdateComplete (p : Fin 1024) (shared : Nat × Nat) (units : Nat) (s : State) : Host.Outcome State Fault Refusal :=
  finish s (doPrior p (shared.1, shared.2, units) s)
/-- PREWARM_START (R30). -/
def execPrewarmStart (p : Fin 1024) (s : State) : Host.Outcome State Fault Refusal := finish s (doPrewarm p s)
/-- SHED_INTERVAL_END (R46). -/
def execShedIntervalEnd (s : State) : Host.Outcome State Fault Refusal := finish s (doShedInterval s)
/-- TILE_RECLAIM (R183). -/
def execTileReclaim (tile : Fin 128) (s : State) : Host.Outcome State Fault Refusal := finish s (doReclaim tile s)

end Sys2Proof.Machine
end

