-- ==== Sys2Proof/Machine/Query.lean ====
section
/-! DEFINITION. What a rigid-body query computes (R139 to R141, Tables 5-6 to 5-8): in RNE, trapping nothing. -/
namespace Sys2Proof.Machine

/-- The tree of a query at its coordinates; `x` are the accelerations of RNEA or the forces of ABA. -/
def queryTree {α : Type} [Inhabited α] (zero : α) (im : Image) (root : Nat) (q qd x : List α) : List (TreeBody α) :=
  treeOf' im root (fun _ i _ => q.getD i zero) (fun _ i _ => qd.getD i zero) (fun _ i _ => x.getD i zero)

/-- Plain values beside a unit tangent along one of them. -/
def along (l : List W64) (d : Option Nat) : List Dual := l.zipIdx.map (fun (v, i) => (v, if d = some i then some one64 else none))

/-- Tangents of RNEA at given accelerations along each position, then along each velocity: one list over velocity indices for each. -/
def rneaTangents (im : Image) (root : Nat) (params q qd acc : List W64) : FlM (List (List W64)) := do
  let par (i : Nat) : Dual := (paramAt params i, none)
  let col (a b : Option Nat) : FlM (List W64) := do
    let bs := queryTree ((0, none) : Dual) im root (along q a) (along qd b) (along acc none)
    let ks ← dualArith.fk par bs
    let r ← dualArith.rnea par bs ks (bs.map TreeBody.tau)
    pure ((byVel bs r).map (fun x => orZero x.2))
  let a ← (List.range q.length).mapM (fun d => col (some d) none)
  let b ← (List.range qd.length).mapM (fun d => col none (some d))
  pure (a ++ b)

/-- Columns as a matrix of `n` rows, row by row. -/
def rowMajor (n : Nat) (cols : List (List W64)) : List W64 := (List.range n).flatMap (fun i => cols.map (fun c => c.getD i 0))

/-- OP 0: poses and velocities (Table 5-8). -/
def queryFk (im : Image) (root : Nat) (params q qd : List W64) : FlM (List W64) := do
  let par := paramAt params
  let bs := queryTree 0 im root q qd []
  let t ← plainArith.tree par bs []
  let l ← bs.mapM (fun b => do
    let p ← (List.range 12).mapM (fun e => plainArith.quantity par t 1 b.b.body e)
    let v ← (List.range 6).mapM (fun e => plainArith.quantity par t 2 b.b.body e)
    pure (p ++ v))
  pure (l.flatMap id)

/-- OP 1: forces, with the derivatives along positions and velocities where asked. -/
def queryRnea (im : Image) (root : Nat) (params q qd acc : List W64) (deriv : Bool) : FlM (List W64) := do
  let par := paramAt params
  let bs := queryTree 0 im root q qd acc
  let ks ← plainArith.fk par bs
  let r ← plainArith.rnea par bs ks (bs.map TreeBody.tau)
  let ds ← if deriv then rneaTangents im root params q qd acc else pure []
  pure (byVel bs r ++ rowMajor qd.length (ds.take q.length) ++ rowMajor qd.length (ds.drop q.length))

/-- The mass matrix of a query's tree. -/
def queryMass (im : Image) (root : Nat) (params q qd : List W64) : FlM (List (List W64)) := do
  let par := paramAt params
  let bs := queryTree 0 im root q qd []
  let ks ← plainArith.fk par bs
  let ml ← plainArith.crba par bs ks
  pure (massMatrix plainArith qd.length ml)

/-- OP 2: accelerations, with the derivatives along positions, velocities and forces where asked: M⁻¹ times the unit force, or times the
negative of RNEA's tangent at the accelerations computed. -/
def queryAba (im : Image) (root : Nat) (params q qd tau : List W64) (deriv : Bool) : FlM (List W64) := do
  let par := paramAt params
  let bs := queryTree 0 im root q qd tau
  let ks ← plainArith.fk par bs
  let r ← plainArith.aba par bs ks
  let acc := byVel bs r.1
  if !deriv then pure acc
  else do
    let m ← queryMass im root params q qd
    let ts ← rneaTangents im root params q qd acc
    let n := qd.length
    let unit (j : Nat) : List W64 := (List.range n).map (fun i => if i = j then one64 else 0)
    let cols := ts.map (fun t => t.map negW) ++ (List.range n).map unit
    let sol ← massSolve m ((List.range n).map (fun i => cols.map (fun c => c.getD i 0)))
    let out := (List.range cols.length).map (fun k => sol.map (fun x => x.getD k 0))
    pure (acc ++ rowMajor n (out.take q.length) ++ rowMajor n ((out.drop q.length).take n) ++ rowMajor n (out.drop (q.length + n)))

/-- The rotation vector of a rotation matrix: axis times angle in [0, π] (R141, log entry 133). -/
def rotVector (r : List (List W64)) : FlM (List W64) := do
  let at' (i j : Nat) : W64 := (r.getD i []).getD j 0
  let half := ratW 1 2
  let d (a b : W64) : FlM W64 := do let x ← nSub a b; nMul half x
  let w := [← d (at' 2 1) (at' 1 2), ← d (at' 0 2) (at' 2 0), ← d (at' 1 0) (at' 0 1)]
  let t1 ← nAdd (at' 0 0) (at' 1 1)
  let t2 ← nAdd t1 (at' 2 2)
  let c ← d t2 one64
  let q ← plainArith.dot w w
  let s ← nSqrt q
  let th ← nAtan2 s c
  if s.toNat % f64.signBit = 0 then
    if ltW c 0 then do
      -- a half turn: the axis from the diagonal, its largest element positive
      let k := if ltW (at' 0 0) (at' 1 1) then (if ltW (at' 1 1) (at' 2 2) then 2 else 1) else if ltW (at' 0 0) (at' 2 2) then 2 else 0
      let u ← nAdd (at' k k) one64
      let v ← nMul half u
      let a ← nSqrt v
      (List.range 3).mapM (fun i =>
        if i = k then nMul a th
        else do
          let x ← nMul half (at' i k)
          let y ← nDiv x a
          nMul y th)
    else pure w
  else do
    let k ← nDiv th s
    w.mapM (fun x => nMul x k)

/-- A joint's coordinates advanced by a velocity step (R141, log entry 133): added for angles, displacements and translations, by the
quaternion exponential and renormalisation for quaternions. -/
def advanceJoint (j : JointRec) (k : JointKin W64) (q dv : List W64) : FlM (List W64) := do
  let quat (u w : List W64) : FlM (List W64) := do
    let h ← plainArith.vscale (ratW 1 2) w
    let n2 ← plainArith.dot h h
    let n ← nSqrt n2
    let c ← nCos n
    let s ← nSin n
    let k ← if n.toNat % f64.signBit = 0 then pure one64 else nDiv s n
    let v ← h.mapM (nMul k)
    let x (i : Nat) : W64 := u.getD i 0
    let e := c :: v
    let p (i : Nat) : W64 := e.getD i 0
    let rows : List (List W64) := [[x 0, negW (x 1), negW (x 2), negW (x 3)], [x 1, x 0, negW (x 3), x 2], [x 2, x 3, x 0, negW (x 1)],
      [x 3, negW (x 2), x 1, x 0]]
    let y ← rows.mapM (fun r => plainArith.dot r [p 0, p 1, p 2, p 3])
    plainArith.unit y
  match j.jtype with
  | 0 => plainArith.vadd (q.take 1) dv
  | 1 => plainArith.vadd (q.take 1) dv
  | 3 => quat k.u dv
  | 4 => do
    let t ← plainArith.mv k.cu (dv.take 3)
    let x ← plainArith.vadd (q.take 3) t
    let r ← quat k.u (dv.drop 3)
    pure (x ++ r)
  | _ => pure []

/-- What an inverse-kinematics query asks for. -/
structure IkAsk where
  /-- TARGET_BODY -/
  body : Nat
  /-- IK_ITERS -/
  iters : Nat
  /-- IK_TOL -/
  tol : W64
  /-- IK_ROT_WEIGHT -/
  weight : W64
  /-- IK_DAMP -/
  damp : W64
  /-- TARGET -/
  target : List W64
deriving DecidableEq, Repr, Inhabited

/-- The columns of the world-frame Jacobian of the target body: linear, then weighted angular part. -/
def ikColumns (im : Image) (root : Nat) (params q : List W64) (nv : Nat) (a : IkAsk) : FlM (List (List W64)) :=
  (List.range nv).mapM (fun d => do
    let bs := queryTree 0 im root q ((List.range nv).map (fun i => if i = d then one64 else 0)) []
    let ks ← plainArith.fk (paramAt params) bs
    match (bs.zip ks).find? (fun x => x.1.b.body == a.body) with
    | some (_, k) => do
      let v ← plainArith.mv k.rot (k.vel.drop 3)
      let w ← plainArith.mv k.rot (k.vel.take 3)
      let w ← plainArith.vscale a.weight w
      pure (v ++ w)
    | none => pure (List.replicate 6 0))

/-- The error of R141 at a point. -/
def ikError (k : BodyKin W64) (a : IkAsk) : FlM (List W64) := do
  let d ← plainArith.vsub (a.target.take 3) k.pos
  let tr := (List.range 3).map (fun i => (a.target.drop (3 + 3 * i)).take 3)
  let r ← plainArith.mm 3 tr (plainArith.tr 3 k.rot)
  let w ← rotVector r
  let e ← plainArith.vscale a.weight w
  pure (d ++ e)

/-- The damped step Jᵀ (J Jᵀ + λ² I)⁻¹ e. -/
def ikStep (cols : List (List W64)) (damp : W64) (e : List W64) : FlM (List W64) := do
  let j := plainArith.tr 6 cols
  let l2 ← nMul damp damp
  let m ← (j.zipIdx).mapM (fun (r, i) => (j.zipIdx).mapM (fun (c, k) => do
    let d ← plainArith.dot r c
    if i = k then nAdd d l2 else pure d))
  let y ← plainArith.solveSmall 6 ((m.zip e).map (fun (r, x) => (r, [x])))
  plainArith.mv cols (y.map (fun r => r.getD 0 0))

/-- R141: from a step on, with `n` steps left: whether it converged, steps taken, RESIDUAL, and the positions. -/
def ikFrom (im : Image) (root : Nat) (params : List W64) (nv : Nat) (a : IkAsk) : Nat → Nat → List W64 → FlM (Bool × Nat × W64 × List W64)
  | n, step, q => do
    let bs := queryTree 0 im root q [] []
    let ks ← plainArith.fk (paramAt params) bs
    let e ← match (bs.zip ks).find? (fun x => x.1.b.body == a.body) with
      | some (_, k) => ikError k a
      | none => pure (List.replicate 6 0)
    let r ← normInf e
    if leW r a.tol then pure (true, step, r, q)
    else match n with
      | 0 => pure (false, step, r, q)
      | n + 1 => do
        let cols ← ikColumns im root params q nv a
        let dv ← ikStep cols a.damp e
        let l ← (bs.zip ks).mapM (fun (b, k) => do
          let c := Image.jointCoords b.j.jtype
          let x ← advanceJoint b.j k.k b.q ((dv.drop b.v0).take c.2)
          pure (b.j.joint, x))
        ikFrom im root params nv a n (step + 1) ((l.foldl (fun acc x => Image.insBy Prod.fst x acc) []).flatMap Prod.snd)

/-- The output record of a query (Tables 5-7 and 5-8) from its input record's fields and the committed parameters. -/
def queryRun (im : Image) (params : List W64) (root op : Nat) (deriv : Bool) (q qd x : List W64) (a : IkAsk) : List Byte :=
  let s : NumSt := { mask := 0, rnd := .rne }
  let r : Bool × Nat × W64 × List W64 := match op with
    | 0 => (true, 0, 0, ((queryFk im root params q qd).run s).1)
    | 1 => (true, 0, 0, ((queryRnea im root params q qd x deriv).run s).1)
    | 2 => (true, 0, 0, ((queryAba im root params q qd x deriv).run s).1)
    | 3 => (true, 0, 0, ((queryMass im root params q qd).run s).1.flatMap id)
    | _ => ((ikFrom im root params qd.length a a.iters 0 q).run s).1
  let vs := r.2.2.2.map (fun v => b64 (canon f64 v.toNat))
  let fin := vs.all isFin64 && isFin64 r.2.2.1
  leBytes 1 (if !fin then 2 else if r.1 then 0 else 1) ++ zeros 1 ++ leBytes 2 r.2.1 ++ zeros 4 ++ wBytes 8 r.2.2.1 ++ vs.flatMap (wBytes 8)

end Sys2Proof.Machine
end

