-- ==== Sys2Proof/Machine/Order.lean ====
section
/-! DEFINITION. Fixed-order mode, digests and checkpoints, twin commands, rigid-body queries (R138 to R142, R249, R250, R259 to R265, R363,
R371). -/
namespace Sys2Proof.Machine

/-- ORDER_MODE_SET (R249, R250). -/
def effOrderMode (m : Cmd) (s : State) : State × Reply :=
  let q := prob s (pOf m)
  let mode := argN m.c 0 1
  checked (descChecks true false m ++ [(q.st == .empty, stNotLoaded), (q.st != .loaded, stProblemBusy), (decide (1 < mode), stSchedRange),
      (mode == 1 && !(match q.im with | some im => im.fixedOrderBuilt | none => false), stOrderNotBuilt)]) s
    (okay (modProb (pOf m) (fun q => { q with fixed := mode == 1 }) s))

/-- The order status record (Table 11-5). -/
def orderRecord (q : Prob) : List Byte :=
  match q.im with
  | some im => leBytes 1 (b2n q.fixed + 2 * b2n im.fixedOrderBuilt) ++ zeros 7 ++ wBytes 4 Config.planVersion ++ zeros 4 ++ wBytes 8 im.contentSig
      ++ wBytes 8 q.digestFrom ++ wBytes 8 q.digestPours ++ wBytes 8 q.digestLast ++ wBytes 8 q.digest ++ zeros 8
  | none => []

/-- ORDER_STATUS_READ (R265). -/
def effOrderStatus (m : Cmd) (s : State) : State × Reply :=
  checked (descChecks true false m ++ outChecks m 64 ++ [((prob s (pOf m)).st == .empty, stNotLoaded)]) s
    (putOut m (orderRecord (prob s (pOf m))) s)

/-- The digest restarts from a steep number (R264). -/
def restartDigest (n : W64) (q : Prob) : Prob :=
  { q with digestFrom := n, digest := fnvBasis, digestPours := 0, digestLast := BitVec.allOnes 64 }

/-- ORDER_DIGEST_SET (R264). -/
def effOrderDigest (m : Cmd) (s : State) : State × Reply :=
  let q := prob s (pOf m)
  let n := BitVec.ofNat 64 (argN m.c 0 8)
  checked (descChecks true false m ++ [(q.st == .empty, stNotLoaded), (q.st != .enabled, stNotEnabled),
      (decide (n.toNat < m.nextAt.toNat), stOrderTooLate)]) s
    (okay (modProb (pOf m) (restartDigest n) s))

/-- CHECKPOINT_SAVE (R259): CKPT_SPACE reports the bytes needed. -/
def effCkptSave (m : Cmd) (s : State) : State × Reply :=
  let q := prob s (pOf m)
  let at' := BitVec.ofNat 64 (argN m.c 0 8)
  let need := match q.im with | some im => ckptSize im q | none => 0
  checked (descChecks true false m ++ [(addrBad m m.c.addr (lenOf m), stBadAddress), (q.st == .empty, stNotLoaded), (q.st == .loaded, stNotEnabled),
      (q.st == .retiring, stProblemBusy), (decide (at'.toNat < m.nextAt.toNat), stOrderTooLate), (q.ckpt.isSome, stCkptBusy)]) s
    (if lenOf m < need then (s, .done stCkptSpace (leBytes 4 need))
     else (modProb (pOf m) (fun q => { q with ckpt := some { atSteep := at' } }) s, .held .checkpoint false))

/-- CHECKPOINT_WRITTEN (R259). -/
def doCkptWritten (p : Fin 1024) (s : State) : State := writeCheckpoint p s

/-- The section layout of a checkpoint record is right: sections in order from the header's end, 8-byte aligned, absent ones with
offset and length 0, the last ending at TOTAL_SIZE (R261). -/
def ckptLayout (bs : List Byte) : Bool :=
  let n := u32 bs 0x2C
  let pLen := 8 * n
  let wOff := u32 bs 0x34
  let wLen := u32 bs 0x38
  let eLen := u32 bs 0x54
  let secs : List (Nat × Nat) := [(u32 bs 0x30, pLen), (wOff, wLen), (u32 bs 0x3C, u32 bs 0x40), (u32 bs 0x44, u64 bs 0x48), (u32 bs 0x50, eLen)]
  let fin := secs.foldl (fun (a : Option Nat) (x : Nat × Nat) =>
    match a with
    | none => none
    | some o => if x.2 = 0 then (if x.1 = 0 then some o else none) else if x.1 = o ∧ x.2 % 8 = 0 then some (o + x.2) else none) (some 128)
  fin == some (u32 bs 8) && decide (64 ≤ wLen)
  && wLen == 64 + 8 * (u32 bs (wOff + 0xC) + u32 bs (wOff + 0x10) + 2 * u32 bs (wOff + 0x14))

/-- The warm-start section's header is wrong (Tables 4-5 and 11-4): residuals, HAS_CERT, reserved bytes, a STATUS with anything but one
warm flag. -/
def ckptWarmBad (bs : List Byte) : Bool :=
  let w := u32 bs 0x34
  let st := u32 bs (w + 8)
  decide (st ≠ 0 ∧ st ≠ 0x200 ∧ st ≠ 0x400) || !zeroAt bs (w + 0x18) 24 || !zeroAt bs (w + 0x30) 16

/-- CKPT_FORMAT (R262). -/
def ckptFormatBad (bs : List Byte) : Bool :=
  decide (u32 bs 0 ≠ 0x43584459 ∨ u16 bs 4 ≠ 1 ∨ u16 bs 6 ≠ 0x80 ∨ 3 < u8 bs 0xE) || !zeroAt bs 0x60 16 || !zeroAt bs 0x78 8
  || w64At bs 0x70 != fnv (fnv fnvBasis (bs.take 0x70)) (bs.drop 0x80) || !ckptLayout bs || ckptWarmBad bs
  || (u32 bs 0x54 != 0 && u32 bs (u32 bs 0x50 + 4) != 0)

/-- The results of the image's method depend on CLUSTERS (R256). -/
def byClusters (im : Image) : Bool := im.method == 1 || ((im.method == 5 || im.method == 6) && im.qpMethod == 1)

/-- CKPT_MISMATCH (R262). -/
def ckptMismatch (q : Prob) (im : Image) (c : Sched) (bs : List Byte) : Bool :=
  w64At bs 0x20 != im.contentSig || w64At bs 0x18 != im.structSig || u32 bs 0x28 != Config.planVersion.toNat || u32 bs 0x2C != im.nParams
  || (u8 bs 0xE).testBit 0 != q.fixed || ((u8 bs 0xE).testBit 0 && byClusters im && u8 bs 0xF != c.clusters)

/-- Words of a record. -/
def wordsAt (bs : List Byte) (off n : Nat) : List W64 := (chunks 8 n (bs.drop off)).map (fun b => w64At b 0)

/-- The weights section as generations, at most 16 entries. -/
def ckptGens (im : Image) : Nat → List Byte → Tbl Gen
  | 0, _ => []
  | n + 1, bs =>
    if bs.length < 8 then []
    else
      let m := u8 bs 0
      let len := match im.findModel m with | some r => r.weightBytes | none => 0
      Tbl.set (ckptGens im n (bs.drop (8 + (len + 7) / 8 * 8))) m ⟨BitVec.ofNat 32 (u32 bs 4), (bs.drop 8).take len⟩

/-- The weights section of a record. -/
def ckptWeightsAt (bs : List Byte) : List Byte := (bs.drop (u32 bs 0x44)).take (u64 bs 0x48)

/-- The weights section is not what its own entries would be written as: another order, a reserved byte, generation 0 (R261). -/
def ckptWeightsBad (im : Image) (bs : List Byte) : Bool :=
  let gs := ckptGens im 16 (ckptWeightsAt bs)
  gs.any (fun g => g.2.gen == 0) || ckptWeights { gens := gs } != ckptWeightsAt bs

/-- The sections' sizes fit the image (R261): a record of the same content whose sections do not is malformed. -/
def ckptSizesBad (im : Image) (bs : List Byte) : Bool :=
  let w := u32 bs 0x34
  u32 bs (w + 0xC) != im.nVars || u32 bs (w + 0x10) != im.nEq || u32 bs (w + 0x14) != im.nIneq
  || u32 bs 0x40 != 8 * ((im.models.map (fun m => m.ctx * m.nIn)).foldl (· + ·) 0)
  || ckptWeightsBad im bs
  || (if im.cls < 3 then u32 bs 0x54 != 0
      else u32 bs (u32 bs 0x50) != covN im || u32 bs 0x54 != 8 + 8 * covN im + 8 * (covN im * (covN im + 1) / 2))

/-- The context section by model. -/
def ckptCtx (im : Image) (bs : List Byte) : Tbl (List (List W64)) :=
  ((im.models.filter (fun m => m.ctx != 0)).foldl (fun (a : Tbl (List (List W64)) × Nat) m =>
    (a.1.set m.model ((List.range m.ctx).map (fun j => wordsAt bs (a.2 + 8 * m.nIn * j) m.nIn)), a.2 + 8 * m.nIn * m.ctx))
    ([], u32 bs 0x3C)).1

/-- A resumed problem (R263, R264): it continues from the record. -/
def resumeWith (im : Image) (bs : List Byte) (q : Prob) : Prob :=
  let w := u32 bs 0x34
  let n := covN im
  let e := u32 bs 0x50
  let cov := if im.cls < 3 then [] else wordsAt bs (e + 8 + 8 * n) (n * (n + 1) / 2)
  let it : Iterate :=
    { primal := wordsAt bs (w + 64) im.nVars, eqMult := wordsAt bs (w + 64 + 8 * im.nVars) im.nEq,
      ineqMult := wordsAt bs (w + 64 + 8 * (im.nVars + im.nEq)) im.nIneq,
      slack := wordsAt bs (w + 64 + 8 * (im.nVars + im.nEq + im.nIneq)) im.nIneq, cov := cov }
  restartDigest (w64At bs 0x10) { q with
    nextSteep := w64At bs 0x10
    resume := { params := some (wordsAt bs (u32 bs 0x30) im.nParams), warm := some ⟨it, BitVec.ofNat 32 (u32 bs (w + 8)), w64At bs w⟩ }
    ctx := ckptCtx im bs
    gens := ckptGens im 16 (ckptWeightsAt bs), prev := []
    est := if im.cls = 3 then { q.est with zbar := wordsAt bs (e + 8) n, cov := cov } else q.est }

/-- CHECKPOINT_RESUME (R262, R263). -/
def effCkptResume (m : Cmd) (s : State) : State × Reply :=
  let bs := inRec s m
  let q := prob s (pOf m)
  let c := parseSched (argBytes m.c)
  let im := q.im.getD {}
  checked (descChecks true false m ++ [(lenOf m != u32 bs 8, stBadLength), (addrBad m m.c.addr (lenOf m), stBadAddress),
      (q.st == .empty, stNotLoaded), (q.st == .enabled, stAlreadyEnabled), (q.st == .retiring, stProblemBusy),
      (ckptFormatBad bs, stCkptFormat), (ckptMismatch q im c bs, stCkptMismatch), (ckptSizesBad im bs, stCkptFormat)] ++ schedChecks s m) s
    (let r := enableWith (pOf m) c (resumeWith im bs) s
     match r.2 with
     | some st => (r.1, .done st [])
     | none => (r.1, .held .enable true))

/-- TWIN_SET (R363, R486, R524). -/
def effTwinSet (m : Cmd) (s : State) : State × Reply :=
  let q := prob s (pOf m)
  let mode := argN m.c 0 1
  let wait := argN m.c 4 4
  let start := BitVec.ofNat 64 (argN m.c 8 8)
  let forming := mode == 1
  checked (descChecks true false m ++ [(s.faults.recovery, stFltRecovery), (q.st == .empty, stNotLoaded),
      (decide (1 < mode) || (forming && decide (wait < 1000 ∨ 50000 < wait)) || !zeroAt (argBytes m.c) 1 3 || !zeroAt (argBytes m.c) 16 16, stPlkRange),
      (forming && (!q.fixed || q.sched.requested || decide (q.sched.period = 0) || q.spans || !twinLink s), stTwinConfig),
      (forming && decide (start.toNat < q.nextSteep.toNat), stTwinTooLate)]) s
    (let w : Twin := { q.twin with state := if forming then .forming else .none, start := start, wait := wait, early := none, own := [], partner := [] }
     let s := modProb (pOf m) (fun q => let q := mergeQueued (BitVec.allOnes 64) q; { q with twin := { w with queue := [], chains := [] } }) s
     okay (match q.atBarrier with
       | some t => if forming then s else passBarrier (pOf m) (BitVec.allOnes 64) none (q.twin.state == .forming) { t with paired := false } s
       | none => s))

/-- TWIN_STATUS_READ (R371). -/
def effTwinStatus (m : Cmd) (s : State) : State × Reply :=
  let w := (prob s (pOf m)).twin
  let st := match w.state with | .none => 0 | .forming => 1 | .paired => 2 | .solo => 3
  checked (descChecks true false m ++ outChecks m 48 ++ [((prob s (pOf m)).st == .empty, stNotLoaded)]) s
    (putOut m (leBytes 1 st ++ zeros 7 ++ wBytes 8 w.pairSeq ++ wBytes 8 w.matched ++ wBytes 8 w.diverged ++ wBytes 8 w.timeouts ++ zeros 8) s)

/-- A body is the root of a tree (R125). -/
def isRoot (im : Image) (b : Nat) : Bool :=
  match im.findBody b with
  | some r => (match im.findJoint r.parentJoint with | some j => j.parent == 0xFFFF | none => false)
  | none => false

/-- Values after the header of a query's output (Table 5-8). -/
def queryCount (im : Image) (root op : Nat) (deriv : Bool) : Nat :=
  let c := im.treeCoords root
  match op with
  | 0 => 18 * (im.treeBodies root).length
  | 1 => c.2 + (if deriv then c.2 * c.1 + c.2 * c.2 else 0)
  | 2 => c.2 + (if deriv then c.2 * c.1 + c.2 * c.2 + c.2 * c.2 else 0)
  | 3 => c.2 * c.2
  | _ => c.1

/-- JDU_ARG (R140); IK_ROT_WEIGHT must be 0 with another OP, as its neighbours (log entry 135). -/
def queryBad (im : Image) (bs : List Byte) (out : Nat) : Bool :=
  let root := u16 bs 2
  let op := u8 bs 4
  let fl := u8 bs 5
  let tol := w64At bs 0x10
  let rot := w64At bs 0x18
  let damp := w64At bs 0x20
  decide (4 < op ∨ 1 < fl ∨ (fl = 1 ∧ op ≠ 1 ∧ op ≠ 2)) || !isRoot im root || !zeroAt bs 0xA 6 || !zeroAt bs 0x88 8
  || (if op = 4 then decide (u16 bs 8 < 1 ∨ 256 < u16 bs 8) || !((im.treeBodies root).any (fun b => b.body == u16 bs 6)) || !ltW 0 tol || !leW 0 rot || !ltW 0 damp
      else u16 bs 6 != 0xFFFF || u16 bs 8 != 0 || tol != 0 || rot != 0 || damp != 0 || !zeroAt bs 0x28 96)
  || decide (out < 16 + 8 * queryCount im root op (fl == 1))

/-- The output record of a query from the parameters as committed now (R139, R140). -/
def queryOutput (q : Prob) (im : Image) (bs : List Byte) : List Byte :=
  let root := u16 bs 2
  let c := im.treeCoords root
  queryRun im q.params root (u8 bs 4) (u8 bs 5 == 1) (wordsAt bs 0x90 c.1) (wordsAt bs (0x90 + 8 * c.1) c.2) (wordsAt bs (0x90 + 8 * (c.1 + c.2)) c.2)
    ⟨u16 bs 6, u16 bs 8, w64At bs 0x10, w64At bs 0x18, w64At bs 0x20, wordsAt bs 0x28 12⟩

/-- A pipeline that no resource set reserves (R138). -/
def freePipe (s : State) : Bool := (List.range 8).any (fun i => unitWorks s 1 i && !(unitsUsed s 1).contains i)

/-- JDU_QUERY (R138 to R140): the input record's size follows from its tree. A query that has begun runs on, whatever takes its pipeline later
(log entry 146). -/
def effJduQuery (m : Cmd) (s : State) : State × Reply :=
  let q := prob s (pOf m)
  let im := q.im.getD {}
  let head := getRecord s m.c.addr 0x90
  let c := im.treeCoords (u16 head 2)
  let size := 0x90 + 8 * (c.1 + 2 * c.2)
  let bs := getRecord s m.c.addr size
  checked (descChecks true true m ++ [(u16 head 0 != pOf m, stProblemMismatch),
      (addrBad m m.c.addr 0x90 || addrBad m m.c.addr2 (lenOf m), stBadAddress), (q.st == .empty, stNotLoaded),
      (addrBad m m.c.addr size, stBadAddress), (queryBad im bs (lenOf m), stJduArg), (!freePipe s, stJduBusy)]) s
    ({ s with query := some (queryOutput q im bs) }, .held .jduQuery true)

/-- The JDU's work for queries has ended: PD56 is decided on (R18, R448). -/
def endQuery (s : State) : State := if s.query.isNone then s else endWork { pipes := [0] } { s with query := none }

/-- JDU_QUERY_COMPLETE (R141, R142). -/
def doQueryDone (s : State) : State :=
  match s.query, s.mbx.running.find? (fun r => r.await == .jduQuery) with
  | some bs, some r => endQuery (endAwait .jduQuery stOk [] (putRecord r.cmd.c.addr2 bs s))
  | _, _ => s

/-- ORDER_MODE_SET, 0x030C (R249). -/
def execOrderModeSet (c : CmdIn) (s : State) : Host.Outcome State Fault Refusal := finish s (submit 0x030C effOrderMode c s)
/-- CHECKPOINT_SAVE, 0x030D (R259). -/
def execCheckpointSave (c : CmdIn) (s : State) : Host.Outcome State Fault Refusal := finish s (submit 0x030D effCkptSave c s)
/-- CHECKPOINT_WRITTEN (R259). -/
def execCheckpointWritten (p : Fin 1024) (s : State) : Host.Outcome State Fault Refusal := finish s (doCkptWritten p s)
/-- CHECKPOINT_RESUME, 0x030E (R262). -/
def execCheckpointResume (c : CmdIn) (s : State) : Host.Outcome State Fault Refusal := finish s (submit 0x030E effCkptResume c s)
/-- ORDER_STATUS_READ, 0x030F (R265). -/
def execOrderStatusRead (c : CmdIn) (s : State) : Host.Outcome State Fault Refusal := finish s (submit 0x030F effOrderStatus c s)
/-- ORDER_DIGEST_SET, 0x0310 (R264). -/
def execOrderDigestSet (c : CmdIn) (s : State) : Host.Outcome State Fault Refusal := finish s (submit 0x0310 effOrderDigest c s)
/-- TWIN_SET, 0x0523 (R363). -/
def execTwinSet (c : CmdIn) (s : State) : Host.Outcome State Fault Refusal := finish s (submit 0x0523 effTwinSet c s)
/-- TWIN_STATUS_READ, 0x0524 (R371). -/
def execTwinStatusRead (c : CmdIn) (s : State) : Host.Outcome State Fault Refusal := finish s (submit 0x0524 effTwinStatus c s)
/-- JDU_QUERY, 0x0306 (R138). -/
def execJduQuery (c : CmdIn) (s : State) : Host.Outcome State Fault Refusal := finish s (submit 0x0306 effJduQuery c s)
/-- JDU_QUERY_COMPLETE (R142). -/
def execJduQueryComplete (s : State) : Host.Outcome State Fault Refusal := finish s (doQueryDone s)

end Sys2Proof.Machine
end

