-- ==== Sys2Proof/Machine/Train.lean ====
section
/-! DEFINITION. Training jobs: TRAIN_SET, TRAIN_STOP, TRAIN_ROLLBACK, the status record, rounds, steps and validation (R231, R232,
R234 to R239, R241, R243, R246 to R248). -/
namespace Sys2Proof.Machine

/-- Read a training job record (Table 10-1) and its loss weights. -/
def parseJob (bs : List Byte) : JobCfg :=
  { adam := u8 bs 3 == 1, lag := u8 bs 4, valEvery := u8 bs 5, batch := u16 bs 6, start := u64 bs 8, span := u32 bs 0x10,
    steps := u32 bs 0x14, delay := u32 bs 0x18, target := u32 bs 0x1C, ring := u32 bs 0x20, valMax := u32 bs 0x24,
    hyper := (List.range 7).map (fun i => BitVec.ofNat 32 (u32 bs (0x28 + 4 * i))), watch := u32 bs 0x44, watchLimit := u32 bs 0x48,
    lambda := (List.range ((bs.length - 80) / 4)).map (fun i => BitVec.ofNat 32 (u32 bs (80 + 4 * i))) }

/-- One of LR, BETA1, BETA2, EPS, DECAY, GRAD_CLIP, ACCEPT_RATIO. -/
def JobCfg.h (c : JobCfg) (i : Nat) : Nat := (c.hyper.getD i 0).toNat

/-- `a < b` and `a ≤ b` in binary32. -/
def lt32 (a b : Nat) : Bool := fltF f32 a b
/-- `a ≤ b` in binary32. -/
def le32 (a b : Nat) : Bool := fleF f32 a b
/-- A finite binary32 above zero. -/
def pos32 (a : Nat) : Bool := lt32 0 a && isFinF f32 a
/-- Equal to zero in binary32. -/
def zero32 (a : Nat) : Bool := le32 0 a && le32 a 0

/-- TRAIN_RANGE of a job record (R232, Table 10-1), for the problem's image. -/
def jobBad (q : Prob) (bs : List Byte) : Bool :=
  let c := parseJob bs
  let coef (x : Nat) : Bool := le32 0 x && lt32 x one32
  let power := u16 bs 0x4C
  decide (15 < u8 bs 2 ∨ 1 < u8 bs 3 ∨ 4 < c.lag ∨ c.valEvery < 2 ∨ 64 < c.valEvery ∨ c.batch < 1 ∨ 1024 < c.batch ∨ c.span < 100
    ∨ c.steps < 1 ∨ 1000000 < c.steps ∨ c.ring < 1024 ∨ 16777216 < c.ring ∨ c.valMax < 1 ∨ 65536 < c.valMax ∨ c.watchLimit < 1
    ∨ power < 1 ∨ 720 < power ∨ u16 bs 0x4E ≠ 0)
  || !pos32 (c.h 0) || !coef (c.h 1)
  || (if c.adam then !coef (c.h 2) || !pos32 (c.h 3) else !zero32 (c.h 2) || !zero32 (c.h 3))
  || !(le32 0 (c.h 4) && isFinF f32 (c.h 4)) || !lt32 0 (c.h 5) || !(lt32 0 (c.h 6) && le32 (c.h 6) one32)
  || c.lambda.any (fun l => !(le32 0 l.toNat && isFinF f32 l.toNat))
  || q.spans
  || (match q.im.bind (fun im => (im.findModel (u8 bs 2)).map (fun m => (im.nParams, m))) with
      | none => true
      | some (n, m) => decide (n < c.target + m.nOut))

/-- LENGTH does not fit the record and the loss weights of its model (R422). -/
def jobLengthBad (q : Prob) (bs : List Byte) : Bool :=
  match q.im.bind (fun im => im.findModel (u8 bs 2)) with
  | some m => decide (bs.length ≠ 80 + 4 * m.nOut)
  | none => decide (bs.length < 80)

/-- A new job: masters at the weights in force, optimiser state zero (R236). -/
def newJob (q : Prob) (p model : Nat) (c : JobCfg) : Job :=
  let ms := match q.im.bind (fun im => (im.findModel model).map (fun m => mastersOf im m (weightsIn im q.gens m))) with
    | some l => l
    | none => []
  { problem := p, model := model, cfg := c, master := ms, m := ms.map (fun _ => 0), v := ms.map (fun _ => 0) }

/-- A job begins (R232, R246). -/
def startJob (p model : Nat) (c : JobCfg) (power : Nat) (s : State) : State :=
  let t := { s with jobs := s.jobs ++ [newJob (prob s p) p model c], trainPower := power }
  if t.trainSuspended then modJob p model (fun j => { j with state := .suspended, suspendedAt := some t.lt }) t else t

/-- A stop begins (R247): capture ends, the round is abandoned, unpromoted generations and the ring go. -/
def beginStop (p model : Nat) (s : State) : State :=
  modJob p model (fun j => { (Job.abandon j) with
    stopping := true, state := .stopped, accepted := [], ring := [], recent := [], rollbacks := [], watch := none, stepsDone := none }) s

/-- A stop has ended (R247): the job is gone, the previous generation with it. -/
def removeJob (p model : Nat) (s : State) : State :=
  modProb p (fun q => { q with prev := q.prev.del model }) { s with jobs := s.jobs.filter (fun j => !(j.problem == p && j.model == model)) }

/-- A job starts in place of any other of its problem and MODEL, which stops first (R232, R247); where its start comes too late or HBM has
no room, a free value (log entry 1), nothing changes. -/
def replaceJob (p model : Nat) (c : JobCfg) (power : Nat) (s : State) : State × Status :=
  if c.start < (prob s p).nextSteep.toNat then (s, stTrainTooLate)
  else
    let d := draw s
    if d.1.getLsbD 0 then (startJob p model c power (removeJob p model d.2), stOk) else (d.2, stTrainSpace)

/-- TRAIN_SET (R232, R486): held while a stop of the same job is in progress (R247). -/
def effTrainSet (m : Cmd) (s : State) : State × Reply :=
  let bs := inRec s m
  let q := prob s (pOf m)
  let model := u8 bs 2
  let c := parseJob bs
  let mine := jobOf s (pOf m) model
  checked (descChecks true false m ++ [(s.faults.recovery, stFltRecovery), (u16 bs 0 != pOf m, stProblemMismatch),
      (jobLengthBad q bs, stBadLength), (addrBad m m.c.addr (lenOf m), stBadAddress), (q.st == .empty, stNotLoaded),
      (q.st == .retiring, stProblemBusy), (jobBad q bs, stTrainRange), (decide (c.start < q.nextSteep.toNat), stTrainTooLate),
      (mine.isNone && decide (16 ≤ s.jobs.length), stTrainFull)]) s
    (match mine.filter Job.stopping with
     | none =>
       let r := replaceJob (pOf m) model c (u16 bs 0x4C) s
       (r.1, .done r.2 [])
     | some _ => (modJob (pOf m) model (fun j => { j with held := some (c, u16 bs 0x4C) }) s, .held (.trainSet model) true))

/-- TRAIN_STOP (R247). -/
def effTrainStop (m : Cmd) (s : State) : State × Reply :=
  let model := argN m.c 0 1
  checked (descChecks true false m ++ [((jobOf s (pOf m) model).isNone, stTrainNoJob)]) s
    (match jobOf s (pOf m) model with
     | some j => (if j.stopping then s else beginStop (pOf m) model s, .held (.trainStop model) false)
     | none => (s, .held (.trainStop model) false))

/-- TRAIN_STOP_COMPLETE (R247): the stop ends, and a held TRAIN_SET is carried out. -/
def doTrainStopped (p : Fin 1024) (model : Fin 16) (s : State) : State :=
  match jobOf s p model with
  | none => s
  | some j =>
    if j.stopping then
      let s := endAwaitP (.trainStop model) p stOk (stopResult (prob s p) j) (removeJob p model s)
      match j.held with
      | none => s
      | some (c, w) =>
        let r := replaceJob p model c w s
        endAwaitP (.trainSet model) p r.2 [] r.1
    else s

/-- TRAIN_ROLLBACK (R243): the checks in the order of its text. -/
def effRollback (m : Cmd) (s : State) : State × Reply :=
  let model := argN m.c 0 1
  let target := argN m.c 1 1
  let at' := argN m.c 8 8
  let q := prob s (pOf m)
  checked (descChecks true false m ++ [(decide (at' < q.nextSteep.toNat), stTrainTooLate), ((jobOf s (pOf m) model).isNone, stTrainNoJob),
      (decide (1 < target) || (target == 0 && (q.prev.get? model).isNone), stTrainRange)]) s
    (okay (modJob (pOf m) model (fun j => { j with rollbacks := j.rollbacks ++ [(at', target, true)] }) s))

/-- STATE codes of Table 10-2. -/
def JState.code : JState → Nat
  | .waiting => 0 | .training => 1 | .validating => 2 | .suspended => 3 | .stopped => 4

/-- The training status record (Table 10-2). -/
def jobRecord (q : Prob) (j : Job) (lt : Nat) : List Byte :=
  leBytes 1 j.state.code ++ leBytes 1 j.tflags.toNat ++ leBytes 1 j.sflags.toNat ++ zeros 5 ++ wBytes 4 (genNo q j.model)
  ++ wBytes 4 (match q.prev.get? j.model with | some g => g.gen | none => 0xFFFFFFFF#32) ++ leBytes 4 j.round
  ++ leBytes 4 ((j.accepted.map Prod.fst).foldl Nat.max 0) ++ wBytes 8 j.promotedAt
  ++ j.c64.flatMap (wBytes 8) ++ j.c32.flatMap (wBytes 4) ++ j.losses.flatMap (wBytes 4)
  ++ leBytes 4 (match j.watch with | some w => w.2 | none => 0)
  ++ leBytes 8 (j.suspendedUs + (match j.suspendedAt with | some t => (lt - t) / 1000 | none => 0)) ++ zeros 8

/-- TRAIN_STATUS_READ (R248): the read clears the sticky flags. -/
def effTrainStatus (m : Cmd) (s : State) : State × Reply :=
  let model := argN m.c 0 1
  let q := prob s (pOf m)
  checked (descChecks true false m ++ outChecks m 128 ++ [(q.st == .empty, stNotLoaded), ((jobOf s (pOf m) model).isNone, stTrainNoJob)]) s
    (match jobOf s (pOf m) model with
     | some j => putOut m (jobRecord q j s.lt) (modJob (pOf m) model (fun j => { j with tflags := 0, sflags := 0 }) s)
     | none => okay s)

/-- A sample of the ring is a validation sample (R234). -/
def isVal (j : Job) (x : TSample) : Bool := x.steep.toNat % j.cfg.valEvery == j.cfg.valEvery - 1

/-- The round is rejected: the next one starts from what it started from (R235, R239). -/
def Job.reject (j : Job) : Job :=
  { j with stepsDone := none, train := [], val := [], state := .waiting, round := j.round + 1, c32 := bumpAt j.c32 1 1
           master := j.base.1, m := j.base.2.1, v := j.base.2.2.1, t := j.base.2.2.2 }

/-- A round begins with its snapshot (R235). -/
def Job.beginRound (j : Job) : Job :=
  let below := j.ring.filter (fun x => decide (x.steep.toNat < cutoff j j.round))
  let tr := below.filter (fun x => !isVal j x)
  let va := below.filter (isVal j)
  let j := { j with stepsDone := some 0, train := tr, val := va.drop (va.length - j.cfg.valMax), base := (j.master, j.m, j.v, j.t), state := .training }
  if tr.isEmpty then j.reject else j

/-- ROUND_START (R235): steep C_r − 1 has frozen and the round before is decided. -/
def doRoundStart (p : Fin 1024) (model : Fin 16) (s : State) : State :=
  match jobOf s p model, (prob s p).final with
  | some j, some f =>
    if j.state = .waiting ∧ j.stepsDone = none ∧ cutoff j j.round ≤ f.1.toNat + 1 then modJob p model Job.beginRound s else s
  | _, _ => s

/-- A sum on the vector engine's tree (R170), of any length. -/
def vSumLong (l : List Nat) : FlM Nat := do
  let leaves ← (chunk32 0 (nChunks l.length) l).mapM (vTree .rne 6)
  vTree .rne 40 leaves

/-- A sample's pass through the model (R169, R237): `pos` is its position, `b` and `c` key words b and c. -/
def samplePass (im : Image) (p : Nat) (m : ModelRec) (w : List Byte) (pos : Nat) (b c : W64) (wantD : Bool) (x : TSample) :
    FlM (List (LayerData × Nat) × LayerData × Option (Nat × Act) × List (Act × LayerTrace)) :=
  let xs := x.x.map (fun v => BitVec.ofNat 64 (fconv f32 f64 .rne v.toNat).v)
  modelPrimal im ⟨p, b, c, 0, true, .rne, pos⟩ m w (xs.take m.nIn) (xs.drop m.nIn) wantD
/-- The outputs that a pass delivers, binary32. -/
def passOut (tr : List (Act × LayerTrace)) : List Nat := (outValues ((tr.headD default).1)).map (fun v => (toF32 v).toNat)

/-- λ × (y − target)² / (2 × n) for each output of a sample (R237). -/
def lossTerms (lambda : List W32) (n : Nat) (y : List Nat) (target : List W32) : FlM (List Nat) :=
  (y.zipIdx).mapM (fun (v, o) => do
    let d ← vSub .rne v (target.getD o 0).toNat
    let q ← vMul .rne d d
    let a ← vMul .rne (lambda.getD o 0).toNat q
    vDiv .rne a (ofIntF f32 .rne (2 * (n : Int))).v)

/-- The mean loss over samples (R237, R239) from their outputs. -/
def lossOf (lambda : List W32) (ys : List (List Nat)) (xs : List TSample) : FlM Nat := do
  let ts ← (ys.zip xs).mapM (fun (y, x) => lossTerms lambda xs.length y x.y)
  vSumLong (ts.flatMap id)

/-- The loss over a validation set (R239); `key` gives column, word b and word c of a position. -/
def meanLoss (im : Image) (p : Nat) (m : ModelRec) (w : List Byte) (lambda : List W32) (key : Nat → Nat × W64 × W64) (xs : List TSample) : FlM Nat := do
  let ys ← (xs.zipIdx).mapM (fun (x, j) => do
    let f ← samplePass im p m w (key j).1 (key j).2.1 (key j).2.2 false x
    pure (passOut f.2.2.2))
  lossOf lambda ys xs

/-- The step number of R237: counted from 1 over the job, ROUND_STEPS of them a round (R238). -/
def stepNo (j : Job) : Nat := (j.round - 1) * j.cfg.steps + (j.stepsDone.getD 0) + 1

/-- The samples of a step (R237). -/
def stepBatch (j : Job) (p : Nat) : List TSample :=
  let key : W64 := BitVec.ofNat 64 (2 ^ 63 + j.model * 1024 + p)
  let z := srMix (srMix key ^^^ BitVec.ofNat 64 (stepNo j))
  (List.range j.cfg.batch).map (fun i => j.train.getD ((srMix (z ^^^ BitVec.ofNat 64 i)).toNat % j.train.length) {})

/-- A binary32 power by repeated multiplication (R237). -/
def pow32 (b : Nat) : Nat → FlM Nat
  | 0 => pure one32
  | 1 => pure b
  | n + 1 => do
    let x ← pow32 b n
    vMul .rne x b

/-- One weight's update (R237): master, first and second moment. -/
def updateOne (c : JobCfg) (b1t b2t : Nat) (w g m v : Nat) : FlM (Nat × Nat × Nat) := do
  let a := vAdd .rne
  let mu := vMul .rne
  if c.adam then
    let m' ← (do a (← mu (c.h 1) m) (← mu (← vSub .rne one32 (c.h 1)) g))
    let v' ← (do a (← mu (c.h 2) v) (← mu (← mu (← vSub .rne one32 (c.h 2)) g) g))
    let mh ← vDiv .rne m' (← vSub .rne one32 b1t)
    let vh ← vDiv .rne v' (← vSub .rne one32 b2t)
    let rt ← vSqrt .rne vh
    let x ← vDiv .rne mh (← a rt (c.h 3))
    let w' ← vSub .rne w (← mu (c.h 0) (← a x (← mu (c.h 4) w)))
    pure (w', m', v')
  else
    let m' ← (do a (← mu (c.h 1) m) g)
    let w' ← vSub .rne w (← mu (c.h 0) (← a m' (← mu (c.h 4) w)))
    pure (w', m', v)

/-- The gradients after clipping (R237). -/
def clipGrads (c : JobCfg) (g : List Nat) : FlM (List Nat) := do
  let sq ← g.mapM (fun x => vMul .rne x x)
  let norm ← (do vSqrt .rne (← vSumLong sq))
  if lt32 (c.h 5) norm then
    let k ← vDiv .rne (c.h 5) norm
    g.mapM (fun x => vMul .rne x k)
  else pure g

/-- The optimiser's update of every master (R237). -/
def applyGrads (j : Job) (g : List Nat) : FlM Job := do
  let g ← clipGrads j.cfg g
  let b1t ← if j.cfg.adam then pow32 (j.cfg.h 1) (j.t + 1) else pure one32
  let b2t ← if j.cfg.adam then pow32 (j.cfg.h 2) (j.t + 1) else pure one32
  let l ← ((j.master.zip g).zip (j.m.zip j.v)).mapM (fun ((w, x), (m, v)) => updateOne j.cfg b1t b2t w.toNat x m.toNat v.toNat)
  let f (h : Nat × Nat × Nat → Nat) : List W32 := l.map (fun x => BitVec.ofNat 32 (h x))
  pure { j with master := f Prod.fst, m := f (fun x => x.2.1), v := f (fun x => x.2.2), t := j.t + 1 }

/-- The errors e of one sample (R237). -/
def sampleErr (c : JobCfg) (y : List Nat) (target : List W32) : FlM (List Nat) :=
  (y.zipIdx).mapM (fun (v, o) => do
    let d ← vSub .rne v (target.getD o 0).toNat
    let a ← vMul .rne (c.lambda.getD o 0).toNat d
    vDiv .rne a (ofIntF f32 .rne (c.batch : Int)).v)

/-- What one sample leaves for the gradients: its outputs, each layer's activation operand values, each layer's backward yield. -/
structure SampleGrad where
  /-- outputs -/
  y : List Nat := []
  /-- activation values that each DENSE layer read, the context's after the current inputs' -/
  acts : List (List Num) := []
  /-- backward yields, in layer order -/
  back : List LayerGrad := []
deriving DecidableEq, Repr, Inhabited

/-- Forward and backward passes of one sample of a step (R178, R237). -/
def sampleGrad (im : Image) (m : ModelRec) (w : List Byte) (j : Job) (pos : Nat) (x : TSample) : FlM SampleGrad := do
  let b := BitVec.ofNat 64 (stepNo j)
  let (dense, _, cx, tr) ← samplePass im j.problem m w pos b 0 true x
  let y := passOut tr
  let e ← sampleErr j.cfg y x.y
  let g ← cotangentPass ⟨j.problem, b, 0, 0, true, .rne, pos⟩ m 0 (backItems (im.layersOf m) dense tr).reverse e [] []
  let ins := (tr.reverse.map (fun a => a.1.exact)).take dense.length
  let ctx := match cx with | none => [] | some c => c.2.exact.drop (m.nIn % 32)
  pure ⟨y, (ins.zipIdx).map (fun (a, i) => if i = 0 then a ++ ctx else a), g.2⟩

/-- A delivered value as binary64. -/
def numWord (v : Num) : W64 := (outValues ⟨[], [], [v]⟩).headD 0

/-- One weight's gradient: the accumulator's contraction over sample positions of backward values and activation values (R193, R194, R237). A
chunk of split or block-scaled operands is a free value (log entry 55). -/
def gradSum (open' : Bool) (ds as : List Num) : FlM Nat := do
  let n := nChunks ds.length
  let cs ← if open' then
      pure ((List.range n).map (fun i => (Config.gradChunk (((ds.drop (32 * i)).take 32).map numWord) (((as.drop (32 * i)).take 32).map numWord)).toNat))
    else do
      let ps ← (ds.zip as).mapM (fun (d, a) => accMul (numToF32 a).v (numToF32 d).v)
      (chunk32 0 n ps).mapM (pairTree 6)
  pairTree 12 cs

/-- The gradients of every master, in master order (R236, R237): each DENSE layer's matrix by rows, then its biases. -/
def gradients (im : Image) (m : ModelRec) (xs : List SampleGrad) : FlM (List Nat) := do
  let ls := im.layersOf m
  let gs ← ((denseLayers im m).zipIdx).mapM (fun (l, i) => do
    let backs := xs.map (fun x => x.back.getD i default)
    let open' := decide (2 ≤ m.passes) || isMx (((ls[i]?).map LayerRec.outFmt).getD 0)
    let rows ← (List.range l.1.width).mapM (fun r =>
      (List.range l.2).mapM (fun k =>
        gradSum open' (backs.map (fun b => b.back.exact.getD r default)) (xs.map (fun x => (x.acts.getD i []).getD k default))))
    let bs ← if l.1.bOff = absentOff then pure [] else
      (List.range l.1.width).mapM (fun r => vSumLong (backs.map (fun b => b.bias.getD r 0)))
    pure (rows.flatMap id ++ bs))
  pure (gs.flatMap id)

/-- One optimiser step (R236, R237): the loss of the batch with the working weights and its gradients, then the update, or a skipped step where
a gradient is not finite. -/
def runStep (im : Image) (m : ModelRec) (base : List Byte) (j : Job) : FlM Job := do
  let w ← workingWeights im m base j.master
  let xs := stepBatch j j.problem
  let ss ← (xs.zipIdx).mapM (fun (x, i) => sampleGrad im m w j i x)
  let loss ← lossOf j.cfg.lambda (ss.map SampleGrad.y) xs
  let g ← gradients im m ss
  let j := { j with losses := j.losses.set 0 (BitVec.ofNat 32 loss), c64 := bumpAt j.c64 0 1 }
  if g.all (isFinF f32) then applyGrads j g else pure { j with c64 := bumpAt j.c64 1 1 }

/-- The flags of training work go to the job's record alone (R231). -/
def withFlags (x : FlM Job) : Job :=
  let r := x.run {}
  { r.1 with sflags := r.1.sflags ||| (r.2.sc &&& 0x1F), tflags := r.1.tflags ||| r.2.tn }

/-- TRAIN_STEP (R237): one step of the round in progress. -/
def doTrainStep (p : Fin 1024) (model : Fin 16) (s : State) : State :=
  match jobOf s p model, (prob s p).im with
  | some j, some im =>
    (match j.stepsDone, im.findModel model with
     | some n, some m =>
       if j.state = .training ∧ n < j.cfg.steps then
         modJob p model (fun j =>
           let j' := withFlags (runStep im m (im.weightsOf m) j)
           { j' with stepsDone := some (n + 1), state := if n + 1 = j.cfg.steps then .validating else .training }) s
       else s
     | _, _ => s)
  | _, _ => s

/-- The candidate's losses (R239): candidate's working weights, weights in force. -/
def validate (im : Image) (q : Prob) (m : ModelRec) (j : Job) : FlM (List Byte × Nat × Nat) := do
  let key (i : Nat) : Nat × W64 × W64 := (i % 1024, BitVec.ofNat 64 j.round, BitVec.ofNat 64 (1 + i / 1024))
  let w ← workingWeights im m (im.weightsOf m) j.master
  let a ← meanLoss im j.problem m w j.cfg.lambda key j.val
  let b ← meanLoss im j.problem m (weightsIn im q.gens m) j.cfg.lambda key j.val
  pure (w, a, b)

/-- Accept or reject the round's candidate (R239). -/
def Job.decide' (j : Job) (w : List Byte) (cand cur : Nat) : Job :=
  let j := { j with losses := [j.losses.getD 0 0, BitVec.ofNat 32 cand, BitVec.ofNat 32 cur] }
  if isFinF f32 cand && le32 cand (fmul f32 .rne (j.cfg.h 6) cur).v then
    { j with accepted := j.accepted ++ [(j.round, w)], c32 := bumpAt j.c32 0 1, round := j.round + 1, stepsDone := none, train := [], val := [],
             state := .waiting }
  else j.reject

/-- ROUND_VALIDATE (R239): an empty validation set rejects the round; an accepted generation is to be restaged (R241). -/
def doValidate (p : Fin 1024) (model : Fin 16) (s : State) : State :=
  match jobOf s p model, (prob s p).im with
  | some j, some im =>
    (match im.findModel model with
     | some m =>
       if j.state = .validating then
         if j.val.isEmpty then modJob p model Job.reject s
         else
           let r := (validate im (prob s p) m j).run {}
           let j' := Job.decide' { j with sflags := j.sflags ||| (r.2.sc.setWidth 7 &&& 0x1F), tflags := j.tflags ||| r.2.tn } r.1.1 r.1.2.1 r.1.2.2
           let s := modJob p model (fun _ => j') s
           match (prob s p).set with
           | some k => if j.accepted.length < j'.accepted.length then modSet k (fun x => { x with toStage := (x.toStage ++ x.quads).eraseDups }) s else s
           | none => s
       else s
     | none => s)
  | _, _ => s

/-- A job is suspended (R246); its round keeps its progress. -/
def Job.suspend (now : Nat) (j : Job) : Job :=
  if j.state = .stopped ∨ j.state = .suspended then j else { j with state := .suspended, suspendedAt := some now }

/-- A job resumes (R246). -/
def Job.resume (now : Nat) (j : Job) : Job :=
  if j.state = .suspended then
    { j with state := match j.stepsDone with
               | none => .waiting
               | some n => if n = j.cfg.steps then .validating else .training
             suspendedAt := none
             suspendedUs := j.suspendedUs + (match j.suspendedAt with | some t => (now - t) / 1000 | none => 0) }
  else j

/-- Training is suspended (R246). -/
def suspendTraining (s : State) : State :=
  if s.trainSuspended then s else { s with trainSuspended := true, jobs := s.jobs.map (Job.suspend s.lt) }

/-- Training resumes (R246). -/
def resumeTraining (s : State) : State :=
  if s.trainSuspended then { s with trainSuspended := false, jobs := s.jobs.map (Job.resume s.lt) } else s

/-- The conditions of R246 other than the junction, and step 1 of the governor: SLEEP, LIMP, coolant loss. -/
def trainBlocked (s : State) : Bool :=
  s.pwr.power == .sleep || s.pwr.power == .limp || s.faults.limp.isSome || s.faults.coolantLost || s.pwr.entering == some 2
  || s.pwr.gov.contains (1, 1)

/-- Training follows the hottest junction, °C, and the conditions above (R246): suspended while any of them holds. -/
def trainFollow (hot : Int) (s : State) : State :=
  let s := { s with trainHot := decide (90 ≤ hot) || (s.trainHot && decide (85 < hot)) }
  if s.trainHot || trainBlocked s then suspendTraining s else resumeTraining s

/-- TRAIN_SET, 0x0401 (R232). -/
def execTrainSet (c : CmdIn) (s : State) : Host.Outcome State Fault Refusal := finish s (submit 0x0401 effTrainSet c s)
/-- TRAIN_STOP, 0x0403 (R247). -/
def execTrainStop (c : CmdIn) (s : State) : Host.Outcome State Fault Refusal := finish s (submit 0x0403 effTrainStop c s)
/-- TRAIN_ROLLBACK, 0x0404 (R243). -/
def execTrainRollback (c : CmdIn) (s : State) : Host.Outcome State Fault Refusal := finish s (submit 0x0404 effRollback c s)
/-- TRAIN_STATUS_READ, 0x0405 (R248). -/
def execTrainStatusRead (c : CmdIn) (s : State) : Host.Outcome State Fault Refusal := finish s (submit 0x0405 effTrainStatus c s)
/-- ROUND_START (R235). -/
def execRoundStart (p : Fin 1024) (model : Fin 16) (s : State) : Host.Outcome State Fault Refusal := finish s (doRoundStart p model s)
/-- TRAIN_STEP (R237). -/
def execTrainStep (p : Fin 1024) (model : Fin 16) (s : State) : Host.Outcome State Fault Refusal := finish s (doTrainStep p model s)
/-- ROUND_VALIDATE (R239). -/
def execRoundValidate (p : Fin 1024) (model : Fin 16) (s : State) : Host.Outcome State Fault Refusal := finish s (doValidate p model s)
/-- TRAIN_STOP_COMPLETE (R247). -/
def execTrainStopComplete (p : Fin 1024) (model : Fin 16) (s : State) : Host.Outcome State Fault Refusal := finish s (doTrainStopped p model s)

end Sys2Proof.Machine
end

