-- ==== Sys2Proof/WellFormed.lean ====
section
/-! DEFINITION. Well-formed commands: operands that the block's pins and tables can carry. -/
namespace Sys2Proof

/-- Units of a kind (Table 20-2). -/
def unitCount : Nat → Nat
  | 0 => 64 | 1 => 8 | 2 => 128 | 3 => 4 | 4 => 16 | 5 => 66 | 6 => 128 | 7 => 32 | _ => 0

/-- A unit exists (Table 20-2). -/
def unitExists (kind index : Nat) : Bool := decide (index < unitCount kind)

/-- A descriptor's INDEX is a ring slot on the PCIe path (R414, Table 18-5). -/
def CmdIn.wf (c : CmdIn) : Bool :=
  match c.agent with
  | .pcie => decide (c.index.toNat < 256)
  | .mgmt => true

/-- A frame's payload is no longer than LENGTH can say (Table 15-7). -/
def FrameIn.wf (f : FrameIn) : Bool := decide (f.payload.length < 65536)

/-- Well-formedness of a command: descriptors, frames, units and words lie in their ranges. -/
def Instr.wf : Instr → Bool
  | .deviceInfo c | .nop c | .memStatusRead c | .leaseTableRead c | .leaseRevoke c | .clientReset c | .imageLoad c | .imageUnload c
  | .infuse c | .imageInfo c | .warmSourceSet c | .problemEnable c | .problemRetire c | .solveRequest c | .steepStatsRead c
  | .iterateRead c | .jduQuery c | .estimatorSet c | .measurePut c | .estimatorRead c | .trapRead c | .scalarFlagsRead c
  | .orderModeSet c | .checkpointSave c | .checkpointResume c | .orderStatusRead c | .orderDigestSet c | .placeConstrain c
  | .placeRead c | .pourRingSet c | .trainSet c | .trainStop c | .trainRollback c | .trainStatusRead c | .tensorFlagsRead c
  | .tbEnable c | .tbDisable c | .tbStep c | .tbPair c | .portSet c | .portEnable c | .portDisable c | .clientSet c | .gateSet c
  | .streamSet c | .pourStreamSet c | .plkEnable c | .plkDisable c | .peerGroupSet c | .twinSet c | .twinStatusRead c | .loopStart c
  | .loopStop c | .slotMapSet c | .profileWrite c | .profileLoad c | .profileBootSet c | .fioConfigWrite c | .fioConfigRead c
  | .fioClearLatch c | .powerStateSet c | .powerCapSet c | .powerStatusRead c | .kettleSet c | .keySlotWrite c | .imageSignRequire c
  | .firmwareStage c | .selfTest c | .unitFence c | .unitUnfence c | .faultLogRead c | .recoveryEnter c | .recoveryExit c
  | .testSessionBegin c | .testSessionEnd c => c.wf
  | .mbxFrameRead f | .mbxFrameWrite f | .mbxFrameCommand f | .bufWrite f | .bufRead f | .yspInfuse f | .yspSolve f | .yspMeasure f
  | .leaseAcquire f | .leaseRenew f | .leaseRelease f | .yspUnknownType _ f => f.wf
  | .faultDetected k i .. => unitExists k i
  | .unresolvedTestDone k i _ => unitExists k i
  | .selfTestComplete l | .bootSelfTestComplete l _ => l.all (fun u => unitExists u.1 u.2)
  | .registerReadClear _ off => decide (off.toNat % 4 = 0)
  | .registerWrite _ off _ _ => decide (off.toNat % 4 = 0)
  | .msixTableWrite off _ => decide (off.toNat % 4 = 0)
  | _ => true

end Sys2Proof
end

