-- ==== Sys2Proof/Machine/Fencing.lean ====
section
/-! DEFINITION. Units out of service: fencing by a fault, by command and by self-test, return to service (R185, R389 to R391, R474,
R478, R488, R489). -/
namespace Sys2Proof.Machine

/-- A set uses a unit of Table 20-2. -/
def usesUnit (r : RSet) (kind i : Nat) : Bool :=
  match kind with
  | 0 => r.clusters.contains i
  | 1 => r.pipes.contains i
  | 2 => r.quads.contains (i / 32)
  | 3 => r.quads.contains i
  | _ => false

/-- Mark a unit fenced and record UNIT_FENCED (R488, R489): `st` is its STATE, `why` DATA[0]. -/
def markFenced (kind i st why det : Nat) (s : State) : State :=
  event 0x100 (kind * 256 + i) [BitVec.ofNat 8 why, BitVec.ofNat 8 det]
    (modUnit kind i (fun u => { u with state := st, detector := det, fencedAt := s.lt, unresolved := false }) s)

/-- Fence a unit for a lasting fault (R474, R488). -/
def fenceLasting (kind i det : Nat) (s : State) : State :=
  markFenced kind i 1 0 det (modFaults (fun f => { f with lastingTotal := satInc f.lastingTotal })
    (modUnit kind i (fun u => { u with lastFault := s.lt }) s))

/-- Every set that uses a unit gives it up now (R390). -/
def dropUnit (kind i : Nat) (s : State) : State :=
  forAll (s.sets.filter (fun e => usesUnit e.2 kind i)) (fun e t =>
    match setUnit t kind i with
    | some u => if usesUnit (rset t e.1) kind i then fenceInSet e.1 u.1 u.2 t else t
    | none => t) s

/-- A unit of a set carries a steep in flight to its end: its fence by command has not taken effect (R478). -/
def carriesOn (r : RSet) (kind i : Nat) : Bool :=
  r.fencing.any (fun f => match f.1 with
    | 0 => decide (kind = 0 ∧ i = f.2)
    | 1 => decide (kind = 1 ∧ i = f.2)
    | 2 => decide (kind = 2 ∧ i = f.2 / 32)
    | 3 => decide (kind = 2 ∧ i = f.2)
    | _ => false)

/-- A kind of a set's units is left without a working one (R391). -/
def lacksUnits (s : State) (r : RSet) : Bool :=
  (List.range 3).any (fun k => !(r.units k).isEmpty && (r.units k).all (fun i => !unitWorks s k i && !carriesOn r k i))

/-- Steeps in flight on units of which none works end with FAULT (R119, R391). -/
def faultStranded (s : State) : State :=
  forAll s.probs (fun e t =>
    match (prob t e.1).steep with
    | some x => (match x.onSet with
        | some k => if lacksUnits t (rset t k) then finishSteep e.1 .fault false t else t
        | none => t)
    | none => t) s

/-- After a change of what hardware works: steeps without hardware end, sets go on, levels follow (R44, R391). -/
def rebalance (s : State) : State := strain (settle (faultStranded s))

/-- A lasting fault of a unit that sets use: it is fenced and given up at once (R390, R391, R474). -/
def loseUnit (kind i det : Nat) (s : State) : State := dropUnit kind i (fenceLasting kind i det s)

/-- The retry of a steep's work raises a fault in turn, in the units of `us` (R119, R474): a unit that fired in both attempts has a lasting
fault, one that fired in one attempt is counted transient, and the steep ends with FAULT. -/
def failRetry (p : Nat) (us : List (Nat × Nat × Nat)) (t : Steep) (s : State) : State :=
  let inBoth (l : List (Nat × Nat × Nat)) (u : Nat × Nat × Nat) : Bool := l.any (fun x => x.1 == u.1 && x.2.1 == u.2.1)
  let s := modProb p (fun q => { q with steep := some { t with again := false, retrying := [], retryBegun := false } }) s
  let s := forAll (t.retrying.filter (fun u => !inBoth us u) ++ us.filter (fun u => !inBoth t.retrying u)) (fun u t => countTransient u.1 u.2.1 u.2.2 t) s
  let s := forAll (us.filter (inBoth t.retrying)) (fun u t => loseUnit u.1 u.2.1 u.2.2 t) s
  rebalance (finishSteep p .fault false s)

/-- Detectors fire in the commit or the iteration of a steep (R119, R473 to R475): past its deadline or its budget there is no retry. -/
def faultInSteep (p : Nat) (us : List (Nat × Nat × Nat)) (t : Steep) (s : State) : State :=
  if t.phase ≠ .commit ∧ (t.deadline ≤ s.lt ∨ t.budget ≤ t.spent s.lt) then forAll us (fun u t => leaveUnresolved u.1 u.2.1 u.2.2 t) s
  else if t.again && t.retryBegun then failRetry p us t s
  else discardAttempt p us s

/-- Lanes of a link that are not fenced (R356). -/
def goodLanes (s : State) (l : Nat) : BitVec 4 :=
  BitVec.ofNat 4 (((List.range 4).filter (fun k => !fenced s 7 (4 * l + k))).foldl (fun a k => a + 2 ^ k) 0)

/-- Number of lanes in a mask. -/
def laneCount (m : BitVec 4) : Nat := popCount m.toNat 4

/-- Units returned to service place problems, undo doublings and lower nothing by themselves (R390, R391). -/
def unitFree (s : State) : State := rebalance (placeUnplaced s)

/-- Return a unit to service and record UNIT_UNFENCED (R478, R489). -/
def unfence (kind i : Nat) (s : State) : State :=
  unitFree (event 0x101 (kind * 256 + i) [] (modUnit kind i (fun u => { u with state := 0, fencedAt := 0 }) s))

/-- The ranges of Table 20-2. -/
def unitOk (kind i : Nat) : Bool := unitExists kind i

/-- UNIT_FENCE (R478): KIND and INDEX; a unit that some set with a steep in flight uses waits for it. -/
def effFence (m : Cmd) (s : State) : State × Reply :=
  let k := argN m.c 0 1
  let i := argN m.c 1 1
  checked (descChecks false false m ++ [(!unitOk k i || decide (4 < k ∨ (k = 4 ∧ i = 0)) || !zeroAt (argBytes m.c) 2 30, stFltRange)]) s
    (if fenced s k i then (if fencePends s (k, i) then (s, .held (.fence k i) true) else okay s)
     else
       let s := markFenced k i 2 1 (unit s k i).detector s
       let busy := s.sets.any (fun e => usesUnit e.2 k i && occupied s e.1)
       let t := rebalance { s with sets := s.sets.map (fun e => (e.1, if usesUnit e.2 k i then { e.2 with fencing := e.2.fencing ++ [(k, i)] } else e.2)) }
       if busy then (t, .held (.fence k i) true) else okay t)

/-- UNIT_UNFENCE (R478): at once after a fence by command, else only after its self-test passes. -/
def effUnfence (m : Cmd) (s : State) : State × Reply :=
  let k := argN m.c 0 1
  let i := argN m.c 1 1
  checked (descChecks false false m ++ [(!unitOk k i || !zeroAt (argBytes m.c) 2 30, stFltRange), (!fenced s k i, stFltNotFenced)]) s
    (if (unit s k i).state = 2 then okay (unfence k i s) else (s, .held .selfTest true))

/-- UNIT_FENCE, 0x0802 (R478). -/
def execUnitFence (c : CmdIn) (s : State) : Host.Outcome State Fault Refusal := finish s (submit 0x0802 effFence c s)
/-- UNIT_UNFENCE, 0x0803 (R478). -/
def execUnitUnfence (c : CmdIn) (s : State) : Host.Outcome State Fault Refusal := finish s (submit 0x0803 effUnfence c s)

end Sys2Proof.Machine
end

