-- ==== Sys2Proof/Machine/Links.lean ====
section
/-! DEFINITION. Peer links and the peer group (R355 to R359, R362). -/
namespace Sys2Proof.Machine

/-- A link. -/
def link (s : State) (l : Nat) : Link := s.links.get l

/-- R368: steeps that wait at a barrier run alone once PL0 is not UP. -/
def loseBarriers (s : State) : State :=
  if twinLink s then s
  else forAll s.probs (fun e t =>
    match (prob t e.1).atBarrier with
    | some x => settle (runAlone e.1 x t)
    | none => t) s

/-- R362: a member out of reach is a fault of the iteration of each problem that spans the group; whether the hardware left can hold its
share is a free value (log entry 1). -/
def loseMember (l : Nat) (s : State) : State :=
  if s.group.id != 0 && (s.group.links.zipIdx).any (fun x => x.1.toNat == l && decide (x.2 < s.group.n) && x.2 != s.group.rank.toNat) then
    forAll (s.probs.filter (fun e => e.2.spans && e.2.steep.isSome)) (fun e t =>
      match (prob t e.1).steep with
      | some x =>
        if x.iterating ∧ x.phase = .running then
          let d := draw t
          if d.1.getLsbD 0 then faultInSteep e.1 [] x d.2 else finishSteep e.1 .fault false d.2
        else t
      | none => t) s
  else s

/-- A link leaves UP. -/
def leaveUp (l : Nat) (s : State) : State := loseMember l (if l = 0 then loseBarriers s else s)

/-- The shut-down of a link begins (R356, R358): cause 0 commanded, 1 partner, 2 too few lanes. -/
def drainLink (cause l : Nat) (s : State) : State :=
  match (link s l).state with
  | .disabled => s
  | .draining => if cause = 1 then s else modLink l (fun k => { k with cause := cause }) s
  | .up => leaveUp l (modLink l (fun k => { k with state := .draining, cause := cause, linkChanged := true }) s)
  | .training => modLink l (fun k => { k with state := .draining, cause := cause }) s

/-- Training starts on a DISABLED link. -/
def trainLink (l : Nat) (s : State) : State :=
  modLink l (fun k => if k.state = .disabled then { k with state := .training, lanes := 0 } else k) s

/-- PLK_ENABLE (R358): held for a link that is DRAINING. -/
def effPlkEnable (m : Cmd) (s : State) : State × Reply :=
  checked (descChecks false false m ++ [(!zeroAt (argBytes m.c) 1 31, stPlkRange)]) s
    (okay (forAll (bitsOf (argN m.c 0 1) 8) (fun l t =>
      let t := modLink l (fun k => { k with wasEnabled := true }) t
      if (link t l).state = .draining then modLink l (fun k => { k with enableHeld := true }) t else trainLink l t) s))

/-- The links of a mask that are DRAINING. -/
def drainMask (s : State) (mask : Nat) : Nat :=
  ((List.range 8).filter (fun l => mask.testBit l && (link s l).state == .draining)).foldl (fun a l => a + 2 ^ l) 0

/-- PLK_DISABLE (R358): complete when every named shut-down has ended. -/
def effPlkDisable (m : Cmd) (s : State) : State × Reply :=
  let t := forAll (bitsOf (argN m.c 0 1) 8) (fun l t => modLink l (fun k => { k with wasEnabled := false }) (drainLink 0 l t)) s
  checked (descChecks false false m ++ [(!zeroAt (argBytes m.c) 1 31, stPlkRange)]) s
    (if drainMask t (argN m.c 0 1) = 0 then okay t else (t, .held (.links (BitVec.ofNat 8 (drainMask t (argN m.c 0 1)))) false))

/-- The commands that wait for links no longer wait for link `l`. -/
def linkDone (l : Nat) (s : State) : State :=
  endRuns (fun r => r.await == .links 0) stOk []
    (modMbx (fun b => { b with running := b.running.map (fun r =>
      match r.await with
      | .links mk => { r with await := .links (mk &&& ~~~((1#8) <<< l)) }
      | _ => r) }) s)

/-- PLK_SHUTDOWN_COMPLETE (R358): PLK_DOWN is recorded; a link that the partner dropped and a held enable train again. -/
def doPlkDown (l : Fin 8) (s : State) : State :=
  let q := link s l
  if q.state = .draining then
    let s := pumpVc2 l (modLink l (fun k => { k with vc2Sent := [] }) s)
    let s := event 0x21 l [BitVec.ofNat 8 q.cause] s
    let s := modLink l (fun k => { k with state := .disabled, lanes := 0, enableHeld := false, vc2Sent := [], vc2Wait := [], wasEnabled := k.wasEnabled && q.cause != 2 || q.enableHeld }) s
    linkDone l (if q.cause = 1 ∨ q.enableHeld = true then trainLink l s else s)
  else s

/-- The group record that members exchange (R359). -/
def groupRecord (g : Group) : List Byte := [g.id, g.rank] ++ leBytes 1 g.n ++ padTo 8 g.links

/-- A named link reaches a device of another group or rank (R359). -/
def groupWrong (g : Group) (l : Nat) (k : Link) : Bool :=
  g.id != 0 && k.peerGroup != 0 && (g.links.zipIdx).any (fun x => x.1.toNat == l && decide (x.2 < g.n) && x.2 != g.rank.toNat
    && (k.peerGroup != g.id || k.peerRank.toNat != x.2))

/-- The ranks whose link is named send their record (R359). -/
def sendRecord (l : Nat) (s : State) : State := if s.group.id = 0 then s else emit (.peerRecord l (groupRecord s.group)) s

/-- PLK_LINK_UP (R356, R358, R359): training ends on at least two lanes that are not fenced; group records are exchanged. -/
def doPlkUp (l : Fin 8) (lanes : BitVec 4) (g r : Byte) (s : State) : State :=
  let m := lanes &&& goodLanes s l
  if mainOn s ∧ (link s l).state = .training ∧ 2 ≤ laneCount m then
    let s := modLink l (fun k => { k with state := .up, lanes := m, linkChanged := true, peerGroup := g, peerRank := r, vc2Sent := [] }) s
    let s := if groupWrong s.group l (link s l) then { s with group := { s.group with invalid := true } } else s
    sendRecord l s
  else s

/-- PLK_LINK_LOST (R358): the partner drops a link. -/
def doPlkLost (l : Fin 8) (s : State) : State := if (link s l).state = .up then drainLink 1 l s else s

/-- A lane is fenced (R356): the link retrains on the lanes left, or is shut down when fewer than two are left. -/
def loseLane (l lane : Nat) (s : State) : State :=
  let s := fenceLasting 7 (4 * l + lane) 4 s
  match (link s l).state with
  | .up =>
    if laneCount ((link s l).lanes &&& goodLanes s l) < 2 then drainLink 2 l s
    else leaveUp l (modLink l (fun k => { k with state := .training, lanes := 0, linkChanged := true }) s)
  | _ => s

/-- FLIT_CRC_ERROR (R356): the flit is replayed once and counted; a failed replay fences the lane. -/
def doCrc (l : Fin 8) (replayFails : Bool) (lane : Fin 4) (s : State) : State :=
  if (link s l).state = .up ∨ (link s l).state = .draining then
    let s := emit (.replay l) (modLink l (fun k => { k with replays := satInc k.replays }) s)
    if replayFails && (link s l).lanes.getLsbD lane && !fenced s 7 (4 * l + lane) then loseLane l lane s else countTransient 7 (4 * l + lane) 4 s
  else s

/-- PEER_GROUP_SET (R359, R486). -/
def effGroupSet (m : Cmd) (s : State) : State × Reply :=
  let id := BitVec.ofNat 8 (argN m.c 0 1)
  let rank := argN m.c 1 1
  let n := argN m.c 2 1
  let links := (List.range 8).map (fun r => BitVec.ofNat 8 (argN m.c (8 + r) 1))
  let g : Group := { id := id, rank := BitVec.ofNat 8 rank, n := n, links := links }
  let bad := decide (8 < n ∨ n < 1 ∨ n ≤ rank) || (links.zipIdx).any (fun x => decide (x.2 < n ∧ x.2 ≠ rank ∧ 7 < x.1.toNat))
  let wrong := (List.range 8).any (fun l => (link s l).state == .up && groupWrong g l (link s l))
  checked (descChecks false false m ++ [(s.faults.recovery, stFltRecovery), (!zeroAt (argBytes m.c) 3 5 || !zeroAt (argBytes m.c) 16 16 || (id != 0 && bad), stPlkRange),
      (id == 0 && s.probs.any (fun e => e.2.spans && e.2.st == .enabled), stProblemBusy)]) s
    (if id = 0 then okay { s with group := {} }
     else
       let s := { s with group := { g with invalid := wrong } }
       let s := forAll ((List.range 8).filter (fun l => (link s l).state == .up)) sendRecord s
       (s, .done (if wrong then stGroupInvalid else stOk) []))

/-- PLK_ENABLE, 0x0520 (R358). -/
def execPlkEnable (c : CmdIn) (s : State) : Host.Outcome State Fault Refusal := finish s (submit 0x0520 effPlkEnable c s)
/-- PLK_DISABLE, 0x0521 (R358). -/
def execPlkDisable (c : CmdIn) (s : State) : Host.Outcome State Fault Refusal := finish s (submit 0x0521 effPlkDisable c s)
/-- PLK_SHUTDOWN_COMPLETE (R358). -/
def execPlkShutdownComplete (l : Fin 8) (s : State) : Host.Outcome State Fault Refusal := finish s (doPlkDown l s)
/-- PEER_GROUP_SET, 0x0522 (R359). -/
def execPeerGroupSet (c : CmdIn) (s : State) : Host.Outcome State Fault Refusal := finish s (submit 0x0522 effGroupSet c s)
/-- PLK_LINK_UP (R358). -/
def execPlkLinkUp (l : Fin 8) (lanes : BitVec 4) (g r : Byte) (s : State) : Host.Outcome State Fault Refusal := finish s (doPlkUp l lanes g r s)
/-- PLK_LINK_LOST (R358). -/
def execPlkLinkLost (l : Fin 8) (s : State) : Host.Outcome State Fault Refusal := finish s (doPlkLost l s)
/-- FLIT_CRC_ERROR (R356). -/
def execFlitCrcError (l : Fin 8) (replayFails : Bool) (lane : Fin 4) (s : State) : Host.Outcome State Fault Refusal := finish s (doCrc l replayFails lane s)

end Sys2Proof.Machine
end

