-- ==== Sys2Proof/Machine/PowerUp.lean ====
section
/-! DEFINITION. What power-downs and restarts of the main die and the edge die keep and lose, and the boot timeline (R441, R450 to R454,
R477, R500, R503 to R505, R520). -/
namespace Sys2Proof.Machine

/-- Power and boot state that a restart of the main die keeps: what the warden, the always-on logic and the nonvolatile store hold. -/
def restartPwr (w : PowerSt) : PowerSt :=
  { ({} : PowerSt) with
    power := w.power, stage := w.stage, everFull := w.everFull, since := w.since, meanMw := w.meanMw, peakMw := w.peakMw,
    voltage := w.voltage, mainTj := w.mainTj, edgeTj := w.edgeTj, coolantIn := w.coolantIn, flow := w.flow, wakeCause := w.wakeCause,
    entering := w.entering, wakeMask := w.wakeMask, timerMs := w.timerMs, heldWake := w.heldWake, sleepCount := w.sleepCount,
    waking := w.waking, bank := w.bank, fallback := w.fallback, unlocked := w.unlocked, challenge := w.challenge, invalid := w.invalid,
    lockout := w.lockout, failRecord := w.failRecord, refRecord := w.refRecord, ref25 := w.ref25, lockoutAt := w.lockoutAt, edgeIr := w.edgeIr, scan := w.scan, nv := w.nv }

/-- Fault state that it keeps: the warden's. -/
def restartFaults (f : Faults) : Faults :=
  { ({} : Faults) with
    recovery := f.recovery, recoveryCause := f.recoveryCause, mainDead := f.mainDead, lostRecord := f.lostRecord,
    flows := f.flows, inlets := f.inlets, junctions := f.junctions }

/-- The main die loses its power or is reset (R477, R500, R520): every problem, lease, port configuration not stored, fence and count
is lost, and every main-die register takes its reset word. Pours on the way to the edge die are gone; bindings stay and age (R477). -/
def mainReset (s : State) : State :=
  { ({} : State) with
    pending := s.pending, free := s.free, posts := s.posts, out := s.out, hostMem := s.hostMem
    mbx := { ({} : Mailbox) with perst := s.mbx.perst }
    links := s.links.map (fun e => (e.1, { ({} : Link) with wasEnabled := e.2.wasEnabled }))
    net := { ({} : Net) with store := s.net.store }
    faults := restartFaults s.faults
    pwr := restartPwr s.pwr
    edge := { s.edge with binds := s.edge.binds.map (fun e => (e.1, { e.2 with pours := [] })) } }

/-- The main die is off and stays so until MAIN_DIE_POWER_ON. -/
def mainOff (s : State) : State :=
  modPwr (fun w => { w with stage := if mainOn s then .profile else w.stage }) (mainReset s)

/-- The edge die without power: what its nonvolatile store holds (R500: analog outputs at 0 V, digital outputs off). -/
def edgeOff (e : Edge) : Edge := { ({} : Edge) with profiles := e.profiles, bootProfile := e.bootProfile, fioStore := e.fioStore }

/-- A challenge is presented (R459): 48 free bytes, none while the warden offers none. -/
def newChallenge (s : State) : State :=
  if s.pwr.lockout then modPwr (fun w => { w with challenge := none }) s
  else
    let d := drawN 6 s
    modPwr (fun w => { w with challenge := some d.1 }) d.2

/-- The debug port is locked (R459): at every power-up and every wake from OFF. -/
def lockDebug (s : State) : State := newChallenge (modPwr (fun w => { w with unlocked := false }) s)

/-- A cold start (R441, R500): only the nonvolatile store and what is outside the block stay. -/
def coldStart (s : State) : State :=
  lockDebug { mainReset s with
    faults := {}
    pwr := { ({} : PowerSt) with nv := s.pwr.nv, failRecord := s.pwr.failRecord, lockout := s.pwr.lockout }
    edge := edgeOff s.edge }

/-- POWER_GOOD (R441, R500, R503, R504): a cold start, or within the hold-up a restart of the main die in normal service from +40 ms. -/
def doPowerGood (refSel ref25 : Bool) (s : State) : State :=
  if s.pwr.power = .unpowered then
    let r := refSel && ref25
    let t := if s.edge.on then
        modPwr (fun w => { w with
            since := 40000000, stage := if w.stage = .down then .profile else w.stage, lockoutAt := min w.lockoutAt 40000000
            refRecord := if r = w.ref25 then w.refRecord else some (b2n r) })
          (modFaults (fun f => { f with recovery := false, recoveryCause := 0, mainDead := false }) s)
      else modPwr (fun w => { w with stage := .good, since := 0 }) (coldStart s)
    modPwr (fun w => { w with power := .idle, ref25 := r, wakeCause := 8, everFull := false }) t
  else s

/-- POWER_FAIL (R500): the input switch opens, pours stop, the main die loses power; the edge die runs on from hold-up. -/
def doPowerFail (cause : Fin 3) (s : State) : State :=
  if s.pwr.power = .unpowered then s
  else
    modPwr (fun w => { w with
        power := .unpowered, entering := none, heldWake := none, waking := none, sleepCount := none, staging := none,
        failRecord := some (cause, s.edge.on) }) (mainOff s)

/-- HOLD_UP_EXHAUSTED (R500): the edge die stops; writes to the nonvolatile store that are not complete are lost (R288). -/
def doHoldUp (s : State) : State :=
  if s.pwr.power = .unpowered ∧ s.edge.on = true then
    modEdge edgeOff (modPwr (fun w => { w with
      stage := .down, unlocked := false, failRecord := w.failRecord.map (fun x => (x.1, false))
      nv := { w.nv with pendingWrites := [] } }) s)
  else s

/-- WARDEN_VERIFIED (R452): the boot ROM starts the warden; firmware that fails leaves the device as it is. -/
def doWarden (ok : Bool) (s : State) : State :=
  if s.pwr.stage = .good ∧ ok = true then modPwr (fun w => { w with stage := .warden }) s else s

/-- MAIN_DIE_POWER_ON (R450, R308, R453, R460): LT starts, the self-test runs in Heritage mode, the bank most recently staged is to
run, the stored cap applies, and links that were enabled train (R358). It also carries out the restart of RECOVERY_EXIT (R485). -/
def doMainOn (s : State) : State :=
  if (s.pwr.stage = .profile ∨ s.faults.restart = true) ∧ s.pwr.power ≠ .unpowered ∧ s.pwr.entering = none ∧ s.faults.mainDead = false then
    let t := modPwr (fun w => { w with
      lockoutAt := if s.faults.restart then min w.lockoutAt 40000000 else w.lockoutAt
      since := if s.faults.restart then 40000000 else w.since, stage := .mainOn, power := .idle, selfTesting := true, cap := w.nv.cap.getD 720, bank := w.nv.boot, fallback := false
      wakeCause := if s.faults.restart then 0 else w.wakeCause }) (mainReset s)
    forAll (t.links.filter (fun e => e.2.wasEnabled)) (fun e t => trainLink e.1 t) t
  else s

/-- BOOT_SELF_TEST_COMPLETE (R450, R477, R478): failed units are fenced and Heritage mode is left; a failed part of the main-die row
keeps the main die off. A failed pool bank takes a spare while there is one (Table 17-4). -/
def doBootTest (failed : List (Nat × Nat)) (mainPart : Bool) (s : State) : State :=
  if s.pwr.stage = .switchOn then
    if mainPart || failed.contains (4, 0) then
      modFaults (fun f => { f with mainDead := true }) (mainOff s)
    else
      let s := modPwr (fun w => { w with stage := .tested, selfTesting := false }) s
      let s := forAll failed (fun u t => markFenced u.1 u.2 3 2 0 t) s
      { s with mem := { s.mem with spares := min 2 (failed.filter (fun u => u.1 == 5)).length } }
  else s

/-- A bank verifies under R452: its signature, and a version not below the minimum. -/
def bankOk (w : NvStore) (b : Nat) : Bool :=
  match w.banks[b]? with
  | some k => k.valid && decide (w.minVersion.toNat ≤ k.version.toNat)
  | none => false

/-- Recovery mode is entered, in force at once (R485). -/
def enterRecovery (cause : Nat) (s : State) : State :=
  event 0x107 1 [BitVec.ofNat 8 cause] (modFaults (fun f => { f with recovery := true, recoveryCause := cause, staged := false }) s)

/-- A bank fails (R453): the other bank is taken, or when both have failed the recovery package. -/
def fallBack (why : Nat) (s : State) : State :=
  let s := event 0x201 s.pwr.bank [BitVec.ofNat 8 why] s
  if s.pwr.fallback then enterRecovery 2 s
  else
    let s := modPwr (fun w => { w with bank := 1 - w.bank, fallback := true }) s
    if bankOk s.pwr.nv s.pwr.bank then s else enterRecovery 2 (event 0x201 s.pwr.bank [0#8] s)

/-- HBM_TRAINED (R375, R450); the warden then verifies the package of the bank that is to run (R452, R453). -/
def doHbmTrained (s : State) : State :=
  if s.pwr.stage = .tested then
    let s := modPwr (fun w => { w with stage := .hbm }) s
    if bankOk s.pwr.nv s.pwr.bank then s else fallBack 0 s
  else s

/-- The device starts from a wake from SLEEP. -/
def fromSleep (s : State) : Bool := match s.pwr.waking with | some (_, false) => true | _ => false

/-- READY_TIMEOUT (R453): READY has not come by +300 ms, or by +700 ms after a fallback; the recovery package has no other to follow. -/
def doReadyTimeout (s : State) : State :=
  if mainOn s ∧ ready s = false ∧ fromSleep s = false ∧ ¬(s.faults.recovery = true ∧ s.faults.recoveryCause = 2) ∧ (if s.pwr.fallback then 700000000 else 300000000) ≤ s.pwr.since then
    fallBack 1 s
  else s

/-- The number and PWR_WAKE_CAUSE bit of a wake source (R466, Table 19-10). -/
def wakeNum : WakeSource → Nat
  | .wakeIn => 0 | .timer => 1 | .fieldIo => 2

/-- A wake is over: its cause is shown and recorded (R466). -/
def woken (s : State) : State :=
  match s.pwr.waking with
  | none => s
  | some (c, off) =>
    event 0x204 (wakeNum c) [BitVec.ofNat 8 (b2n off)]
      (modPwr (fun w => { w with waking := none, wakeCause := BitVec.ofNat 4 (2 ^ wakeNum c) }) s)

/-- Records that waited for the log, copied before READY in ascending code (R437): boot profile, main-die loss, power fail, reference clock. -/
def copyRecords (s : State) : State :=
  let s := match s.edge.bootRecord with
    | some (i, o) => event 0x001 i [BitVec.ofNat 8 o] (modEdge (fun e => { e with bootRecord := none }) s)
    | none => s
  let s := match s.faults.lostRecord with
    | some (a, d) => event 0x106 a.toNat [d] (modFaults (fun f => { f with lostRecord := none }) s)
    | none => s
  let s := match s.pwr.failRecord with
    | some (c, e) => event 0x208 c [BitVec.ofNat 8 (b2n e)] (modPwr (fun w => { w with failRecord := none }) s)
    | none => s
  match s.pwr.refRecord with
  | some r => event 0x209 r [] (modPwr (fun w => { w with refRecord := none }) s)
  | none => s

/-- The security version of the bank that runs. -/
def bankVersion (s : State) : W32 := ((s.pwr.nv.banks[s.pwr.bank]?).getD {}).version

/-- RANKOAZ_READY (R410, R450, R470, R477, R485): READY is set, the records that waited are copied, the start is recorded. -/
def doReady (s : State) : State :=
  if s.pwr.stage = .hbm ∧ fromSleep s = false then
    let s := copyRecords (modPwr (fun w => { w with stage := .ready }) s)
    let s := if s.faults.recovery ∧ s.faults.recoveryCause = 1 then event 0x107 1 [1#8] s else s
    let s := if s.faults.recovery ∧ s.faults.recoveryCause = 2 then s
      else event 0x200 s.pwr.bank (wBytes 4 (bankVersion s) ++ [BitVec.ofNat 8 (b2n s.pwr.fallback)]) s
    woken s
  else s

/-- FULL_SERVICE (R450, R452): at +1 s; in recovery mode whenever Rankoaz sets it. -/
def doFull (s : State) : State :=
  if s.pwr.stage = .ready ∧ (1000000000 ≤ s.pwr.since ∨ s.faults.recovery = true) then
    modPwr (fun w => { w with
      stage := .full, everFull := true
      nv := if s.faults.recovery ∧ s.faults.recoveryCause = 2 then w.nv
            else { w.nv with minVersion := if w.nv.minVersion.toNat < (bankVersion s).toNat then bankVersion s else w.nv.minVersion } }) s
  else s

/-- REF25_LOST (R504, R505). -/
def doRefLost (s : State) : State :=
  if s.pwr.ref25 then
    let s := modPwr (fun w => { w with ref25 := false }) s
    if mainOn s then event 0x209 0 [] s else modPwr (fun w => { w with refRecord := some 0 }) s
  else s

/-- LIMP_N is driven low (R498): in LIMP, from a main-die loss to READY, and while a failed boot self-test keeps the main die off. -/
def limpN (s : State) : Bool :=
  s.pwr.power == .limp || (s.faults.mainDead && s.pwr.power != .off) || (s.faults.recovery && s.faults.recoveryCause == 1 && !ready s)

/-- POWER_GOOD (R441). -/
def execPowerGood (refSel ref25 : Bool) (s : State) : Host.Outcome State Fault Refusal := finish s (doPowerGood refSel ref25 s)
/-- POWER_FAIL (R500). -/
def execPowerFail (cause : Fin 3) (s : State) : Host.Outcome State Fault Refusal := finish s (doPowerFail cause s)
/-- HOLD_UP_EXHAUSTED (R500). -/
def execHoldUpExhausted (s : State) : Host.Outcome State Fault Refusal := finish s (doHoldUp s)
/-- WARDEN_VERIFIED (R452). -/
def execWardenVerified (ok : Bool) (s : State) : Host.Outcome State Fault Refusal := finish s (doWarden ok s)
/-- MAIN_DIE_POWER_ON (R450). -/
def execMainDiePowerOn (s : State) : Host.Outcome State Fault Refusal := finish s (doMainOn s)
/-- BOOT_SELF_TEST_COMPLETE (R450). -/
def execBootSelfTestComplete (failed : List (Nat × Nat)) (mainPart : Bool) (s : State) : Host.Outcome State Fault Refusal :=
  finish s (doBootTest failed mainPart s)
/-- HBM_TRAINED (R375). -/
def execHbmTrained (s : State) : Host.Outcome State Fault Refusal := finish s (doHbmTrained s)
/-- RANKOAZ_READY (R410). -/
def execRankoazReady (s : State) : Host.Outcome State Fault Refusal := finish s (doReady s)
/-- READY_TIMEOUT (R453). -/
def execReadyTimeout (s : State) : Host.Outcome State Fault Refusal := finish s (doReadyTimeout s)
/-- FULL_SERVICE (R450). -/
def execFullService (s : State) : Host.Outcome State Fault Refusal := finish s (doFull s)
/-- REF25_LOST (R504). -/
def execRef25Lost (s : State) : Host.Outcome State Fault Refusal := finish s (doRefLost s)

end Sys2Proof.Machine
end

