-- ==== Sys2Proof/Machine/Power.lean ====
section
/-! DEFINITION. Power commands, keys and firmware, the governor, sleep and wake, the debug port, writes to the nonvolatile store (R441 to
R449, R455 to R470, R507 to R509). -/
namespace Sys2Proof.Machine

/-- The effective limit, mW: the lower of the cap, 35 W in LIMP instead, and the thermal limit (R460, R461, R463, R481). -/
def limitMw (s : State) : Nat :=
  let c := if s.faults.limp.isSome then 35000 else s.pwr.cap * 1000
  match s.pwr.thermal with
  | some t => min c t
  | none => c

/-- The highest governor step in force, 0 for none. -/
def govStep (s : State) : Nat := (s.pwr.gov.map Prod.fst).foldl Nat.max 0

/-- STATE of PWR_STATUS (Table 19-10). -/
def Power.code : Power → Nat
  | .run => 0 | .idle | .unpowered => 1 | .sleep => 2 | .limp => 3 | .off => 4

/-- The code of a domain's state (Table 19-7). -/
def PdState.code : PdState → Nat
  | .off => 0 | .kettle => 1 | .on => 2 | .goingOff => 3

/-- A domain's state code (Tables 19-2 and 19-7). -/
def pdCode (s : State) (d : Nat) : Nat := (pdState s d).code

/-- The state codes of 16 domains in a word (Table 19-10). -/
def pdWord (s : State) (w : Nat) : Nat := ((List.range 16).map (fun n => pdCode s (16 * w + n) * 4 ^ n)).foldl (· + ·) 0

/-- Signed 16-bit field. -/
def i16 (x : Int) : List Byte := wBytes 2 (BitVec.ofInt 16 x)

/-- POWER_STATUS_READ's record (Table 19-7). -/
def powerRecord (s : State) : List Byte :=
  leBytes 8 s.lt ++ leBytes 4 s.pwr.meanMw ++ leBytes 4 s.pwr.peakMw ++ leBytes 2 s.pwr.voltage ++ leBytes 2 s.pwr.cap
  ++ leBytes 2 (limitMw s / 1000) ++ leBytes 1 (govStep s) ++ leBytes 1 s.pwr.power.code ++ i16 s.pwr.mainTj ++ i16 s.pwr.edgeTj
  ++ i16 s.pwr.coolantIn ++ leBytes 2 s.pwr.flow ++ (List.range 4).flatMap (fun w => leBytes 4 (pdWord s w))
  ++ (List.range 4).flatMap (fun q => leBytes 1 (s.pwr.quadClk.getD q 1800 / 100)) ++ leBytes 2 s.pwr.hostClk ++ zeros 2
  ++ wBytes 4 s.pwr.heldWakes ++ wBytes 4 s.pwr.coldWakes

/-- POWER_STATUS_READ (R468): PEAK_MW is cleared. -/
def effPowerStatus (m : Cmd) (s : State) : State × Reply :=
  checked (descChecks false false m ++ outChecks m 64) s
    (putOut m (powerRecord s) (modPwr (fun w => { w with peakMw := 0 }) s))

/-- POWER_CAP_SET (R460): in force on completion; with STORE written to the nonvolatile store as well. -/
def effPowerCap (m : Cmd) (s : State) : State × Reply :=
  let c := argN m.c 0 2
  let f := argN m.c 2 1
  checked (descChecks false false m ++ [(decide (c < 60 ∨ 720 < c ∨ 1 < f), stPwrRange)]) s
    (let t := modPwr (fun w => { w with cap := c }) s
     okay (if f = 1 then storeLater 4 0 (leBytes 2 c) t else t))

/-- A port is shut down for SLEEP or OFF; it restarts at a wake from SLEEP when it was in use (R464, R467). -/
def restPort (p : Nat) (s : State) : State :=
  let q := port s p
  let use := q.state == .training || q.state == .up || (q.state == .downing && (q.byPartner || q.enableHeld || q.restart.isSome))
  shutPort false p (modPort p (fun q => { q with
    resume := use, byPartner := false, enableHeld := false, cfg := q.restart.getD q.cfg, restart := none }) s)

/-- A link is shut down for SLEEP or OFF. -/
def restLink (l : Nat) (s : State) : State := drainLink 0 l (modLink l (fun k => { k with enableHeld := false, cause := 0 }) s)

/-- Entry to SLEEP or OFF begins: every port and peer link is shut down (R442, R464). -/
def beginRest (target mask ms : Nat) (s : State) : State :=
  let s := modPwr (fun w => { w with entering := some target, wakeMask := BitVec.ofNat 3 mask, timerMs := ms, heldWake := none }) s
  forAll (List.range 8) restLink (forAll (List.range 16) restPort s)

/-- A firmware stage is in progress. -/
def staging (s : State) : Bool := s.mbx.running.any (fun r => r.await == .firmware)

/-- POWER_STATE_SET (R442). -/
def effPowerState (m : Cmd) (s : State) : State × Reply :=
  let target := argN m.c 0 1
  let mask := argN m.c 1 1
  let ms := argN m.c 4 4
  checked (descChecks false false m
      ++ [(decide ((target ≠ 2 ∧ target ≠ 4) ∨ 7 < mask) || (mask.testBit 1 == decide (ms = 0)), stPwrRange),
          (s.probs.any (fun e => e.2.st == .enabled || e.2.st == .retiring || e.2.ckpt.isSome) || staging s || s.faults.limp.isSome
            || s.pwr.power == .limp || s.faults.recovery || s.faults.testSession || s.pwr.entering.isSome, stPwrBusy)]) s
    (okay (beginRest target mask ms s))

/-- Keys and the signing setting are locked (R455, R456). -/
def keysLocked (s : State) : Bool := s.pwr.nv.sign == 2 && !s.pwr.unlocked

/-- KEY_SLOT_WRITE (R455): stored within 50 ms. -/
def effKeySlot (m : Cmd) (s : State) : State × Reply :=
  let slot := argN m.c 0 1
  let op := argN m.c 1 1
  let bs := inRec s m
  checked (descChecks false false m ++ (if op = 0 then inChecks m none 96 else [])
      ++ [(decide (7 < slot ∨ 1 < op) || (op == 0 && !ecOn (beAt bs 0 48) (beAt bs 48 48)), stPwrRange), (keysLocked s, stKeyLocked)]) s
    (okay (event 0x206 slot [BitVec.ofNat 8 s.pwr.nv.sign] (storeLater 3 slot (if op = 0 then bs else []) s)))

/-- IMAGE_SIGN_REQUIRE (R456): it applies to every IMAGE_LOAD accepted after it completes. -/
def effSignRequire (m : Cmd) (s : State) : State × Reply :=
  let mode := argN m.c 0 1
  checked (descChecks false false m ++ [(decide (2 < mode), stPwrRange), (keysLocked s, stKeyLocked)]) s
    (okay (event 0x206 0xFF [BitVec.ofNat 8 mode] (modPwr (fun w => { w with nv := { w.nv with sign := mode } }) s)))

/-- FIRMWARE_STAGE (R457): the package is read and verified; FIRMWARE_STAGE_COMPLETE ends it. -/
def effFirmware (m : Cmd) (s : State) : State × Reply :=
  checked (descChecks false false m ++ [(addrBad m m.c.addr (lenOf m), stBadAddress), (decide (32 * 2 ^ 20 < lenOf m), stPwrRange), (staging s, stFwBusy)]) s
    (modPwr (fun w => { w with staging := some (1 - w.bank, inRec s m) }) s, .held .firmware false)

/-- FIRMWARE_STAGE_COMPLETE (R452, R457): whether the signature verifies and which security version the package carries are free, its
layout not being in the spec (log entry 1). -/
def doFirmwareDone (s : State) : State :=
  match s.pwr.staging with
  | none => s
  | some (b, bs) =>
    let d := drawN 2 s
    let ver : W32 := (d.1.getD 1 0).setWidth 32
    let s := modPwr (fun w => { w with staging := none }) d.2
    if (d.1.getD 0 0).getLsbD 0 then endAwait .firmware stFwAuth [] s
    else if ver.toNat < s.pwr.nv.minVersion.toNat then endAwait .firmware stFwRollback [] s
    else
      let s := modPwr (fun w => { w with nv := { w.nv with banks := w.nv.banks.set b { valid := true, version := ver, bytes := bs }, boot := b } }) s
      endAwait .firmware stOk [] (event 0x207 b (wBytes 4 ver) (modFaults (fun f => { f with staged := f.recovery || f.staged }) s))

/-- A mask of the quadrants that a test picks. -/
def quadMask (f : Nat → Bool) : Nat := ((List.range 4).filter f).foldl (fun a q => a + 2 ^ q) 0

/-- The governor's next step (Table 19-6), none when every step is at its floor. -/
def nextStep (s : State) : Option (Nat × Nat) :=
  let w := s.pwr
  let free := quadMask (fun q => decide (900 < w.quadClk.getD q 1800) && !(unitsUsed s 2).contains q)
  let all := quadMask (fun q => decide (900 < w.quadClk.getD q 1800)) + 16 * b2n (decide (900 < w.vecClk))
  if !w.gov.contains (1, 0) then some (1, 0)
  else if !w.gov.contains (1, 1) then some (1, 1)
  else if 1000 < w.hostClk then some (2, 0)
  else if free ≠ 0 then some (3, free)
  else if all ≠ 0 then some (4, all)
  else if w.g < 32 then some (5, 0) else none

/-- Move the clocks and G by one action, down or up. -/
def moveClocks (a : Nat × Nat) (up : Bool) (w : PowerSt) : PowerSt :=
  let by' (d x : Nat) : Nat := if up then x + d else x - d
  match a.1 with
  | 2 => { w with hostClk := by' 250 w.hostClk }
  | 3 => { w with quadClk := w.quadClk.mapIdx (fun q c => if a.2.testBit q then by' 100 c else c) }
  | 4 => { w with quadClk := w.quadClk.mapIdx (fun q c => if a.2.testBit q then by' 100 c else c)
                  vecClk := if a.2.testBit 4 then by' 100 w.vecClk else w.vecClk }
  | 5 => { w with g := if up then w.g - 1 else w.g + 1 }
  | _ => w

/-- The hottest junction of the last measurements, °C (R246). -/
def hottest (s : State) : Int := max s.pwr.mainTj s.pwr.edgeTj / 16

/-- What follows an action: training, levels, and the event when the highest step changes (R246, R462, R470). -/
def govDone (before : Nat) (s : State) : State :=
  let s := strain (trainFollow (hottest s) s)
  if govStep s = before then s else event 0x202 (govStep s) (leBytes 2 (limitMw s / 1000) ++ leBytes 4 s.pwr.meanMw) s

/-- GOVERNOR_STEP (R461): a new 1 ms mean; above the limit the next step applies, one in 100 µs; below 95 % of it the most recent is
undone, one in 1 ms. -/
def doGovernor (mean mv : Nat) (s : State) : State :=
  let s := modPwr (fun w => { w with meanMw := mean, peakMw := max w.peakMw mean, voltage := mv / 10 }) s
  if !mainOn s then s
  else if limitMw s < mean then
    match nextStep s with
    | some a =>
      if rateOk s.pwr.govAt s.lt 100000 then
        govDone (govStep s) (modPwr (fun w => moveClocks a false { w with gov := a :: w.gov, govAt := some s.lt }) s)
      else s
    | none => s
  else if 100 * mean < 95 * limitMw s then
    match s.pwr.gov with
    | a :: rest =>
      if rateOk s.pwr.govAt s.lt 1000000 then
        govDone (govStep s) (modPwr (fun w => moveClocks a true { w with gov := rest, govAt := some s.lt }) s)
      else s
    | [] => s
  else s

/-- THERMAL_LIMIT_STEP (R246, R463): by 5 % of CAP, down every 1 ms at or above 95 °C, up every 10 ms at or below 92 °C; training
follows the junction. -/
def doThermal (j : Int) (s : State) : State :=
  let s := modPwr (fun w => { w with mainTj := 16 * j }) s
  let part := s.pwr.cap * 50
  let now := s.pwr.thermal.getD (s.pwr.cap * 1000)
  if !mainOn s then s
  else trainFollow (hottest s) (
    if 95 ≤ j ∧ rateOk s.pwr.thermalAt s.lt 1000000 = true then
      let t := modPwr (fun w => { w with thermal := some (now - part), throttling := true, thermalAt := some s.lt }) s
      if s.pwr.throttling then t else event 0x203 1 (i16 (16 * j)) t
    else if j ≤ 92 ∧ s.pwr.throttling = true ∧ rateOk s.pwr.thermalAt s.lt 10000000 = true then
      if s.pwr.cap * 1000 ≤ now + part then
        event 0x203 0 (i16 (16 * j)) (modPwr (fun w => { w with thermal := none, throttling := false, thermalAt := some s.lt }) s)
      else modPwr (fun w => { w with thermal := some (now + part), thermalAt := some s.lt }) s
    else s)

/-- DOMAIN_WAKE_COMPLETE (R445, R446): work that waited for the domain is dispatched. -/
def doDomainWake (d : Fin 64) (s : State) : State := if mainOn s ∧ (pd s d).waking = true then dispatchAll (wakeDone d s) else s

/-- A wake source is enabled (R442, R466). -/
def wakeEnabled (s : State) (c : WakeSource) : Bool := s.pwr.wakeMask.getLsbD (wakeNum c)

/-- A time base across a sleep of `ns` (R309, R467): one that follows a master is in HOLDOVER. -/
def sleepTb (ns : Nat) (b : TBase) : TBase :=
  if b.running then
    { b with
      value := (((b.value : Int) + ns * (2 ^ 40 + b.rate)) % 2 ^ 104).toNat
      state := if b.source != 0 && b.state != .disabling then .holdover else b.state
      offset := 0, steps := 0, switches := 0, stepped := false, switched := false, switchBlocked := false }
  else { b with offset := 0, steps := 0, switches := 0, stepped := false, switched := false, switchBlocked := false }

/-- A port across a sleep: its configuration stays, its registers take their reset word (R467, R520). -/
def sleepPort (q : Port) : Port := { cfg := q.cfg, resume := q.resume, gate := q.gate, gateNext := q.gateNext }

/-- Entry to SLEEP is complete: LOADED problems stay, open groups and sample stores do not, main-die registers will read their
reset word (R464, R467, R520). -/
def sleepMain (s : State) : State :=
  let prob (q : Prob) : Prob := { q with
    groups := [], groupsDiscarded := satPlus q.groupsDiscarded q.groups.length, est := { q.est with samples := [] }, staged := []
    prewarm := false }
  { suspendTraining s with
    mbx := { ({} : Mailbox) with perst := s.mbx.perst, shedStart := s.lt }
    irq := {}, log := {}, rings := [], arbs := [], mem := { spares := s.mem.spares }, query := none, sets := []
    probs := s.probs.map (fun e => (e.1, prob e.2))
    time := { tbs := s.time.tbs, ports := s.time.ports }
    net := { s.net with
      ports := s.net.ports.map (fun e => (e.1, sleepPort e.2)), fdb := s.net.fdb.filter (fun x => x.static)
      yspDropped := 0, notReadySent := 0, notReadySupp := 0, statusSupp := 0, qciDropped := 0, cbDiscarded := 0, notReadyAt := [] }
    links := s.links.map (fun e => (e.1, { ({} : Link) with wasEnabled := e.2.wasEnabled }))
    faults := { s.faults with
      units := s.faults.units.map (fun e => (e.1, { e.2 with transients := 0, lastFault := 0, unresolved := false }))
      transientTotal := 0, lastingTotal := 0, unresolvedTotal := 0, limpPorts := 0, limpEnable := false, limpMin := 0xFF, limpSeen := false }
    pwr := { restartPwr s.pwr with
      power := .sleep, stage := .down, entering := none, sleepCount := some (s.lt, s.pwr.since), kettle := s.pwr.kettle } }

/-- A wake from SLEEP begins (R308, R309, R467). -/
def wakeSleep (c : WakeSource) (s : State) : State :=
  let t0 := s.pwr.sleepCount.getD (s.lt, s.pwr.since)
  let ns := 40 * ((s.pwr.since - t0.2) / 40)
  let s := { s with
    lt := (t0.1 + ns) % 2 ^ 64
    time := { s.time with tbs := s.time.tbs.map (fun e => (e.1, sleepTb ns e.2)) }
    pwr := { s.pwr with power := .idle, stage := .hbm, waking := some (c, false), sleepCount := none, cap := s.pwr.nv.cap.getD 720 } }
  let s := forAll (s.net.ports.filter (fun e => e.2.resume)) (fun e t => startPort e.1 (modPort e.1 (fun q => { q with resume := false }) t)) s
  forAll (s.links.filter (fun e => e.2.wasEnabled)) (fun e t => trainLink e.1 t) s

/-- A wake from OFF begins: the boot timeline from the warden's row (Table 19-4, R459). -/
def wakeOff (c : WakeSource) (s : State) : State :=
  lockDebug (modPwr (fun w => { w with power := .idle, stage := .warden, since := 0, lockoutAt := 0, everFull := false, waking := some (c, true), sleepCount := none }) s)

/-- A wake event acts (R466). -/
def wakeNow (c : WakeSource) (s : State) : State :=
  match s.pwr.power with
  | .sleep => wakeSleep c s
  | .off => wakeOff c s
  | _ => s

/-- A wake event held during the entry acts (R466). -/
def wakeHeld (s : State) : State :=
  match s.pwr.heldWake with
  | some c => wakeNow c (modPwr (fun w => { w with heldWake := none }) s)
  | none => s

/-- Ports and links have ended their shut-downs (R464). -/
def restDone (s : State) : Bool := s.net.ports.all (fun e => e.2.state == .disabled) && s.links.all (fun e => e.2.state == .disabled)

/-- Every running loop is to stop (R465, R291). -/
def stopLoops (e : Edge) : Edge :=
  (List.range 32).foldl (fun e n => askStop n e) e

/-- SLEEP_ENTRY_COMPLETE (R464 to R466): into OFF the main die goes first, then the loops stop, and PD58 goes last. -/
def doRestDone (s : State) : State :=
  match s.pwr.entering with
  | some 2 => if mainOn s && restDone s then wakeHeld (sleepMain s) else s
  | some 4 =>
    let s := if mainOn s && restDone s then modEdge stopLoops (mainOff s) else s
    if !mainOn s && (List.range 32).all (fun n => (loopN s.edge n).state == .stopped) then
      wakeHeld (modEdge edgeOff (modPwr (fun w => { w with
        power := .off, stage := .down, entering := none, sleepCount := some (0, w.since), unlocked := false }) s))
    else s
  | _ => s

/-- WAKE_EVENT (R466): only a source that is enabled; TIMER once TIMER_MS has passed since the entry; no field condition becomes live in
OFF; held during an entry. -/
def doWakeEvent (c : WakeSource) (s : State) : State :=
  let due := match c, s.pwr.sleepCount with
    | .timer, some (_, t) => decide (s.pwr.timerMs * 1000000 ≤ s.pwr.since - t)
    | .timer, none => false
    | .fieldIo, _ => s.pwr.power != .off
    | _, _ => true
  if !(wakeEnabled s c && due) then s
  else if s.pwr.entering.isSome then modPwr (fun w => { w with heldWake := match w.heldWake with | some x => some x | none => some c }) s
  else wakeNow c s

/-- WAKE_COMPLETE (R467): READY and FULL_SERVICE after a wake from SLEEP; training follows the junction again (R246). -/
def doWakeDone (s : State) : State :=
  if s.pwr.stage = .hbm ∧ fromSleep s = true then
    trainFollow (hottest s) (woken (copyRecords (modPwr (fun w => { w with stage := .full, everFull := true }) s)))
  else s

/-- DEBUG_RESPONSE (R459): a challenge is valid for one response. -/
def doDebugResponse (valid : Bool) (s : State) : State :=
  if s.pwr.challenge.isNone || s.pwr.power == .unpowered then s
  else
    let s := modPwr (fun w => { w with challenge := none }) s
    if valid then edgeEvent 0x205 0 [] (modPwr (fun w => { w with unlocked := true, invalid := 0 }) s)
    else
      let s := edgeEvent 0x205 2 [] (modPwr (fun w => { w with invalid := w.invalid + 1 }) s)
      newChallenge (modPwr (fun w => { w with lockout := decide (3 ≤ w.invalid), lockoutAt := w.since }) s)

/-- DEBUG_LOCKOUT_EXPIRY (R459): after 60 s, counted by the always-on logic; a restart of that count begins them again (log entry 140). -/
def doLockoutEnd (s : State) : State :=
  if s.pwr.lockout && decide (s.pwr.lockoutAt + 60000000000 ≤ s.pwr.since) then newChallenge (modPwr (fun w => { w with lockout := false, invalid := 0 }) s) else s

/-- R509: the edge-die TAP refuses the instructions that drive the contacts. -/
def tapRefuses (e : Edge) (ir : JtagIr) : Bool :=
  (ir == .extest || ir == .clamp || ir == .highz)
  && ((List.range 32).any (fun n => (loopN e n).state == .running) || (List.range 8).any (fun i => loopDriven e 1 i || loopDriven e 2 i))

/-- The contacts that the boundary-scan register covers (R508): the control contacts of Table 21-4 but for REF25, a reference-clock contact,
PERST_N, PIN0A to PIN7B and DOUT0 to DOUT7. -/
inductive Contact where
  | tck | tms | tdi | tdo | trstN | vjtag | wakeInN | limpN | presentN | refSel | perstN
  | pin (i : Nat) (b : Bool)
  | dout (i : Nat)
deriving DecidableEq, Repr, Inhabited

/-- The cells of the boundary-scan register, from TDO (R508; their order is log entry 139's). -/
def scanCells : List Contact :=
  [.tck, .tms, .tdi, .tdo, .trstN, .vjtag, .wakeInN, .limpN, .presentN, .refSel, .perstN]
  ++ (List.range 8).flatMap (fun i => [.pin i false, .pin i true]) ++ (List.range 8).map .dout

/-- The level of a contact, where the state holds it: a probe's contacts, WAKE_IN_N, REF_SEL, a released LIMP_N and a switching PWM output
are the outside's. -/
def contactLevel (s : State) : Contact → Option Bool
  | .trstN => some true
  | .vjtag => some true
  | .presentN => some false
  | .limpN => if limpN s then some false else none
  | .perstN => some (!s.mbx.perst)
  | .pin i b => some (if b then (s.edge.pins.get i).b else (s.edge.pins.get i).a)
  | .dout i => if (s.edge.douts.get i).pwm then none else some (decide (0 < doutDrives s.edge i))
  | .tck | .tms | .tdi | .tdo | .wakeInN | .refSel => none

/-- What an output contact carries (R508, R509): its cell under EXTEST and CLAMP, high impedance (none) under HIGHZ, else what the device
drives. -/
def contactOut (s : State) (c : Contact) : Option Bool :=
  match s.pwr.edgeIr with
  | .extest | .clamp => ((scanCells.zip s.pwr.scan).find? (fun x => x.1 == c)).map Prod.snd
  | .highz => none
  | .bypass | .sample | .idcode | .relock => contactLevel s c

/-- The capture of the boundary-scan register; a level that the state does not hold is a free value. -/
def captureScan (s : State) : List Bool × State :=
  let d := draw s
  (scanCells.zipIdx.map (fun x => (contactLevel s x.1).getD (d.1.getLsbD x.2)), d.2)

/-- A 32-bit IDCODE, least significant bit first (R507). -/
def idBits (w : W32) : List Bool := (List.range 32).map (fun i => w.getLsbD i)

/-- Bits shifted through the data register that a TAP's instruction selects (R507): what it captured leaves first, what came in stays. -/
def shiftDr (edge : Bool) (tdi : List Bool) (s : State) : State :=
  if tdi.isEmpty then s
  else
    let go (cap : List Bool) (s : State) : State := emit (.scan edge ((cap ++ tdi).take tdi.length)) s
    match (if edge then s.pwr.edgeIr else s.pwr.mainIr) with
    | .bypass | .clamp | .highz => go [false] s
    | .idcode => go (idBits (if edge then 0x164814B3 else 0x164804B3)) s
    | .sample | .extest =>
      if edge then
        let c := captureScan s
        modPwr (fun w => { w with scan := (c.1 ++ tdi).drop tdi.length }) (go c.1 c.2)
      else go [] s
    | .relock => go [] s

/-- What a TAP loads, with the two bits its instruction register captures (R459, R507, R509). -/
def loadIr (edge : Bool) (ir : JtagIr) (s : State) : State :=
  if edge then
    if tapRefuses s.edge ir then emit (.debug 2) (modPwr (fun w => { w with edgeIr := .bypass }) s)
    else if ir = .relock ∧ s.pwr.unlocked = false then emit (.debug 1) (modPwr (fun w => { w with edgeIr := .bypass }) s)
    else
      let s := emit (.debug 1) (modPwr (fun w => { w with edgeIr := ir }) s)
      if ir = .relock then edgeEvent 0x205 1 [] (lockDebug s) else s
  else if mainOn s then emit (.debug 1) (modPwr (fun w => { w with mainIr := if ir = .relock then .bypass else ir }) s)
  else s

/-- JTAG_INSTRUCTION (R507 to R509): an instruction is loaded, then bits are shifted through the data register it selects. The edge die's TAP
holds the boundary-scan register; a TAP without power shifts nothing. -/
def doJtag (edge : Bool) (x : JtagIn) (s : State) : State :=
  let s := loadIr edge x.ir s
  if (if edge then s.pwr.power != .unpowered || s.edge.on else mainOn s) then shiftDr edge x.tdi s else s

/-- A stored item replaces the copy kept until now (R288, R289, R304, R336, R344, R455, R460). -/
def storeItem (x : Nat × Nat × List Byte) (s : State) : State :=
  let bs := x.2.2
  match x.1 with
  | 0 => modEdge (fun e => { e with profiles := e.profiles.set x.2.1 bs }) s
  | 1 => modEdge (fun e => { e with bootProfile := if u8 bs 0 = 0xFF then none else some (u8 bs 0) }) s
  | 2 => modEdge (fun e => { e with fioStore := some bs }) s
  | 3 => modPwr (fun w => { w with nv := { w.nv with keys := if bs.isEmpty then w.nv.keys.del x.2.1 else w.nv.keys.set x.2.1 bs } }) s
  | 4 => modPwr (fun w => { w with nv := { w.nv with cap := some (u16 bs 0) } }) s
  | _ =>
    modNet (fun n => { n with store :=
      if x.2.1 = 0 then { n.store with ports := some (parseNet bs, (portEntries bs).map parsePort) }
      else if x.2.1 ≤ 16 then { n.store with gates := n.store.gates.set (x.2.1 - 1) (parseGates bs) }
      else { n.store with streams := if bs.isEmpty then n.store.streams.del (x.2.1 - 32) else n.store.streams.set (x.2.1 - 32) bs } }) s

/-- NONVOLATILE_WRITE_COMPLETE (R288): the oldest write. -/
def doStored (s : State) : State :=
  match s.pwr.nv.pendingWrites with
  | [] => s
  | x :: xs => storeItem x (modPwr (fun w => { w with nv := { w.nv with pendingWrites := xs } }) s)

/-- POWER_STATE_SET, 0x0701 (R442). -/
def execPowerStateSet (c : CmdIn) (s : State) : Host.Outcome State Fault Refusal := finish s (submit 0x0701 effPowerState c s)
/-- POWER_CAP_SET, 0x0702 (R460). -/
def execPowerCapSet (c : CmdIn) (s : State) : Host.Outcome State Fault Refusal := finish s (submit 0x0702 effPowerCap c s)
/-- POWER_STATUS_READ, 0x0703 (R468). -/
def execPowerStatusRead (c : CmdIn) (s : State) : Host.Outcome State Fault Refusal := finish s (submit 0x0703 effPowerStatus c s)
/-- KEY_SLOT_WRITE, 0x0705 (R455). -/
def execKeySlotWrite (c : CmdIn) (s : State) : Host.Outcome State Fault Refusal := finish s (submit 0x0705 effKeySlot c s)
/-- IMAGE_SIGN_REQUIRE, 0x0706 (R456). -/
def execImageSignRequire (c : CmdIn) (s : State) : Host.Outcome State Fault Refusal := finish s (submit 0x0706 effSignRequire c s)
/-- FIRMWARE_STAGE, 0x0707 (R457). -/
def execFirmwareStage (c : CmdIn) (s : State) : Host.Outcome State Fault Refusal := finish s (submit 0x0707 effFirmware c s)
/-- FIRMWARE_STAGE_COMPLETE (R457). -/
def execFirmwareStageComplete (s : State) : Host.Outcome State Fault Refusal := finish s (doFirmwareDone s)
/-- GOVERNOR_STEP (R461). -/
def execGovernorStep (mean mv : Nat) (s : State) : Host.Outcome State Fault Refusal := finish s (doGovernor mean mv s)
/-- THERMAL_LIMIT_STEP (R463). -/
def execThermalLimitStep (j : Int) (s : State) : Host.Outcome State Fault Refusal := finish s (doThermal j s)
/-- DOMAIN_WAKE_COMPLETE (R445). -/
def execDomainWakeComplete (d : Fin 64) (s : State) : Host.Outcome State Fault Refusal := finish s (doDomainWake d s)
/-- SLEEP_ENTRY_COMPLETE (R464). -/
def execSleepEntryComplete (s : State) : Host.Outcome State Fault Refusal := finish s (doRestDone s)
/-- WAKE_EVENT (R466). -/
def execWakeEvent (c : WakeSource) (s : State) : Host.Outcome State Fault Refusal := finish s (doWakeEvent c s)
/-- WAKE_COMPLETE (R467). -/
def execWakeComplete (s : State) : Host.Outcome State Fault Refusal := finish s (doWakeDone s)
/-- DEBUG_RESPONSE (R459). -/
def execDebugResponse (valid : Bool) (s : State) : Host.Outcome State Fault Refusal := finish s (doDebugResponse valid s)
/-- DEBUG_LOCKOUT_EXPIRY (R459). -/
def execDebugLockoutExpiry (s : State) : Host.Outcome State Fault Refusal := finish s (doLockoutEnd s)
/-- JTAG_INSTRUCTION (R509). -/
def execJtagInstruction (edge : Bool) (x : JtagIn) (s : State) : Host.Outcome State Fault Refusal :=
  finish s (doJtag edge x s)
/-- NONVOLATILE_WRITE_COMPLETE (R288). -/
def execNonvolatileWriteComplete (s : State) : Host.Outcome State Fault Refusal := finish s (doStored s)

end Sys2Proof.Machine
end

