-- ==== Sys2Proof/Machine/Faults.lean ====
section
/-! DEFINITION. Faults: detection, retry and classification, lost lines, main-die loss, self-test, recovery, test sessions, and coolant
loss with LIMP (R381 to R384, R472 to R491). -/
namespace Sys2Proof.Machine

/-- The warden restarts the main die in recovery mode (R477, R485): `arg` is the part of MAIN_DIE_LOST. -/
def mainDieLost (arg : Nat) (det : Nat) (s : State) : State :=
  if mainOn s then
    let s := modFaults (fun f => { f with
      lostRecord := some (BitVec.ofNat 16 arg, BitVec.ofNat 8 det), recovery := true, recoveryCause := 1, staged := false }) s
    modPwr (fun w => { w with stage := .profile, since := 40000000, lockoutAt := min w.lockoutAt 40000000, power := .idle, entering := none, heldWake := none, waking := none, wakeCause := 0 })
      (mainReset s)
  else s

/-- ARG of a unit's events (Table 20-5). -/
def unitArg (kind i : Nat) : Nat := kind * 256 + i

/-- The problem whose steep runs on a set that uses a unit. -/
def workOn (s : State) (kind i : Nat) : Option Nat := (s.sets.filter (fun e => usesUnit e.2 kind i)).findSome? (fun e => e.2.running)

/-- A fault in a unit that carries steep work (kinds 0 to 3): a steep's work is retried in the events that follow; elsewhere the event
says what the second attempt gave (log entry 130). -/
def faultInWorker (kind i det : Nat) (retryOk : Bool) (s : State) : State :=
  let stopping := kind == 2 && s.jobs.any (fun j => j.stopping)
  match (workOn s kind i).bind (fun p => (prob s p).steep.map (fun t => (p, t))) with
  | some (p, t) => faultInSteep p [(kind, i, det)] t s
  | none =>
    if stopping then leaveUnresolved kind i det s
    else if retryOk then countTransient kind i det s
    else rebalance (loseUnit kind i det s)

/-- Count one of the memory counters (R384). -/
def memCount (k : Nat) (s : State) : State := { s with mem := { s.mem with counts := bumpAt s.mem.counts k 1 } }

/-- A problem's caddy line is lost (R383): it is retired at once and unloaded. -/
def loseCaddy (p : Nat) (s : State) : State :=
  let s := event 0x050 p [] (memCount 8 s)
  match (prob s p).st with
  | .empty => s
  | .loaded => unloadProb p s
  | .retiring => modProb p (fun q => { q with lost := true }) s
  | .enabled => beginRetire p (modProb p (fun q => { q with lost := true }) s)

/-- A round whose data are lost restarts from its start (R246). -/
def restartRound (j : Job) : Job :=
  match j.stepsDone with
  | none => j
  | some _ => { j with stepsDone := some 0, master := j.base.1, m := j.base.2.1, v := j.base.2.2.1, t := j.base.2.2.2
                       state := if j.state = .validating then .training else j.state }

/-- A line of staging data is lost (Table 17-5): the iteration or commit that reads it faults, without a unit of the set. -/
def loseStaging (p : Nat) (s : State) : State :=
  match (prob s p).steep with
  | some t => if t.phase = .commit ∨ t.phase = .running then faultInSteep p [] t s else s
  | none => s

/-- What follows from a lost line (Table 17-5); Rankoaz data are a main-die loss (R476). -/
def loseLine (l : LineHeld) (det : Nat) (s : State) : State :=
  match l with
  | .nothing => s
  | .caddy p => loseCaddy p s
  | .iterate p => modProb p (fun q => { q with
      poured := q.poured.map (fun o => { o with it := none }), older := q.older.map (fun o => { o with it := none }) }) (memCount 9 s)
  | .group p l =>
    modProb p (fun q => { q with
      groups := q.groups.filter (fun g => g.lease != l.val)
      groupsDiscarded := satPlus q.groupsDiscarded (q.groups.filter (fun g => g.lease == l.val)).length }) s
  | .twinGroup p k =>
    modProb p (fun q => { q with
      twin := { q.twin with queue := q.twin.queue.eraseIdx k }
      groupsDiscarded := satPlus q.groupsDiscarded (b2n (decide (k < q.twin.queue.length))) }) s
  | .training p m => modJob p m restartRound s
  | .staging p => loseStaging p s
  | .rankoaz => mainDieLost 0xFFFF det s

/-- A steep at work whose access was made once more carries RETRIED (R382). -/
def markRetried (p : Nat) (s : State) : State :=
  match (prob s p).steep with
  | some t => if t.phase = .commit ∨ t.phase = .running then modProb p (fun q => { q with steep := some { t with retried := true } }) s else s
  | none => s

/-- A fault of the shared pool or of HBM (R382, R383, R476, Table 17-4). -/
def faultInMemory (pool : Bool) (i det : Nat) (retryOk : Bool) (m : MemFaultIn) (s : State) : State :=
  let kind := if pool then 5 else 6
  let s := memCount (if pool then 6 else 1) s
  if retryOk then
    match m.line with
    | .staging p | .caddy p | .iterate p => countTransient kind i det (markRetried p s)
    | _ => countTransient kind i det s
  else if pool then
    if 2 ≤ s.mem.spares then mainDieLost (unitArg 5 i) det s
    else loseLine m.line det { fenceLasting 5 i det s with mem := { s.mem with spares := s.mem.spares + 1 } }
  else if m.removed = 3 then mainDieLost (unitArg 6 i) det s
  else
    loseLine m.line det (memCount (2 + m.removed.val)
      (modFaults (fun f => { f with lastingTotal := satInc f.lastingTotal }) (modUnit 6 i (fun u => { u with detector := det, lastFault := s.lt }) s)))

/-- A fault of a host core (Table 20-1, R476): core 0 is part of the main-die row. -/
def faultInCore (i det : Nat) (retryOk : Bool) (s : State) : State :=
  if retryOk then countTransient 4 i det s else if i = 0 then mainDieLost (unitArg 4 0) det s else fenceLasting 4 i det s

/-- FAULT_DETECTED (R473 to R476): a detector fires in a unit in service, and the retry says whether the fault lasts. -/
def doFault (kind i : Nat) (det : Fin 7) (retryOk : Bool) (m : MemFaultIn) (s : State) : State :=
  if !mainOn s || !unitExists kind i || (fenced s kind i && !fencePends s (kind, i)) then s
  else match kind with
    | 4 => faultInCore i det retryOk s
    | 5 => faultInMemory true i det retryOk m s
    | 6 => faultInMemory false i det retryOk m s
    | 7 => doCrc ⟨i / 4 % 8, Nat.mod_lt _ (by decide)⟩ (!retryOk) ⟨i % 4, Nat.mod_lt _ (by decide)⟩ s
    | _ => faultInWorker kind i det retryOk s

/-- UNRESOLVED_TEST_DONE (R475). -/
def doUnresolved (kind i : Nat) (pass : Bool) (s : State) : State :=
  if (unit s kind i).unresolved then
    if pass then countTransient kind i (unit s kind i).detector s
    else
      rebalance (dropUnit kind i (markFenced kind i 1 3 (unit s kind i).detector (modFaults (fun f => { f with lastingTotal := satInc f.lastingTotal }) s)))
  else s

/-- WATCHDOG_EXPIRY (R472, R476): on core 0 a main-die loss; on another the task is retried on another core. -/
def doWatchdog (core : Fin 16) (retryOk : Bool) (s : State) : State :=
  if !ready s then s else if core.val = 0 then mainDieLost (unitArg 4 0) 6 s else if fenced s 4 core then s else faultInCore core 6 retryOk s

/-- MAIN_DIE_LOSS (R476, R477): of a part with a KIND and INDEX, or of another. -/
def doMainLoss (part : Option (Nat × Nat)) (det : Fin 7) (s : State) : State :=
  mainDieLost (match part with | some u => unitArg u.1 u.2 | none => 0xFFFF) det s

/-- PATROL_SCRUB (R381): a corrected error is written back and counted; HBM in self-refresh is not read (R481). -/
def doPatrol (pool corrected : Bool) (s : State) : State :=
  if mainOn s && corrected && (pool || s.pwr.power != .limp) then memCount (if pool then 5 else 0) s else s

/-- SELF_TEST (R479). -/
def effSelfTest (m : Cmd) (s : State) : State × Reply :=
  let k := argN m.c 0 1
  let i := argN m.c 1 1
  checked (descChecks false false m ++ [((k != 0xFF && !unitOk k i) || !zeroAt (argBytes m.c) 2 30, stFltRange),
      ((k == 0xFF || !fenced s k i) && !s.faults.testSession, stFltMode)]) s (s, .held .selfTest true)

/-- A unit that fails its test in a session is fenced (R487). -/
def failTest (u : Nat × Nat) (s : State) : State := if fenced s u.1 u.2 then s else dropUnit u.1 u.2 (markFenced u.1 u.2 3 2 (unit s u.1 u.2).detector s)

/-- SELF_TEST_COMPLETE (R478, R479, R487): the units that failed. -/
def doSelfTestDone (failed : List (Nat × Nat)) (s : State) : State :=
  match s.mbx.running.find? (fun r => r.await == .selfTest) with
  | none => s
  | some r =>
    let k := argN r.cmd.c 0 1
    let i := argN r.cmd.c 1 1
    let pass := if k = 0xFF then failed.isEmpty else !failed.contains (k, i)
    if r.cmd.op = 0x0803 then
      if pass then endAwait .selfTest stOk [] (unfence k i s) else endAwait .selfTest stFltTestFailed [] s
    else
      let bad := if k = 0xFF then failed else failed.filter (fun u => u == (k, i))
      endAwait .selfTest stOk (leBytes 1 (b2n pass)) (rebalance (forAll bad failTest s))

/-- One unit's entry of the fault log (R488). -/
def unitEntry (s : State) (kind i : Nat) : List Byte :=
  let u := unit s kind i
  leBytes 1 kind ++ leBytes 1 i ++ leBytes 1 u.state ++ leBytes 1 u.detector ++ wBytes 4 u.transients ++ leBytes 8 u.lastFault ++ leBytes 8 u.fencedAt

/-- Every unit in the order of Table 20-2. -/
def allUnits : List (Nat × Nat) := (List.range 8).flatMap (fun k => (List.range (unitCount k)).map (fun i => (k, i)))

/-- FAULT_LOG_READ's record (R488). -/
def faultRecord (s : State) : List Byte :=
  leBytes 8 s.lt ++ wBytes 8 s.faults.transientTotal ++ wBytes 8 s.faults.lastingTotal ++ wBytes 4 s.faults.unresolvedTotal ++ leBytes 4 446
  ++ allUnits.flatMap (fun u => unitEntry s u.1 u.2)

/-- FAULT_LOG_READ (R488). -/
def effFaultLog (m : Cmd) (s : State) : State × Reply :=
  checked (descChecks false false m ++ outChecks m 10736) s (putOut m (faultRecord s) s)

/-- A device-wide quiescent point (R454). -/
def quiescent (s : State) : Bool :=
  s.probs.all (fun e => e.2.st != .enabled && e.2.st != .retiring && e.2.ckpt.isNone) && s.jobs.all (fun j => j.stepsDone.isNone)
  && s.mbx.running.all (fun r => r.await != .jduQuery)

/-- RECOVERY_ENTER (R485). -/
def effRecoveryEnter (m : Cmd) (s : State) : State × Reply :=
  checked (descChecks false false m ++ [(!quiescent s, stFltBusy)]) s (okay (if s.faults.recovery then s else enterRecovery 0 s))

/-- RECOVERY_EXIT (R485): after cause 1 or 2 the main die restarts at the next MAIN_DIE_POWER_ON. -/
def effRecoveryExit (m : Cmd) (s : State) : State × Reply :=
  let c := s.faults.recoveryCause
  checked (descChecks false false m ++ [(!s.faults.recovery, stFltMode), (!quiescent s, stFltBusy), (c == 2 && !s.faults.staged, stFltMode)]) s
    (okay (event 0x107 0 [BitVec.ofNat 8 c] (modFaults (fun f => { f with recovery := false, recoveryCause := 0, restart := c != 0 }) s)))

/-- TEST_SESSION_BEGIN (R487). -/
def effTestBegin (m : Cmd) (s : State) : State × Reply :=
  checked (descChecks false false m ++ [(!quiescent s, stFltBusy)]) s
    (okay (if s.faults.testSession then s else event 0x108 1 [] (modFaults (fun f => { f with testSession := true }) s)))

/-- TEST_SESSION_END (R487). -/
def effTestEnd (m : Cmd) (s : State) : State × Reply :=
  checked (descChecks false false m ++ [(!s.faults.testSession, stFltMode), (!quiescent s, stFltBusy)]) s
    (okay (event 0x108 0 [] (modFaults (fun f => { f with testSession := false }) s)))

/-- A mean over 20 ms lies on a side of a bound: 200 samples, one every 100 µs (R480). -/
def meanBeyond (l : List Int) (p : Int → Bool) : Bool := decide (200 ≤ l.length) && p (l.foldl (· + ·) 0)

/-- The coolant-loss condition that holds, lowest CAUSE first (Table 20-3). -/
def coolantCause (f : Faults) (j : Int) : Option Nat :=
  if meanBeyond (f.flows.map Int.ofNat) (fun t => decide (t < 1200 * 200)) then some 0
  else if meanBeyond f.inlets (fun t => decide (65 * 200 < t)) then some 1
  else if decide (11 ≤ f.junctions.length ∧ 60 < j ∧ 2 < j - f.junctions.getD 10 j) then some 2
  else if 105 ≤ j then some 3 else none

/-- A problem belongs to the limp set at the detection (R482). -/
def inLimpSet (s : State) (q : Prob) : Bool :=
  s.faults.limpEnable && q.st == .enabled && decide (s.faults.limpMin.toNat ≤ q.sched.priority ∧ q.sched.quadrants = 0 ∧ q.sched.pipes ≤ 2 ∧ q.sched.clusters ≤ 16)
  && !q.inHbm

/-- Checkpoints that are not captured are abandoned (R481). -/
def abandonCaptures (s : State) : State :=
  forAll s.probs (fun e t => match (prob t e.1).ckpt with
    | some k => if k.captured.isNone then endAwaitP .checkpoint e.1 stCkptAbandoned [] (modProb e.1 (fun q => { q with ckpt := none }) t) else t
    | none => t) s

/-- The limp set leaves its sets and is placed in the limp allocation, at its first dispatch after the detection (R389, R482). -/
def moveLimpSet (ps : List Nat) (s : State) : State :=
  let old := (ps.filterMap (fun p => (prob s p).set)).eraseDups
  let s := forAll ps (fun p t => modProb p (fun q => { q with set := none, spans := false }) t) s
  placeUnplaced (forAll old (fun k t => if (probsOf t k).isEmpty then retireSet k t else t) s)

/-- Coolant loss is detected (R480 to R482): the first two rows of Table 20-4. -/
def detectLoss (cause : Nat) (c : CoolantIn) (s : State) : State :=
  let ps := (s.probs.filter (fun e => inLimpSet s e.2)).map Prod.fst
  let out := (s.probs.filter (fun e => e.2.st == .enabled && !ps.contains e.1)).map Prod.fst
  let s := event 0x103 ps.length [] (event 0x102 cause (leBytes 2 (c.flow / 10) ++ i16 (16 * c.inlet) ++ i16 (16 * c.junction)) s)
  let s := modFaults (fun f => { f with limp := some s.lt, limpSet := ps, limpSeen := true, calmSince := none }) s
  let s := endQuery (endAwait .jduQuery stFltLimp [] (suspendTraining s))
  let s := forAll out beginRetire (abandonCaptures s)
  strain (settle (moveLimpSet ps s))

/-- LIMP ends (R484): clocks and HBM return, training follows the junction, the limp set goes on at its own budgets. -/
def exitLimp (t0 : Nat) (s : State) : State :=
  let s := event 0x104 0 (leBytes 8 ((s.lt - t0) / 1000)) (modFaults (fun f => { f with limp := none, limpSet := [], calmSince := none }) s)
  let s := modPwr (fun w => { w with
    power := .idle, limpClocks := false, hostClk := 2500 - 250 * (w.gov.filter (fun a => a.1 == 2)).length }) s
  settle (trainFollow (hottest s) (refreshPower s))

/-- LIMP is exhausted (R15, R51, R483): the limp set is retired, whose steeps in flight pour, one in its commit once that completes. -/
def exhaustLimp (j : Int) (s : State) : State :=
  if s.faults.exhausted then s
  else forAll s.faults.limpSet (fun p t => if (prob t p).st = .enabled then beginRetire p t else t)
    (modFaults (fun f => { f with exhausted := true }) (event 0x105 0 (i16 (16 * j)) s))

/-- The main die goes OFF with no wake source once the retirements of R483 have ended; loops and the pours to their slots go on. -/
def endLimp (s : State) : State :=
  if s.faults.exhausted && s.probs.all (fun e => e.2.st != .retiring) then
    modPwr (fun w => { w with power := .off, wakeMask := 0 }) (modFaults (fun f => { f with mainDead := true, exhausted := false }) { mainOff s with edge := s.edge })
  else s

/-- The warden's sample enters its windows (R480). -/
def takeCoolant (c : CoolantIn) (s : State) : State :=
  let s := modPwr (fun w => { w with mainTj := 16 * c.junction, edgeTj := 16 * c.edge, coolantIn := 16 * c.inlet, flow := c.flow / 10 }) s
  modFaults (fun f => { f with
    flows := (c.flow :: f.flows).take 200, inlets := (c.inlet :: f.inlets).take 200, junctions := (c.junction :: f.junctions).take 11 }) s

/-- What a coolant sample does to LIMP, with the cause that holds (R480, R483, R484). -/
def limpSample (c : CoolantIn) (cause : Option Nat) (s : State) : State :=
  match s.faults.limp, cause with
  | none, some k => if s.pwr.entering.isNone then detectLoss k c s else s
  | some t0, _ =>
    if s.pwr.power ≠ .limp then s
    else if s.faults.exhausted = true ∨ 105 ≤ c.junction then endLimp (exhaustLimp c.junction s)
    else if (match s.faults.calmSince with | some t => decide (t + 5000000000 ≤ s.lt) | none => false) && decide (1500 ≤ c.flow ∧ c.junction ≤ 80) then
      exitLimp t0 s
    else s
  | none, none => s

/-- COOLANT_SAMPLE (R246, R480, R483, R484): every 100 µs. -/
def doCoolant (c : CoolantIn) (s : State) : State :=
  let s := takeCoolant c s
  let cause := coolantCause s.faults c.junction
  let s := modFaults (fun f => { f with
    coolantLost := cause.isSome, calmSince := if cause.isSome then none else match f.calmSince with | some t => some t | none => some s.lt }) s
  if !mainOn s then s
  else
    let s := limpSample c cause s
    if mainOn s then trainFollow (max c.junction c.edge) s else s

/-- The ports that stay in LIMP: the first four of MBX_LIMP.PORTS, at 25 Gb/s or less (Table 20-7). -/
def limpKept (s : State) : List Nat :=
  ((bitsOf s.faults.limpPorts.toNat 16).take 4).filter (fun p => decide (modeRate (port s p).cfg.mode ≤ 25000))

/-- LIMP_ENTRY_COMPLETE (R481): the last four rows of Table 20-4, once the retirements have ended. -/
def doLimpEntry (s : State) : State :=
  if s.faults.limp.isSome ∧ s.pwr.power ≠ .limp ∧ mainOn s = true ∧ s.probs.all (fun e => e.2.st != .retiring) then
    let s := forAll (s.probs.filter (fun e => e.2.twin.state == .paired))
      (fun e t => twinLost e.1 e.2.nextSteep t) s
    let s := { s with group := {}, probs := s.probs.map (fun e => (e.1, { e.2 with spans := false })) }
    let s := modPwr (fun w => { w with
      pds := w.pds.map (fun e => if e.1 = 52 ∨ e.1 = 56 then e else (e.1, { e.2 with state := .off, waking := false, heldWake := false })) }) s
    let keep := limpKept s
    let s := forAll ((List.range 16).filter (fun p => !keep.contains p)) (shutPort false) s
    let s := forAll (List.range 8) (drainLink 0) s
    modPwr (fun w => { w with hostClk := 1000, limpClocks := true, power := .limp }) s
  else s

/-- SELF_TEST, 0x0801 (R479). -/
def execSelfTest (c : CmdIn) (s : State) : Host.Outcome State Fault Refusal := finish s (submit 0x0801 effSelfTest c s)
/-- SELF_TEST_COMPLETE (R479). -/
def execSelfTestComplete (failed : List (Nat × Nat)) (s : State) : Host.Outcome State Fault Refusal := finish s (doSelfTestDone failed s)
/-- FAULT_LOG_READ, 0x0804 (R488). -/
def execFaultLogRead (c : CmdIn) (s : State) : Host.Outcome State Fault Refusal := finish s (submit 0x0804 effFaultLog c s)
/-- RECOVERY_ENTER, 0x0805 (R485). -/
def execRecoveryEnter (c : CmdIn) (s : State) : Host.Outcome State Fault Refusal := finish s (submit 0x0805 effRecoveryEnter c s)
/-- RECOVERY_EXIT, 0x0806 (R485). -/
def execRecoveryExit (c : CmdIn) (s : State) : Host.Outcome State Fault Refusal := finish s (submit 0x0806 effRecoveryExit c s)
/-- TEST_SESSION_BEGIN, 0x0807 (R487). -/
def execTestSessionBegin (c : CmdIn) (s : State) : Host.Outcome State Fault Refusal := finish s (submit 0x0807 effTestBegin c s)
/-- TEST_SESSION_END, 0x0808 (R487). -/
def execTestSessionEnd (c : CmdIn) (s : State) : Host.Outcome State Fault Refusal := finish s (submit 0x0808 effTestEnd c s)
/-- FAULT_DETECTED (R473). -/
def execFaultDetected (kind i : Nat) (det : Fin 7) (retryOk : Bool) (m : MemFaultIn) (s : State) : Host.Outcome State Fault Refusal :=
  finish s (doFault kind i det retryOk m s)
/-- UNRESOLVED_TEST_DONE (R475). -/
def execUnresolvedTestDone (kind i : Nat) (pass : Bool) (s : State) : Host.Outcome State Fault Refusal := finish s (doUnresolved kind i pass s)
/-- WATCHDOG_EXPIRY (R472). -/
def execWatchdogExpiry (core : Fin 16) (retryOk : Bool) (s : State) : Host.Outcome State Fault Refusal := finish s (doWatchdog core retryOk s)
/-- MAIN_DIE_LOSS (R477). -/
def execMainDieLoss (part : Option (Nat × Nat)) (det : Fin 7) (s : State) : Host.Outcome State Fault Refusal := finish s (doMainLoss part det s)
/-- PATROL_SCRUB (R381). -/
def execPatrolScrub (pool corrected : Bool) (s : State) : Host.Outcome State Fault Refusal := finish s (doPatrol pool corrected s)
/-- COOLANT_SAMPLE (R480). -/
def execCoolantSample (c : CoolantIn) (s : State) : Host.Outcome State Fault Refusal := finish s (doCoolant c s)
/-- LIMP_ENTRY_COMPLETE (R481). -/
def execLimpEntryComplete (s : State) : Host.Outcome State Fault Refusal := finish s (doLimpEntry s)

end Sys2Proof.Machine
end

