-- ==== Sys2Proof/Machine/Arbiters.lean ====
section
/-! DEFINITION. The 202 arbiters (R376, R394 to R402). -/
namespace Sys2Proof.Machine

/-- An arbiter. -/
def arb (s : State) (a : Nat) : Arb := s.arbs.get a
/-- Change an arbiter. -/
def modArb (a : Nat) (f : Arb → Arb) (s : State) : State := { s with arbs := s.arbs.mod a f }

/-- Weight of a class (Table 17-13). -/
def Arb.weight (x : Arb) (c : Nat) : Nat := (x.weights.toNat / 16 ^ c) % 16
/-- A class has a request pending. -/
def Arb.pends (x : Arb) (c : Nat) : Bool := x.queue.any (fun r => r.1 == c)
/-- Requests of a class that wait (ARB_PENDING). -/
def Arb.depth (x : Arb) (c : Nat) : Nat := (x.queue.filter (fun r => r.1 == c)).length

/-- The resource of an arbiter is there (R519): neither OFF nor in self-refresh. -/
def resourceOn (s : State) (a : Nat) : Bool :=
  mainOn s && (if a < 128 then s.pwr.power != .limp && (s.pwr.stage == .hbm || ready s) else if a < 194 then true else (s.links.get (a - 194)).state == .up)

/-- A VC2 flit leaves by the egress of arbiter `a` in this nanosecond: it takes precedence over VC0 and VC1 (R357). -/
def vc2First (s : State) (a : Nat) : Bool := decide (194 ≤ a) && (s.links.get (a - 194)).vc2Sent.contains s.lt

/-- A class may be granted in this cycle (R395, R399): class 5 alone while frozen; weight 0 only when no other weight pends. -/
def Arb.eligible (x : Arb) (c : Nat) : Bool :=
  x.pends c && (if x.freeze then c == 5
    else decide (0 < x.weight c) || !(List.range 8).any (fun k => x.pends k && decide (0 < x.weight k)))

/-- The next eligible class after a class, wrapping from 7 to 0. -/
def Arb.nextClass (x : Arb) (c : Nat) : Option Nat := ((List.range 8).map (fun k => (c + 1 + k) % 8)).find? x.eligible

/-- The class of the next grant, and whether the pointer moves onto it (R395). -/
def Arb.pick (x : Arb) : Option (Nat × Bool) :=
  if x.freeze then (if x.eligible 5 then some (5, false) else none)
  else if x.eligible x.pointer && decide (x.used < max 1 (x.weight x.pointer)) then some (x.pointer, false)
  else (x.nextClass x.pointer).map (fun c => (c, true))

/-- Requests enter their class's queue, 8 deep; the others wait at their source (R396). -/
def Arb.arrive (l : List (Fin 8 × Fin 4)) (x : Arb) : Arb :=
  l.foldl (fun x r => if x.depth r.1 < 8 then { x with queue := x.queue ++ [(r.1.val, r.2.val + 1)] } else x) x

/-- The oldest request of a class leaves the queue. -/
def dropFirst (c : Nat) : List (Nat × Nat) → List (Nat × Nat)
  | [] => []
  | r :: t => if r.1 = c then t else r :: dropFirst c t

/-- The counts of R400 after a grant to class `c`: the new counts, and the classes that reach the limit. -/
def Arb.starve (c : Nat) (x : Arb) : List Nat × List Nat :=
  let w := (List.range 8).map (fun k => if k = c ∨ x.pends k = false then 0 else x.waits.getD k 0 + 1)
  (w, (List.range 8).filter (fun k => decide (0 < x.limit.toNat) && w.getD k 0 == x.limit.toNat))

/-- One grant, or a withdrawal of the request that would be granted (R395, R398, R400): the arbiter, and the classes starved. -/
def Arb.cycle (withdrawn : Bool) (x : Arb) : Arb × List Nat :=
  let x := { x with cur := none }
  match x.pick with
  | none => (x, [])
  | some (c, moved) =>
    let x := if moved then { x with pointer := c, used := 0 } else x
    let q := dropFirst c x.queue
    if withdrawn then
      ({ x with queue := q, used := if x.freeze then x.used else 16, waits := if q.any (fun r => r.1 == c) then x.waits else x.waits.set c 0 }, [])
    else
      let st := x.starve c
      ({ x with
          queue := q, used := if x.freeze then x.used else x.used + 1, cur := x.queue.find? (fun r => r.1 == c), waits := st.1
          starved := st.2.foldl (fun a k => a ||| ((1#8) <<< k)) x.starved
          cnt := st.2.foldl (fun l k => l.modify k satInc) x.cnt }, st.2)

/-- How long an emergency access holds the resource of arbiter `a`: 350 ns for a refresh (R376), the nanosecond of its burst for
the debug port (log entry 81). -/
def holdOf (a : Nat) : Nat := if a < 128 then 350 else 1

/-- EMERGENCY (R397): the emergency requester holds the resource. -/
def emergency (s : State) (a : Nat) : Bool :=
  match (arb s a).emergencyAt with
  | some t => decide (s.lt < t + holdOf a)
  | none => false

/-- ARBITER_GRANT (R395 to R400, Table 17-12): one cycle in which the resource is free. Requests that arrive while the emergency requester
holds it wait (R397). -/
def doGrant (a : Fin 202) (arrived : List (Fin 8 × Fin 4)) (withdrawn : Bool) (s : State) : State :=
  let s := modArb a (Arb.arrive arrived) s
  if resourceOn s a && !emergency s a && !vc2First s a then
    let r := (arb s a).cycle withdrawn
    let s := modArb a (fun _ => r.1) s
    if r.2.isEmpty || !r.1.irqEn then s
    else event 0x031 a [BitVec.ofNat 8 (r.2.foldl (fun m k => m + 2 ^ k) 0)] s
  else s

/-- Arbiter `a` has an emergency requester now (Table 17-10): refresh, or the debug port once it is unlocked. -/
def hasEmergency (s : State) (a : Nat) : Bool := decide (a < 128) || (decide (a < 194) && s.pwr.unlocked)

/-- At least `gap` ns have passed since the last emergency access at arbiter `a`. -/
def gapOver (s : State) (a gap : Nat) : Bool :=
  match (arb s a).emergencyAt with
  | some t => decide (t + gap ≤ s.lt)
  | none => true

/-- The emergency requester, which requests at most once in `gap` ns, takes the resource at the next burst boundary (R397). -/
def doEmergency (a gap : Nat) (s : State) : State :=
  if resourceOn s a && hasEmergency s a && gapOver s a gap then modArb a (fun x => { x with emergencyAt := some s.lt }) s else s

/-- The least time between two requests of an arbiter's emergency requester: the shorter refresh interval (R376), or the 32 CK04 cycles
of the debug port (R394). -/
def gapOf (a : Nat) : Nat := if a < 128 then 1950 else 16

/-- A write of FREEZE (R399). -/
def writeFreeze (a : Nat) (f : Bool) (s : State) : State := modArb a (fun x => { x with freeze := f }) s

/-- DRAINED (R399): frozen, and no transfer of a frozen class in progress. -/
def Arb.drained (x : Arb) : Bool := x.freeze && (match x.cur with | some (c, _) => c == 5 | none => true)

/-- ARBITER_GRANT (R395). -/
def execArbiterGrant (a : Fin 202) (arrived : List (Fin 8 × Fin 4)) (withdrawn : Bool) (s : State) : Host.Outcome State Fault Refusal :=
  finish s (doGrant a arrived withdrawn s)
/-- EMERGENCY_REQUEST (R397). -/
def execEmergencyRequest (a : Fin 202) (s : State) : Host.Outcome State Fault Refusal := finish s (doEmergency a (gapOf a) s)
/-- HBM_REFRESH (R376): as the emergency requester of its pseudo-channel's arbiter, once in 3.9 µs, or in 1.95 µs with the stack above 85 °C. -/
def execHbmRefresh (st : Fin 4) (ch : Fin 16) (r : RefreshIn) (s : State) : Host.Outcome State Fault Refusal :=
  finish s (doEmergency (32 * st + 2 * ch + r.pseudo) (if r.hot then 1950 else 3900) s)
/-- ARB_FREEZE_WRITE (R399). -/
def execArbFreezeWrite (a : Fin 202) (f : Bool) (s : State) : Host.Outcome State Fault Refusal := finish s (when (ready s) (writeFreeze a f) s)

end Sys2Proof.Machine
end

