-- ==== Sys2Proof/Machine/Mailbox.lean ====
section
/-! DEFINITION. Device record, NOP, the command ring and its resets, interrupts of PCIe (R409 to R423, R436, R506). -/
namespace Sys2Proof.Machine

/-- A command with no record and no problem: the general checks only (R422). -/
def effNop (m : Cmd) (s : State) : State × Reply := checked (descChecks false false m) s (okay s)

/-- DEVICE_INFO's record (R423). -/
def deviceRecord (s : State) (acc : W64) : List Byte :=
  leBytes 2 0x6480 ++ [1#8] ++ [BitVec.ofNat 8 (b2n (heritage s) + 2 * b2n s.faults.recovery + 4 * b2n s.faults.testSession)]
  ++ wBytes 4 (Config.fwVersion s.pwr.bank) ++ wBytes 4 Config.planVersion ++ zeros 4 ++ wBytes 8 Config.serial
  ++ leBytes 8 (64 * 2 ^ 30) ++ leBytes 8 s.lt ++ wBytes 8 acc ++ zeros 16

/-- DEVICE_INFO (R423). -/
def effDeviceInfo (m : Cmd) (s : State) : State × Reply :=
  checked (descChecks false false m ++ outChecks m 64) s (putOut m (deviceRecord s m.acceptNo) s)

/-- DEVICE_INFO, 0x0101 (R423). -/
def execDeviceInfo (c : CmdIn) (s : State) : Host.Outcome State Fault Refusal := finish s (submit 0x0101 effDeviceInfo c s)
/-- NOP, 0x0102 (R422). -/
def execNop (c : CmdIn) (s : State) : Host.Outcome State Fault Refusal := finish s (submit 0x0102 effNop c s)

/-- A descriptor from its 64 bytes (Table 18-4), with the phase it must not differ from, if any. -/
def parseDesc (agent : Agent) (src : NetSrc) (fseq : W32) (index : W16) (phase : Option Bool) (bs : List Byte) : Cmd :=
  { op := BitVec.ofNat 16 (u16 bs 0)
    c := { agent := agent, index := index, flags := BitVec.ofNat 15 (u16 bs 2), seq := BitVec.ofNat 32 (u32 bs 4),
           problem := BitVec.ofNat 16 (u16 bs 8), rsvd := BitVec.ofNat 16 (u16 bs 10), length := BitVec.ofNat 32 (u32 bs 12),
           addr := w64At bs 16, addr2 := w64At bs 24, args := BitVec.ofNat 256 (fieldN bs 32 32) }
    phaseBad := match phase with
      | some p => (u16 bs 2).testBit 15 != p
      | none => false
    src := src, fseq := fseq }

/-- COMMAND_DOORBELL: a write of MBX_CMD_TAIL (R416); [31:8] reserved. -/
def doDoorbell (v : W32) (s : State) : State :=
  if ready s && !s.mbx.perst then modMbx (fun b => { b with cmdTail := v.setWidth 8 }) s else s
/-- COMMAND_DOORBELL (R416). -/
def execCommandDoorbell (v : W32) (s : State) : Host.Outcome State Fault Refusal := finish s (doDoorbell v s)

/-- Take the oldest arrived descriptor of a path, if any. -/
def takeArrived (a : Agent) : List Cmd → Option (Cmd × List Cmd)
  | [] => none
  | m :: ms => if m.c.agent = a then some (m, ms) else (takeArrived a ms).map (fun r => (r.1, m :: r.2))

/-- Fetch the slot at HEAD: accept it, advance HEAD, toggle the expected phase on a wrap (R416). -/
def fetchSlot (s : State) : State :=
  let b := s.mbx
  let bs := (memView s .host).readBytes (b.cmdBase.toNat + 64 * b.cmdHead.toNat) 64
  let m := parseDesc .pcie {} 0 (b.cmdHead.setWidth 16) (some b.cmdPhase) bs
  accept m (modMbx (fun b => { b with cmdHead := b.cmdHead + 1, cmdPhase := b.cmdPhase != (b.cmdHead == 0xFF) }) s)

/-- DESCRIPTOR_FETCH (R416, R418): with room in flight, the oldest arrived descriptor of the path is accepted, or the next
due slot of the ring is fetched and accepted. -/
def doFetch (a : Agent) (s : State) : State :=
  if ready s && hasRoom s then
    match takeArrived a s.mbx.arrived with
    | some (m, rest) => accept m (modMbx (fun b => { b with arrived := rest }) s)
    | none =>
      match a with
      | .pcie => if pathOpen .pcie s && s.mbx.cmdTail != s.mbx.cmdHead then fetchSlot s else s
      | .mgmt => s
  else s
/-- DESCRIPTOR_FETCH (R418). -/
def execDescriptorFetch (a : Agent) (s : State) : Host.Outcome State Fault Refusal := finish s (doFetch a s)

/-- The ring enabled: indices 0, phases 1 (R414). -/
def enableRing (b : Mailbox) : Mailbox :=
  { b with enable := true, cmdHead := 0, cmdTail := 0, cplHead := 0, cplTail := 0, cmdPhase := true, cplPhase := true }

/-- A write of MBX_RING_CTRL.ENABLE as 1 (R414, R419). -/
def ringOn (b : Mailbox) : Mailbox :=
  if b.disabling then { b with enableHeld := true } else if b.enable then b else enableRing b

/-- The ring's shut-down begins (R419). -/
def ringOff (b : Mailbox) : Mailbox := if b.enable then { b with disabling := true } else b

/-- RING_ENABLE (R414). -/
def doRingEnable (s : State) : State := if ready s then modMbx ringOn s else s
/-- RING_ENABLE (R414). -/
def execRingEnable (s : State) : Host.Outcome State Fault Refusal := finish s (doRingEnable s)

/-- RING_DISABLE (R419). -/
def doRingDisable (s : State) : State := if ready s then modMbx ringOff s else s
/-- RING_DISABLE (R419). -/
def execRingDisable (s : State) : Host.Outcome State Fault Refusal := finish s (doRingDisable s)

/-- The end of a ring shut-down: nothing in flight; a held ENABLE is carried out (R419). -/
def doRingDown (s : State) : State :=
  if s.mbx.disabling && decide (inFlight s = 0) then
    modMbx (fun b =>
      let d := { b with enable := false, disabling := false, enableHeld := false }
      if b.enableHeld then enableRing d else d) s
  else s
/-- RING_SHUTDOWN_COMPLETE (R419). -/
def execRingShutdownComplete (s : State) : Host.Outcome State Fault Refusal := finish s (doRingDown s)

/-- A reset of the PCIe function: the ring shuts down and the interrupt maps return to reset (R419, R506). -/
def resetFunction (s : State) : State :=
  { modMbx ringOff s with irq := { s.irq with map := [] } }

/-- FUNCTION_LEVEL_RESET (R419), with the link up. -/
def doFlr (s : State) : State := if mainOn s && !s.mbx.perst then resetFunction s else s
/-- FUNCTION_LEVEL_RESET (R419). -/
def execFunctionLevelReset (s : State) : Host.Outcome State Fault Refusal := finish s (doFlr s)

/-- PERST_ASSERTED (R506): PERST_N goes low. -/
def doPerstAsserted (s : State) : State :=
  let t := modMbx (fun b => { b with perst := true }) s
  if mainOn s && !s.mbx.perst then resetFunction t else t
/-- PERST_ASSERTED (R506). -/
def execPerstAsserted (s : State) : Host.Outcome State Fault Refusal := finish s (doPerstAsserted s)

/-- PERST_RELEASED (R506): PERST_N goes high and the link trains again. -/
def doPerstReleased (s : State) : State := modMbx (fun b => { b with perst := false }) s
/-- PERST_RELEASED (R506). -/
def execPerstReleased (s : State) : Host.Outcome State Fault Refusal := finish s (doPerstReleased s)

/-- PCIE_CONFIG_REQUEST (R410): retry status until Rankoaz is ready; no answer without a link. -/
def doPcieConfig (s : State) : State := if mainOn s && !s.mbx.perst then emit (.pcieConfig (!ready s)) s else s
/-- PCIE_CONFIG_REQUEST (R410). -/
def execPcieConfigRequest (s : State) : Host.Outcome State Fault Refusal := finish s (doPcieConfig s)

/-- Send the message of a vector whose pending bit is set and which is no longer masked (R436, PCI Express MSI-X). -/
def sendPending (v : Nat) (s : State) : State :=
  let e := s.irq.table.get v
  if s.irq.pba.getLsbD v && !e.mask then
    emit (.msix e.addr e.data) { s with irq := { s.irq with pba := s.irq.pba &&& ~~~((1#64) <<< v) } }
  else s

/-- One dword of an MSI-X table entry: address, upper address, data, vector control with the mask in bit 0. -/
def msixDword (e : Msix) (k : Nat) (v : W32) : Msix :=
  match k with
  | 0 => { e with addr := (e.addr &&& 0xFFFFFFFF00000000) ||| (v.setWidth 64 &&& 0xFFFFFFFC) }
  | 1 => { e with addr := (e.addr &&& 0xFFFFFFFF) ||| (v.setWidth 64 <<< 32) }
  | 2 => { e with data := v }
  | _ => { e with mask := v.getLsbD 0 }

/-- MSIX_TABLE_WRITE (R409, R436): 64 entries of 16 bytes from offset 0 of BAR4; other offsets hold nothing writable. -/
def doMsixWrite (off v : W32) (s : State) : State :=
  if ready s && !s.mbx.perst && decide (off.toNat < 1024 ∧ off.toNat % 4 = 0) then
    let n := off.toNat / 16
    sendPending n { s with irq := { s.irq with table := s.irq.table.mod n (fun e => msixDword e (off.toNat % 16 / 4) v) } }
  else s
/-- MSIX_TABLE_WRITE (R436). -/
def execMsixTableWrite (off v : W32) (s : State) : Host.Outcome State Fault Refusal := finish s (doMsixWrite off v s)

/-- A TAIL taken relative to its HEAD (R517): ahead of HEAD is HEAD, too far behind is HEAD less the size. -/
def takeTail (head tail : W32) (size : Nat) : W32 :=
  let d := (head - tail).toInt
  if d < 0 then head else if (size : Int) < d then head - BitVec.ofNat 32 size else tail

/-- POUR_TAIL_WRITE (R517). -/
def doPourTail (r : Fin 32) (v : W32) (s : State) : State :=
  if ready s then { s with rings := s.rings.mod r (fun q => { q with tail := takeTail q.head v (2 ^ q.log2) }) } else s
/-- POUR_TAIL_WRITE (R517). -/
def execPourTailWrite (r : Fin 32) (v : W32) (s : State) : Host.Outcome State Fault Refusal := finish s (doPourTail r v s)

/-- EVT_TAIL_WRITE (R437, R517). -/
def doEvtTail (v : W32) (s : State) : State :=
  if ready s then { s with log := { s.log with tail := takeTail s.log.head v 4096 } } else s
/-- EVT_TAIL_WRITE (R517). -/
def execEvtTailWrite (v : W32) (s : State) : Host.Outcome State Fault Refusal := finish s (doEvtTail v s)

end Sys2Proof.Machine
end

