-- ==== Sys2Proof/Machine/Registers.lean ====
section
/-! DEFINITION. The two register windows: every register's read with its side effects, and its write by access codes (R6, R7, R409, R435,
R440, R471, R491, R512 to R522 and the field tables that Tables 22-3 and 22-4 name). -/
namespace Sys2Proof.Machine

/-- A read: the value, and the state after the read's side effects. -/
abbrev ReadOut := Nat × State

/-- A read without side effects. -/
def ro (v : Nat) (s : State) : ReadOut := (v, s)
/-- A 32-bit half of a 64-bit value. -/
def half (hi : Bool) (v : Nat) : Nat := if hi then v / 2 ^ 32 % 2 ^ 32 else v % 2 ^ 32
/-- A signed value in 16 bits. -/
def u16i (x : Int) : Nat := (BitVec.ofInt 16 x).toNat
/-- A signed value in 32 bits. -/
def u32i (x : Int) : Nat := (BitVec.ofInt 32 x).toNat

/-- MBX_READY (Table 18-16). -/
def readyReg (s : State) : Nat := b2n (ready s) + 2 * b2n (full s) + 4 * b2n (heritage s)
/-- MBX_RING_CTRL. -/
def ringReg (b : Mailbox) : Nat := b2n b.enable + 2 * b2n b.disabling + 4 * b2n b.enableHeld

/-- MBX_SCHED_STATUS (Table 2-11). -/
def schedReg (s : State) : Nat :=
  b2n (s.probs.any (fun e => decide (0 < e.2.level)))
  + 256 * (s.sets.filter (fun e => decide (e.1 < 64) && overloaded s e.1)).length
  + 2 ^ 16 * (s.probs.filter (fun e => e.2.st == .enabled)).length

/-- MBX_FAULT_STATUS (Table 20-7). -/
def faultReg (f : Faults) : Nat :=
  b2n (f.units.any (fun e => e.2.unresolved)) + 2 * b2n (f.units.any (fun e => e.2.state != 0)) + 4 * b2n f.limpSeen + 8 * b2n f.coolantLost
  + 16 * b2n f.recovery + 32 * f.recoveryCause + 128 * b2n f.testSession

/-- MBX_LIMP (Table 20-7). -/
def limpReg (f : Faults) : Nat := f.limpMin.toNat + 256 * b2n f.limpEnable + 2 ^ 16 * f.limpPorts.toNat

/-- STATE of SWX_PORT_STATUS. -/
def PortState.code : PortState → Nat
  | .disabled => 0 | .training => 1 | .up => 2 | .downing => 3
/-- SWX_PORT_STATUS (Table 15-11). -/
def portReg (q : Port) : Nat :=
  q.state.code + 8 * b2n q.enableHeld + 16 * b2n q.preemptActive + 32 * b2n (q.cfg.flags.getLsbD 2) + 2 ^ 10 * q.cfg.fec + 2 ^ 12 * q.cfg.mode
  + 2 ^ 16 * b2n q.linkChanged + 2 ^ 17 * b2n q.fecSeen + 2 ^ 18 * b2n (q.gate.isSome && q.gatePos.isNone)

/-- STATE of PLK_LINK_STATUS. -/
def LinkState.code : LinkState → Nat
  | .disabled => 0 | .training => 1 | .up => 2 | .draining => 3
/-- The link joins members of the peer group. -/
def joinsGroup (g : Group) (l : Nat) : Bool :=
  g.id != 0 && (g.links.zipIdx).any (fun x => x.1.toNat == l && decide (x.2 < g.n) && x.2 != g.rank.toNat)
/-- PLK_LINK_STATUS (Table 16-4). -/
def linkReg (s : State) (l : Nat) : Nat :=
  let k := link s l
  k.state.code + 256 * b2n (joinsGroup s.group l)
  + 512 * b2n (l == 0 && s.probs.any (fun e => e.2.twin.state == .forming || e.2.twin.state == .paired))
  + 1024 * b2n k.enableHeld + 2048 * b2n k.linkChanged + 4096 * (~~~(goodLanes s l)).toNat + 2 ^ 16 * k.lanes.toNat

/-- PWR_STATUS (Table 19-10). -/
def powerReg (s : State) : Nat :=
  let w := s.pwr
  w.power.code + 128 * govStep s + 1024 * b2n (!w.gov.isEmpty) + 2048 * b2n w.throttling + 2 ^ 16 * w.bank + 2 ^ 17 * b2n w.fallback
  + 2 ^ 18 * b2n w.unlocked + 2 ^ 19 * b2n (decide (0 < w.nv.sign)) + 2 ^ 20 * b2n (w.nv.sign == 2)

/-- Clear a counter of the switch on reading it. -/
def rcNet (v : W32) (f : Net → Net) (s : State) : ReadOut := (v.toNat, modNet f s)
/-- The same for a port. -/
def rcPort (p : Nat) (v : W32) (f : Port → Port) (s : State) : ReadOut := (v.toNat, modPort p f s)

/-- A port block's registers (Table 15-12). -/
def readPort (p o : Nat) (s : State) : ReadOut :=
  let q := port s p
  match o with
  | 0 => ro (portReg q) s
  | 4 => rcPort p q.drops (fun q => { q with drops := 0 }) s
  | 8 => rcPort p q.fecCorr (fun q => { q with fecCorr := 0 }) s
  | 12 => rcPort p q.fecUncorr (fun q => { q with fecUncorr := 0 }) s
  | 16 => rcPort p q.pourDropped (fun q => { q with pourDropped := 0 }) s
  | _ => ro 0 s

/-- A link block's registers (Table 16-5). -/
def readLink (l o : Nat) (s : State) : ReadOut :=
  let k := link s l
  match o with
  | 0 => ro (linkReg s l) s
  | 4 => (k.replays.toNat, modLink l (fun k => { k with replays := 0 }) s)
  | 8 => (k.creditWait.toNat, modLink l (fun k => { k with creditWait := 0 }) s)
  | 12 => ro (k.peerRank.toNat + 256 * k.peerGroup.toNat) s
  | _ => ro 0 s

/-- A pour ring's registers. -/
def readRing (r o : Nat) (s : State) : ReadOut :=
  let q := s.rings.get r
  match o with
  | 0 => ro q.head.toNat s
  | 4 => ro q.tail.toNat s
  | 8 => (q.dropped.toNat, { s with rings := s.rings.mod r (fun q => { q with dropped := 0 }) })
  | _ => ro 0 s

/-- The switch's device-wide counters at 0x2200. -/
def readSwitch (o : Nat) (s : State) : ReadOut :=
  let n := s.net
  match o with
  | 0 => rcNet n.yspDropped (fun n => { n with yspDropped := 0 }) s
  | 4 => rcNet n.notReadySent (fun n => { n with notReadySent := 0 }) s
  | 8 => rcNet n.notReadySupp (fun n => { n with notReadySupp := 0 }) s
  | 12 => rcNet n.statusSupp (fun n => { n with statusSupp := 0 }) s
  | 16 => rcNet n.qciDropped (fun n => { n with qciDropped := 0 }) s
  | 20 => rcNet n.cbDiscarded (fun n => { n with cbDiscarded := 0 }) s
  | _ => ro 0 s

/-- The power registers at 0x3000 (Table 19-10). -/
def readPower (o : Nat) (s : State) : Nat :=
  let w := s.pwr
  match o with
  | 0 => powerReg s
  | 4 => w.voltage % 2 ^ 16 + 2 ^ 16 * (w.meanMw / 100 % 2 ^ 16)
  | 8 => w.cap * 10 + 2 ^ 16 * (limitMw s / 100 % 2 ^ 16)
  | 12 => u16i w.edgeTj + 2 ^ 16 * u16i w.mainTj
  | 16 => pdWord s 0 | 20 => pdWord s 1 | 24 => pdWord s 2 | 28 => pdWord s 3
  | 32 => ((List.range 4).map (fun q => w.quadClk.getD q 1800 / 100 * 256 ^ q)).foldl (· + ·) 0
  | 36 => w.wakeCause.toNat
  | _ => 0

/-- The registers of the mailbox window below 0x100 (Table 18-16). -/
def readRingRegs (o : Nat) (s : State) : ReadOut :=
  let b := s.mbx
  match o with
  | 0x00 => ro 0x64800100 s
  | 0x04 => ro (readyReg s) s
  | 0x08 => ro (ringReg b) s
  | 0x10 => ro (half false b.cmdBase.toNat) s
  | 0x14 => ro (half true b.cmdBase.toNat) s
  | 0x18 => ro b.cmdTail.toNat s
  | 0x1C => ro (b.cmdHead.toNat + 256 * b2n b.cmdPhase) s
  | 0x20 => ro (half false b.cplBase.toNat) s
  | 0x24 => ro (half true b.cplBase.toNat) s
  | 0x28 => ro (b.cplHead.toNat + 256 * b2n b.cplPhase) s
  | 0x2C => ro b.cplTail.toNat s
  | 0x30 => (half false b.accepted.toNat, modMbx (fun b => { b with acceptHi := BitVec.ofNat 32 (half true b.accepted.toNat) }) s)
  | 0x34 => ro b.acceptHi.toNat s
  | 0x38 => ro (inFlight s % 128) s
  | 0x3C => ro (b.acceptPcie.toNat + 2 ^ 16 * b.acceptMgmt.toNat) s
  | 0x40 => (b.frameDropped.toNat, modMbx (fun b => { b with frameDropped := 0 }) s)
  | _ => ro 0 s

/-- A register of the mailbox window (Table 22-3); a reserved offset reads as zero (R513). -/
def readMailbox (o : Nat) (s : State) : ReadOut :=
  if o < 0x100 then readRingRegs o s
  else if o < 0x1C0 then ro (irqMap s ((o - 0x100) / 4)).toNat s
  else if o = 0x1C0 then ro (half false s.irq.status.toNat) s
  else if o = 0x1C4 then ro (half true s.irq.status.toNat) s
  else if 0x400 ≤ o ∧ o < 0x600 then readRing ((o - 0x400) / 16) (o % 16) s
  else if o = 0xA00 then (s.mbx.shedTotal.toNat, modMbx (fun b => { b with shedTotal := 0 }) s)
  else if o = 0xA04 then ro s.mbx.shedInterval.toNat s
  else if o = 0xA08 then ro (schedReg s) s
  else if o = 0xB00 then ro (limpReg s.faults) s
  else if o = 0xB04 then ro (faultReg s.faults) s
  else if 0x2000 ≤ o ∧ o < 0x2200 then readPort ((o - 0x2000) / 32) (o % 32) s
  else if 0x2200 ≤ o ∧ o < 0x2218 then readSwitch (o - 0x2200) s
  else if 0x2800 ≤ o ∧ o < 0x2900 then readLink ((o - 0x2800) / 32) (o % 32) s
  else if 0x3000 ≤ o ∧ o < 0x3028 then ro (readPower (o - 0x3000) s) s
  else ro 0 s

/-- STATE of LE_STATUS. -/
def LoopState.code : LoopState → Nat
  | .stopped => 0 | .running => 1 | .stopping => 2
/-- LE_STATUS (Table 12-5). -/
def loopReg (e : Edge) (n : Nat) : Nat :=
  let l := loopN e n
  l.state.code + 8 * b2n l.startHeld + 16 * b2n l.inControl + 32 * b2n l.clamped + 64 * b2n (slotStale e (l.cfg 9 4)) + 128 * b2n l.fallback
  + 256 * b2n l.safeLatched + 512 * b2n l.cfgIgnored + 1024 * b2n l.cfgErr + 2048 * b2n l.limitsInverted + 4096 * b2n l.pvFault
  + 8192 * b2n (!l.queue.isEmpty)

/-- A loop block's registers (Tables 12-4 and 12-5). -/
def readLoop (e : Edge) (n o : Nat) : Nat :=
  let l := loopN e n
  if o < 0x3C then (l.written.getD (o / 4) 0).toNat
  else match o with
    | 0x40 => b2n l.run + 2 * b2n l.hold
    | 0x44 => loopReg e n
    | 0x48 => u16i l.u + 2 ^ 16 * u16i l.sp
    | 0x4C => u32i (l.integ / 256)
    | _ => 0

/-- A selector's registers (Table 12-6). -/
def readSel (e : Edge) (m o : Nat) : Nat :=
  let x := e.sels.get m
  match o with
  | 0 => x.members.toNat
  | 4 => x.cfg.toNat
  | 8 => u16i x.u + 2 ^ 16 * x.chosen + 2 ^ 31 * b2n ((bitsOf x.members.toNat 32).any (fun n => (loopN e n).state != .stopped))
  | _ => 0

/-- A slot's registers (Table 12-6). -/
def readSlot (e : Edge) (k o : Nat) : Nat :=
  let own := slotOwner e k
  if o = 0 then
    u16i (e.slots.get k) + 2 ^ 16 * b2n (slotStale e k) + (match own with | some b => 2 ^ 17 * b.1 + 2 ^ 31 | none => 0)
  else match own.bind (fun b => b.2.fresh) with
    | some t => min 0xFFFFFFFF ((e.tick - t) / 200)
    | none => 0xFFFFFFFF

/-- LE_BOOT (Table 12-6). -/
def bootReg (e : Edge) : Nat :=
  e.bootProfile.getD 0 + 8 * b2n e.bootProfile.isNone + 16 * b2n e.bootInvalid + 32 * b2n e.bootStarted

/-- The field I/O registers (Tables 13-5 and 13-6); QUAD_ERR is cleared on reading. -/
def readFio (o : Nat) (s : State) : ReadOut :=
  let e := s.edge
  let i := o % 256 / 16
  if o = 0x400 then ro (supplyReg e).toNat s
  else if 8 ≤ i then ro 0 s
  else match o / 256, o % 16 with
    | 0, 0 => ro (ainStatus e i).toNat s
    | 0, 4 => ro (u16i (ainCode e i)) s
    | 1, 0 => ((pinStatus e i).toNat, modEdge (fun e => { e with pins := e.pins.mod i (fun a => { a with quadErr := 0 }) }) s)
    | 1, 4 => ro (e.pins.get i).count.toNat s
    | 2, 0 => ro (aoutStatus e i).toNat s
    | 2, 4 => ro (u16i (e.aouts.get i).set) s
    | 3, 0 => ro (doutStatus e i).toNat s
    | 3, 4 => ro (u16i (e.douts.get i).set) s
    | _, _ => ro 0 s

/-- TBU_TB_STATUS (Table 14-6). -/
def tbReg (b : TBase) : Nat :=
  let valid := b.slavePort.isSome && (b.state == .acquiring || b.state == .locked)
  b.state.code + 8 * b2n valid + 16 * b2n (b.state == .free && b.source != 0) + 32 * b2n b.partner.isSome + 64 * b2n b.standby
  + 128 * b2n b.converging + 256 * b2n b.stepped + 512 * b2n b.switched + 1024 * b2n b.switchBlocked + 2048 * b2n b.held.isSome
  + 2 ^ 16 * b.domain + 2 ^ 24 * (if valid then b.slavePort.getD 0 else 0) + 2 ^ 28 * b.partner.getD 0

/-- The time registers (Tables 14-5 and 14-6), from 0x0003_0000. -/
def readTime (o : Nat) (s : State) : ReadOut :=
  let t := s.time
  if o = 0 then (half false s.lt, latchTimes s)
  else if o = 4 then ro (half true t.latchLt) s
  else if o = 0x10 then (t.unparsed.toNat, { s with time := { t with unparsed := 0 } })
  else if o = 0x14 then (t.ignored.toNat, { s with time := { t with ignored := 0 } })
  else if 0x100 ≤ o ∧ o < 0x200 then
    let n := (o - 0x100) / 64
    let b := tbase s n
    let v := t.latchTb.getD n 0
    match o % 64 with
    | 0x00 => ro (half false (v / 2 ^ 40)) s
    | 0x04 => ro (half true (v / 2 ^ 40)) s
    | 0x08 => ro (v / 2 ^ 24 % 2 ^ 16) s
    | 0x0C => ro (tbReg b) s
    | 0x10 => ro (u32i b.rate) s
    | 0x14 => ro (u32i b.offset) s
    | 0x18 => (b.switches.toNat + 2 ^ 16 * b.steps.toNat, modTb n (fun b => { b with steps := 0, switches := 0 }) s)
    | _ => ro 0 s
  else ro 0 s

/-- Sum over the classes of an arbiter. -/
def sumClasses (f : Nat → Nat) : Nat := ((List.range 8).map f).foldl (· + ·) 0

/-- An arbiter's registers (Table 17-13). -/
def readArb (a o : Nat) (s : State) : ReadOut :=
  let x := arb s a
  match o with
  | 0x00 => ro (b2n x.freeze + 256 * b2n x.irqEn) s
  | 0x04 => ro (b2n x.freeze + 2 * b2n x.drained + 4 * b2n (emergency s a) + 256 * x.pointer + 2 ^ 16 * sumClasses (fun c => 2 ^ c * b2n (x.pends c))
      + 2 ^ 24 * x.starved.toNat) s
  | 0x08 => ro x.weights.toNat s
  | 0x0C => ro x.limit.toNat s
  | 0x30 => ro (sumClasses (fun c => 16 ^ c * x.depth c)) s
  | _ =>
    if 0x10 ≤ o ∧ o < 0x30 then
      let c := (o - 0x10) / 4
      ((x.cnt.getD c 0).toNat, modArb a (fun x => { x with cnt := x.cnt.set c 0 }) s)
    else ro 0 s

/-- ARB_SUMMARY (Table 17-14). -/
def summaryReg (s : State) (w : Nat) : Nat :=
  ((s.arbs.filter (fun e => e.1 / 32 == w && e.2.starved != 0)).map (fun e => 2 ^ (e.1 % 32))).foldl (· + ·) 0

/-- An event-log entry's bytes (R438, Table 22-5). -/
def entryBytes' (e : EvtEntry) : List Byte := wBytes 8 e.lt ++ wBytes 4 e.seq ++ wBytes 2 e.code ++ wBytes 2 e.arg ++ padTo 48 e.data

/-- The event-log registers (Table 18-17), from 0x0005_0000. -/
def readLog (o : Nat) (s : State) : ReadOut :=
  match o with
  | 0 => ro s.log.head.toNat s
  | 4 => ro s.log.tail.toNat s
  | 8 => ro (b2n s.log.overrun) s
  | 12 => (s.log.lost.toNat, { s with log := { s.log with lost := 0 } })
  | _ => ro 0 s

/-- A register of the direct window (Table 22-4); LE_ and FIO_ registers lie on the edge die. -/
def readDirect (o : Nat) (s : State) : ReadOut :=
  let e := s.edge
  if o < 0x20000 then ro 0 s
  else if o < 0x30000 then
    if !e.on then ro 0 s
    else if o < 0x21000 then ro (readLoop e ((o - 0x20000) / 128) (o % 128)) s
    else if o < 0x21080 then ro (readSel e ((o - 0x21000) / 16) (o % 16)) s
    else if 0x21100 ≤ o ∧ o < 0x21300 then ro (readSlot e ((o - 0x21100) / 8) (o % 8)) s
    else if o = 0x21400 then (half false e.tick, modEdge (fun e => { e with tickHi := BitVec.ofNat 32 (half true e.tick) }) s)
    else if o = 0x21404 then ro e.tickHi.toNat s
    else if o = 0x21408 then ro (bootReg e) s
    else if 0x22000 ≤ o ∧ o ≤ 0x22400 then readFio (o - 0x22000) s
    else ro 0 s
  else if o < 0x40000 then readTime (o - 0x30000) s
  else if o < 0x43280 then readArb ((o - 0x40000) / 64) (o % 64) s
  else if 0x44000 ≤ o ∧ o < 0x4401C then ro (summaryReg s ((o - 0x44000) / 4)) s
  else if 0x50000 ≤ o ∧ o < 0x50010 then readLog (o - 0x50000) s
  else if 0x60000 ≤ o ∧ o < 0xA0000 then ro (u32 (entryBytes' (s.log.entries.get ((o - 0x60000) / 64))) (o % 64)) s
  else ro 0 s

/-- One 32-bit read of the aligned word that an offset lies in (R512, R519). Its clearing comes in queue order (R7, R516; log entry 147). -/
def readReg (win : Window) (o : Nat) (s : State) : W32 × State :=
  let r := match win with | .mailbox => readMailbox (o / 4 * 4) s | .direct => readDirect (o / 4 * 4) s
  (BitVec.ofNat 32 r.1, r.2)

/-- Bits of a word that a write of ones clears. -/
def w1c {w : Nat} (old : BitVec w) (v lo : Nat) : BitVec w := old &&& ~~~(BitVec.ofNat w (v / 2 ^ lo))

/-- A half of a ring base, writable only while the ring is not enabled (R414). -/
def writeBase (old : W64) (hi : Bool) (v : Nat) : W64 :=
  if hi then BitVec.ofNat 64 (old.toNat % 2 ^ 32 + 2 ^ 32 * v) else BitVec.ofNat 64 (old.toNat / 2 ^ 32 * 2 ^ 32 + v / 4096 * 4096)

/-- Writes below 0x100 of the mailbox window (Table 18-16). -/
def writeRingRegs (o v : Nat) (s : State) : State :=
  let base (f : Mailbox → Mailbox) : State := if s.mbx.enable then s else modMbx f s
  match o with
  | 0x08 => modMbx (if v.testBit 0 then ringOn else ringOff) s
  | 0x10 => base (fun b => { b with cmdBase := writeBase b.cmdBase false v })
  | 0x14 => base (fun b => { b with cmdBase := writeBase b.cmdBase true v })
  | 0x18 => modMbx (fun b => { b with cmdTail := BitVec.ofNat 8 v }) s
  | 0x20 => base (fun b => { b with cplBase := writeBase b.cplBase false v })
  | 0x24 => base (fun b => { b with cplBase := writeBase b.cplBase true v })
  | 0x2C => modMbx (fun b => { b with cplTail := BitVec.ofNat 8 v }) s
  | _ => s

/-- A write of a map register (R435): EN and VECTOR. -/
def writeMap (k v : Nat) (s : State) : State := { s with irq := { s.irq with map := s.irq.map.set k (BitVec.ofNat 8 v &&& 0xBF) } }

/-- A write of SWX_PORT_STATUS clears its W1C bits. -/
def writePort (p v : Nat) (s : State) : State :=
  modPort p (fun q => { q with linkChanged := q.linkChanged && !v.testBit 16, fecSeen := q.fecSeen && !v.testBit 17 }) s

/-- A register of the mailbox window written whole (Table 22-3). -/
def writeMailbox (o v : Nat) (s : State) : State :=
  if o < 0x100 then writeRingRegs o v s
  else if o < 0x1C0 then writeMap ((o - 0x100) / 4) v s
  else if o = 0x1C0 then { s with irq := { s.irq with status := w1c s.irq.status v 0 } }
  else if o = 0x1C4 then { s with irq := { s.irq with status := s.irq.status &&& ~~~(BitVec.ofNat 48 (2 ^ 32 * v)) } }
  else if 0x400 ≤ o ∧ o < 0x600 then
    if o % 16 = 4 then { s with rings := s.rings.mod ((o - 0x400) / 16) (fun q => { q with tail := takeTail q.head (BitVec.ofNat 32 v) (2 ^ q.log2) }) } else s
  else if o = 0xA04 then modMbx (fun b => { b with shedInterval := BitVec.ofNat 24 v, shedStart := s.lt }) s
  else if o = 0xB00 then modFaults (fun f => { f with limpMin := BitVec.ofNat 8 v, limpEnable := v.testBit 8, limpPorts := BitVec.ofNat 16 (v / 2 ^ 16) }) s
  else if o = 0xB04 then modFaults (fun f => { f with limpSeen := f.limpSeen && !v.testBit 2 }) s
  else if 0x2000 ≤ o ∧ o < 0x2200 ∧ o % 32 = 0 then writePort ((o - 0x2000) / 32) v s
  else if 0x2800 ≤ o ∧ o < 0x2900 ∧ o % 32 = 0 then modLink ((o - 0x2800) / 32) (fun k => { k with linkChanged := k.linkChanged && !v.testBit 11 }) s
  else if o = 0x3024 then modPwr (fun w => { w with wakeCause := w1c w.wakeCause v 0 }) s
  else s

/-- A write of a loop block's register (R278, R280, R281, R283). -/
def writeLoop (n o v : Nat) (e : Edge) : Edge :=
  if o < 0x3C then e.modLoop n (writeWord e.tick (o / 4) (BitVec.ofNat 32 v))
  else match o with
    | 0x40 =>
      let e := if (loopN e n).hold == v.testBit 1 then e else e.modLoop n (writeHold e.tick (v.testBit 1))
      let e := if v.testBit 2 then e.modLoop n (writeClear e.tick) else e
      if (loopN e n).run == v.testBit 0 then e else writeRun n (v.testBit 0) e
    | 0x44 => e.modLoop n (fun l => { l with
        cfgIgnored := l.cfgIgnored && !v.testBit 9, cfgErr := l.cfgErr && !v.testBit 10, limitsInverted := l.limitsInverted && !v.testBit 11
        pvFault := l.pvFault && !v.testBit 12 })
    | _ => e

/-- A write of a field I/O register (R296, Table 13-5). -/
def writeFio (o v : Nat) (s : State) : State :=
  let i := o % 256 / 16
  if 8 ≤ i then s
  else match o / 256, o % 16 with
    | 0, 0 => modEdge (fun e => { e with ains := e.ains.mod i (fun a => { a with seen := w1c a.seen v 8 }) }) s
    | 1, 0 => modEdge (fun e => { e with pins := e.pins.mod i (fun a => { a with seen := a.seen && !v.testBit 8 }) }) s
    | 2, 0 => modEdge (fun e => { e with aouts := e.aouts.mod i (fun a => { a with seen := w1c a.seen v 8, ignored := a.ignored && !v.testBit 17 }) }) s
    | 2, 4 => writeSet true i (BitVec.ofNat 32 v) s
    | 3, 0 => modEdge (fun e => { e with douts := e.douts.mod i (fun a => { a with seen := w1c a.seen v 8, ignored := a.ignored && !v.testBit 17 }) }) s
    | 3, 4 => writeSet false i (BitVec.ofNat 32 v) s
    | _, _ => s

/-- A write of a time-base register (Table 14-6). -/
def writeTime (n o v : Nat) (s : State) : State :=
  match o with
  | 0x0C => modTb n (fun b => { b with
      stepped := b.stepped && !v.testBit 8, switched := b.switched && !v.testBit 9, switchBlocked := b.switchBlocked && !v.testBit 10 }) s
  | 0x10 => writeRate n (BitVec.ofNat 32 v) s
  | _ => s

/-- A write of an arbiter's register (Table 17-13). -/
def writeArb (a o v : Nat) (s : State) : State :=
  match o with
  | 0x00 => modArb a (fun x => { x with freeze := v.testBit 0, irqEn := v.testBit 8 }) s
  | 0x04 => modArb a (fun x => { x with starved := w1c x.starved v 24 }) s
  | 0x08 => modArb a (fun x => { x with weights := BitVec.ofNat 32 v }) s
  | 0x0C => modArb a (fun x => { x with limit := BitVec.ofNat 16 v }) s
  | _ => s

/-- A register of the direct window written whole (Table 22-4). -/
def writeDirect (o v : Nat) (s : State) : State :=
  if o < 0x20000 then s
  else if o < 0x30000 then
    if !s.edge.on then s
    else if o < 0x21000 then modEdge (writeLoop ((o - 0x20000) / 128) (o % 128) v) s
    else if o < 0x21080 then
      (match o % 16 with
       | 0 => modEdge (writeSel ((o - 0x21000) / 16) false (BitVec.ofNat 32 v)) s
       | 4 => modEdge (writeSel ((o - 0x21000) / 16) true (BitVec.ofNat 32 v)) s
       | _ => s)
    else if 0x22000 ≤ o ∧ o < 0x22400 then writeFio (o - 0x22000) v s
    else s
  else if 0x30100 ≤ o ∧ o < 0x30200 then writeTime ((o - 0x30100) / 64) (o % 64) v s
  else if 0x40000 ≤ o ∧ o < 0x43280 then writeArb ((o - 0x40000) / 64) (o % 64) v s
  else if o = 0x50004 then { s with log := { s.log with tail := takeTail s.log.head (BitVec.ofNat 32 v) 4096 } }
  else if o = 0x50008 then { s with log := { s.log with overrun := s.log.overrun && !v.testBit 0 } }
  else s

/-- One 32-bit write of the aligned word that an offset lies in (R6, R512). Its clearing comes in queue order (R7, R516; log entry 147). -/
def writeReg (win : Window) (o : Nat) (v : W32) (s : State) : State :=
  match win with | .mailbox => writeMailbox (o / 4 * 4) v.toNat s | .direct => writeDirect (o / 4 * 4) v.toNat s

/-- Reads of `n` words in ascending offset (R411, R512). -/
def readWords (win : Window) (o : Nat) : Nat → State → List Byte × State
  | 0, s => ([], s)
  | n + 1, s =>
    let r := readReg win o s
    let q := readWords win (o + 4) n r.2
    (wBytes 4 r.1 ++ q.1, q.2)

/-- The bytes that a read of `n` words from any offset returns: every aligned word it covers is read whole (R512). -/
def readSpan (win : Window) (o n : Nat) (s : State) : List Byte × State :=
  let r := readWords win o ((o % 4 + 4 * n + 3) / 4) s
  ((r.1.drop (o % 4)).take (4 * n), r.2)

/-- Writes of words in ascending offset. -/
def writeWords (win : Window) : Nat → List (List Byte) → State → State
  | _, [], s => s
  | o, w :: ws, s => writeWords win (o + 4) ws (writeReg win o (BitVec.ofNat 32 (u32 w 0)) s)

/-- A write of bytes from any offset: every aligned word it covers whole is written, the others are ignored (R512). -/
def writeSpan (win : Window) (o : Nat) (bs : List Byte) (s : State) : State :=
  let skip := (4 - o % 4) % 4
  let body := bs.drop skip
  writeWords win (o + skip) (chunks 4 (body.length / 4) body) s

/-- A PCIe access reaches the windows: Rankoaz is ready and the link is up (R410, R506, R519). -/
def pcieOpen (s : State) : Bool := ready s && !s.mbx.perst

/-- A PCIe read of one register. -/
def doRegRead (win : Window) (o : Nat) (s : State) : State :=
  if pcieOpen s then let r := readReg win o s; emit (.pcieRead [r.1]) r.2 else s

/-- LO_LATCH_READ (R515): MBX_ACCEPT_LO, or LE_TICK_LO. -/
def doLoLatch (accept : Bool) (s : State) : State := if accept then doRegRead .mailbox 0x30 s else doRegRead .direct 0x21400 s

/-- REGISTER_WRITE (R6, R512): a word whose byte enables do not cover it is ignored. -/
def doRegWrite (win : Window) (o v : W32) (en : BitVec 4) (s : State) : State := when (pcieOpen s && en == 15) (writeReg win o.toNat v) s

/-- LO_LATCH_READ (R515). -/
def execLoLatchRead (accept : Bool) (s : State) : Host.Outcome State Fault Refusal := finish s (doLoLatch accept s)
/-- REGISTER_READ_CLEAR (R516): a PCIe read of any register of a window, with its side effects. -/
def execRegisterReadClear (win : Window) (o : W32) (s : State) : Host.Outcome State Fault Refusal := finish s (doRegRead win o.toNat s)
/-- REGISTER_WRITE (R6). -/
def execRegisterWrite (win : Window) (o v : W32) (en : BitVec 4) (s : State) : Host.Outcome State Fault Refusal := finish s (doRegWrite win o v en s)

end Sys2Proof.Machine
end

