-- ==== Sys2Proof/Machine/Frames.lean ====
section
/-! DEFINITION. Mailbox frames of the management port: registers, commands and the exchange buffer (R411 to R413, Table 18-3). -/
namespace Sys2Proof.Machine

/-- A mailbox frame that fails a check of R412 is dropped silently and counted. -/
def dropFrame (s : State) : State := modMbx (fun b => { b with frameDropped := satInc b.frameDropped }) s

/-- R412: the switch core's NOT_READY to a mailbox frame before Rankoaz is ready, one per source MAC in any 10 ms (R337). -/
def notReadyFrame (f : FrameIn) (s : State) : State :=
  if rateOk (s.mbx.notReadyAt.get? f.src.mac.toNat) s.lt 10000000 then
    emit (.frame (addressed s f.src) (mbxFrame 0x86 f.seq.toNat (leBytes 4 (retryAfter s) ++ zeros 4)))
      (modNet (fun n => { n with notReadySent := satInc n.notReadySent })
        (modMbx (fun b => { b with notReadyAt := b.notReadyAt.set f.src.mac.toNat s.lt }) s))
  else modNet (fun n => { n with notReadySupp := satInc n.notReadySupp }) s

/-- A frame addressed to the device on its way to the mailbox: the port, MAGIC and VERSION (Table 15-10), readiness, then the checks of
R412, of which `good` is the part that the type gives. A frame with the MAGIC of YSP is no mailbox frame. -/
def frameFront (good : Bool) (f : FrameIn) (body : State → State) (s : State) : State :=
  if f.magic = 0x5359 then s
  else arrive f (fun s =>
    if !(port s f.src.port.val).cfg.flags.getLsbD 2 || f.runt || f.magic != 0x4D59 || f.version != 1 then dropYsp s
    else if !ready s then notReadyFrame f s
    else if decide (f.length.toNat ≠ f.payload.length ∨ f.client ≠ 0 ∨ f.flags ≠ 0 ∨ f.rsvd ≠ 0) || !good then dropFrame s
    else body (modMbx (fun b => { b with lastSrc := some f.src }) s)) s

/-- Answer a frame to its source addresses (R412). -/
def answer (f : FrameIn) (type : Nat) (payload : List Byte) (s : State) : State := emit (.frame (addressed s f.src) (mbxFrame type f.seq.toNat payload)) s

/-- WINDOW of a READ or WRITE payload. -/
def winOf (pl : List Byte) : Window := if u8 pl 0 = 2 then .direct else .mailbox
/-- WINDOW, reserved bytes and COUNT of a READ or WRITE payload of which COUNT words follow the first 12 bytes if `data`. -/
def accessGood (data : Bool) (pl : List Byte) : Bool :=
  let n := u32 pl 8
  decide ((u8 pl 0 = 0 ∨ u8 pl 0 = 2) ∧ 1 ≤ n ∧ n ≤ 256 ∧ pl.length = 12 + (if data then 4 * n else 0)) && zeroAt pl 1 3

/-- MBX_FRAME_READ (R411, R412). -/
def doFrameRead (f : FrameIn) (s : State) : State :=
  frameFront (accessGood false f.payload) f (fun t =>
    let r := readSpan (winOf f.payload) (u32 f.payload 4) (u32 f.payload 8) t
    answer f 0x81 (f.payload.take 12 ++ r.1) r.2) s

/-- MBX_FRAME_WRITE (R411, R412). -/
def doFrameWrite (f : FrameIn) (s : State) : State :=
  frameFront (accessGood true f.payload) f (fun t =>
    answer f 0x82 (f.payload.take 12) (writeSpan (winOf f.payload) (u32 f.payload 4) (f.payload.drop 12) t)) s

/-- One descriptor of a frame: accepted in the frame's order while there is room (R412, R418). -/
def takeDesc (f : FrameIn) (bs : List Byte) (s : State) : State :=
  let m := parseDesc .mgmt f.src f.seq 0xFFFF none bs
  if hasRoom s && s.mbx.arrived.isEmpty then accept m s else modMbx (fun b => { b with arrived := b.arrived ++ [m] }) s

/-- MBX_FRAME_COMMAND (R412): 1 to 16 descriptors. -/
def doFrameCommand (f : FrameIn) (s : State) : State :=
  let n := f.payload.length / 64
  frameFront (decide (f.payload.length = 64 * n ∧ 1 ≤ n ∧ n ≤ 16)) f (fun t => forAll (chunks 64 n f.payload) (takeDesc f) t) s

/-- OFFSET and COUNT of an exchange-buffer access: inside 64 MiB, 8 to 8,192 bytes, a multiple of 8 (R413). -/
def spanGood (off n : Nat) : Bool := decide (8 ≤ n ∧ n ≤ 8192 ∧ n % 8 = 0 ∧ off + n ≤ 2 ^ 26)

/-- BUF_WRITE (R413). -/
def doBufWrite (f : FrameIn) (s : State) : State :=
  let off := u64 f.payload 0
  let n := f.payload.length - 8
  frameFront (spanGood off n) f (fun t =>
    answer f 0x84 (leBytes 8 off ++ leBytes 4 n ++ zeros 4) (post .xbuf off (f.payload.drop 8) t)) s

/-- BUF_READ (R413). -/
def doBufRead (f : FrameIn) (s : State) : State :=
  let off := u64 f.payload 0
  let n := u32 f.payload 8
  frameFront (decide (f.payload.length = 16) && spanGood off n && zeroAt f.payload 12 4) f (fun t =>
    answer f 0x85 (leBytes 8 off ++ leBytes 4 n ++ zeros 4 ++ (memView t .xbuf).readBytes off n) t) s

/-- A frame whose TYPE neither protocol gives a master or client: STATUS YSP_TYPE (R351), or for the MAGIC of the mailbox a silent drop
(R412). -/
def doUnknown (type : Byte) (f : FrameIn) (s : State) : State :=
  if f.magic = 0x4D59 then (if 1 ≤ type.toNat ∧ type.toNat ≤ 5 then s else frameFront false f id s) else doUnknownType type f s

/-- MBX_FRAME_READ (R411). -/
def execMbxFrameRead (f : FrameIn) (s : State) : Host.Outcome State Fault Refusal := finish s (doFrameRead f s)
/-- MBX_FRAME_WRITE (R411). -/
def execMbxFrameWrite (f : FrameIn) (s : State) : Host.Outcome State Fault Refusal := finish s (doFrameWrite f s)
/-- MBX_FRAME_COMMAND (R412). -/
def execMbxFrameCommand (f : FrameIn) (s : State) : Host.Outcome State Fault Refusal := finish s (doFrameCommand f s)
/-- BUF_WRITE (R413). -/
def execBufWrite (f : FrameIn) (s : State) : Host.Outcome State Fault Refusal := finish s (doBufWrite f s)
/-- BUF_READ (R413). -/
def execBufRead (f : FrameIn) (s : State) : Host.Outcome State Fault Refusal := finish s (doBufRead f s)
/-- YSP_UNKNOWN_TYPE (R351). -/
def execYspUnknownType (type : Byte) (f : FrameIn) (s : State) : Host.Outcome State Fault Refusal := finish s (doUnknown type f s)

end Sys2Proof.Machine
end

