-- ==== Sys2Proof/Machine/Start.lean ====
section
/-! DEFINITION. COMMAND_START: a waiting command starts, by its opcode (R420 to R422, Table 18-7). -/
namespace Sys2Proof.Machine

/-- An OPCODE outside Table 18-7 (R422). -/
def effBad (_ : Cmd) (s : State) : State × Reply := (s, .done stBadOpcode [])

/-- The commands of group 0x01. -/
def effects1 : List (W16 × (Cmd → State → State × Reply)) :=
  [(0x0101, effDeviceInfo),
   (0x0102, effNop),
   (0x0110, effMemStatus),
   (0x0120, effLeaseTable),
   (0x0121, effLeaseRevoke),
   (0x0122, effClientReset)]
/-- The commands of group 0x02. -/
def effects2 : List (W16 × (Cmd → State → State × Reply)) :=
  [(0x0201, effImageLoad),
   (0x0202, effImageUnload),
   (0x0203, effInfuse),
   (0x0204, effImageInfo),
   (0x0205, effWarmSource)]
/-- The commands of group 0x03. -/
def effects3 : List (W16 × (Cmd → State → State × Reply)) :=
  [(0x0301, effEnable),
   (0x0302, effRetire),
   (0x0303, effSolve),
   (0x0304, effStats),
   (0x0305, effIterate),
   (0x0306, effJduQuery),
   (0x0307, effEstimatorSet),
   (0x0308, effMeasurePut),
   (0x0309, effEstimatorRead),
   (0x030A, effTrapRead),
   (0x030B, effScalarFlags),
   (0x030C, effOrderMode),
   (0x030D, effCkptSave),
   (0x030E, effCkptResume),
   (0x030F, effOrderStatus),
   (0x0310, effOrderDigest),
   (0x0311, effPlace),
   (0x0312, effPlaceRead),
   (0x0313, effPourRing)]
/-- The commands of group 0x04. -/
def effects4 : List (W16 × (Cmd → State → State × Reply)) :=
  [(0x0401, effTrainSet),
   (0x0403, effTrainStop),
   (0x0404, effRollback),
   (0x0405, effTrainStatus),
   (0x0410, effTensorFlags)]
/-- The commands of group 0x05. -/
def effects5 : List (W16 × (Cmd → State → State × Reply)) :=
  [(0x0501, effTbEnable),
   (0x0502, effTbDisable),
   (0x0503, effTbStep),
   (0x0504, effTbPair),
   (0x0510, effPortSet),
   (0x0511, effPortEnable),
   (0x0512, effPortDisable),
   (0x0513, effClientSet),
   (0x0514, effGateSet),
   (0x0515, effStreamSet),
   (0x0516, effPourStream),
   (0x0520, effPlkEnable),
   (0x0521, effPlkDisable),
   (0x0522, effGroupSet),
   (0x0523, effTwinSet),
   (0x0524, effTwinStatus)]
/-- The commands of group 0x06. -/
def effects6 : List (W16 × (Cmd → State → State × Reply)) :=
  [(0x0601, effLoopStart),
   (0x0602, effLoopStop),
   (0x0603, effSlotMap),
   (0x0604, effProfileWrite),
   (0x0605, effProfileLoad),
   (0x0606, effProfileBoot),
   (0x0607, effFioWrite),
   (0x0608, effFioRead),
   (0x0609, effClearLatch)]
/-- The commands of group 0x07. -/
def effects7 : List (W16 × (Cmd → State → State × Reply)) :=
  [(0x0701, effPowerState),
   (0x0702, effPowerCap),
   (0x0703, effPowerStatus),
   (0x0704, effKettleSet),
   (0x0705, effKeySlot),
   (0x0706, effSignRequire),
   (0x0707, effFirmware)]
/-- The commands of group 0x08. -/
def effects8 : List (W16 × (Cmd → State → State × Reply)) :=
  [(0x0801, effSelfTest),
   (0x0802, effFence),
   (0x0803, effUnfence),
   (0x0804, effFaultLog),
   (0x0805, effRecoveryEnter),
   (0x0806, effRecoveryExit),
   (0x0807, effTestBegin),
   (0x0808, effTestEnd)]

/-- The effects of Table 18-7. -/
def effects : List (W16 × (Cmd → State → State × Reply)) :=
  effects1 ++ effects2 ++ effects3 ++ effects4 ++ effects5 ++ effects6 ++ effects7 ++ effects8

/-- The effect of an opcode. -/
def effectOf (op : W16) : Cmd → State → State × Reply := ((effects.find? (fun e => e.1 == op)).map Prod.snd).getD effBad

/-- COMMAND_START (R420): the waiting command of an acceptance number starts when its locks are free and no fence holds it. -/
def doCommandStart (n : W64) (s : State) : State :=
  match s.mbx.waiting.find? (fun w => w.acceptNo == n) with
  | some m => if ready s && canStart m s then startCmd (effectOf m.op) m s else s
  | none => s
/-- COMMAND_START (R420). -/
def execCommandStart (n : W64) (s : State) : Host.Outcome State Fault Refusal := finish s (doCommandStart n s)

end Sys2Proof.Machine
end

