-- ==== Sys2Proof/Machine/Ysp.lean ====
section
/-! DEFINITION. INFUSE, SOLVE and MEASURE frames of clients (R76, R77, R350, R351, R429). -/
namespace Sys2Proof.Machine

/-- An INFUSE fragment after the checks of its header: its own checks, the lease test, its group (R76 to R78, R350). -/
def takeInfuse (f : FrameIn) (s : State) : State :=
  let bs := f.payload
  let h := parseHdr bs
  let c := f.client.toNat
  let no (st : Status) (s : State) : State := refuse c 1 st f.seq (some h.problem) (some h.seq) s
  if h.client ≠ c then no stInfuseMalformed s
  else match firstFail (fragmentChecks bs) with
    | some st => no st s
    | none =>
      if !leaseValid s h.lease f.client (BitVec.ofNat 32 h.epoch) h.problem then no stLeaseInvalid s
      else
        let s := touchLease h.lease s
        if (prob s h.problem).st = .empty then no stNotLoaded s
        else
          let r := takeFragment bs (f.flags.getLsbD 0) s
          match r.2 with
          | .status st => no st r.1
          | .held => r.1
          | .complete es ack =>
            let g := completeGroup h.problem es r.1
            if g.2 ≠ stOk then no g.2 g.1
            else if ack then toClient c 0x81 (statusPayload 1 stOk f.seq h.problem h.seq (prob g.1 h.problem).commitSeq) g.1
            else g.1

/-- YSP_INFUSE (R350). -/
def doYspInfuse (f : FrameIn) (s : State) : State := yspFront 1 true (24 + 16 * (parseHdr f.payload).count) false f (takeInfuse f) s

/-- A SOLVE after the checks of its header (R33, R350, R351, R429). -/
def takeSolve (f : FrameIn) (s : State) : State :=
  let p := u16 f.payload 0
  let l := u16 f.payload 4
  let no (st : Status) (s : State) : State := refuse f.client.toNat 2 st f.seq (some p) none s
  if !leaseValid s l f.client (BitVec.ofNat 32 (u32 f.payload 8)) p then no stLeaseInvalid s
  else
    let r := solve p (touchLease l s)
    if r.2 = stOk then r.1 else no r.2 r.1

/-- YSP_SOLVE (R350). -/
def doYspSolve (f : FrameIn) (s : State) : State :=
  yspFront 2 true 16 (!zeroAt f.payload 2 2 || !zeroAt f.payload 6 2 || !zeroAt f.payload 12 4) f (takeSolve f) s

/-- The sample records of a MEASURE payload. -/
def measureRecs (pl : List Byte) : List (List Byte) := chunks 32 ((pl.length - 8) / 32) (pl.drop 8)
/-- LENGTH of a MEASURE frame, or one that no frame has where it holds no 1 to 256 records. -/
def measureSize (pl : List Byte) : Nat :=
  let n := (pl.length - 8) / 32
  if 1 ≤ n ∧ n ≤ 256 ∧ pl.length = 8 + 32 * n then pl.length else pl.length + 1

/-- A MEASURE after the checks of its header: one problem, that of its first record (R148, R350, R429). -/
def takeMeasure (f : FrameIn) (s : State) : State :=
  let rs := measureRecs f.payload
  let p := u16 (rs.headD []) 0
  let l := u16 f.payload 0
  let no (st : Status) (s : State) : State := refuse f.client.toNat 3 st f.seq (some p) none s
  if !leaseValid s l f.client (BitVec.ofNat 32 (u32 f.payload 4)) p then no stLeaseInvalid s
  else
    let s := touchLease l s
    if rs.any (sampleBad p) then no stEstRange s
    else if (prob s p).st = .empty then s
    else takeSamples p rs s

/-- YSP_MEASURE (R350). -/
def doYspMeasure (f : FrameIn) (s : State) : State :=
  yspFront 3 true (measureSize f.payload) (!zeroAt f.payload 2 2 || (measureRecs f.payload).any (fun r => !zeroAt r 4 4)) f (takeMeasure f) s

/-- YSP_INFUSE (R76). -/
def execYspInfuse (f : FrameIn) (s : State) : Host.Outcome State Fault Refusal := finish s (doYspInfuse f s)
/-- YSP_SOLVE (R350). -/
def execYspSolve (f : FrameIn) (s : State) : Host.Outcome State Fault Refusal := finish s (doYspSolve f s)
/-- YSP_MEASURE (R350). -/
def execYspMeasure (f : FrameIn) (s : State) : Host.Outcome State Fault Refusal := finish s (doYspMeasure f s)

end Sys2Proof.Machine
end

