-- ==== Sys2Proof/Machine/Dispatch.lean ====
section
/-! DEFINITION. One arm per command, in the order of the opcode table. -/
namespace Sys2Proof.Machine
open Sys2Proof

/-- The effect of a command on everything but the queue. -/
def exec (i : Instr) (s : State) : Host.Outcome State Fault Refusal :=
  match i with
  | .deviceInfo c => Sys2Proof.Machine.execDeviceInfo c s
  | .nop c => Sys2Proof.Machine.execNop c s
  | .memStatusRead c => Sys2Proof.Machine.execMemStatusRead c s
  | .leaseTableRead c => Sys2Proof.Machine.execLeaseTableRead c s
  | .leaseRevoke c => Sys2Proof.Machine.execLeaseRevoke c s
  | .clientReset c => Sys2Proof.Machine.execClientReset c s
  | .imageLoad c => Sys2Proof.Machine.execImageLoad c s
  | .imageLoadComplete r => Sys2Proof.Machine.execImageLoadComplete r s
  | .imageUnload c => Sys2Proof.Machine.execImageUnload c s
  | .infuse c => Sys2Proof.Machine.execInfuse c s
  | .imageInfo c => Sys2Proof.Machine.execImageInfo c s
  | .warmSourceSet c => Sys2Proof.Machine.execWarmSourceSet c s
  | .problemEnable c => Sys2Proof.Machine.execProblemEnable c s
  | .problemRetire c => Sys2Proof.Machine.execProblemRetire c s
  | .solveRequest c => Sys2Proof.Machine.execSolveRequest c s
  | .steepStatsRead c => Sys2Proof.Machine.execSteepStatsRead c s
  | .iterateRead c => Sys2Proof.Machine.execIterateRead c s
  | .jduQuery c => Sys2Proof.Machine.execJduQuery c s
  | .estimatorSet c => Sys2Proof.Machine.execEstimatorSet c s
  | .measurePut c => Sys2Proof.Machine.execMeasurePut c s
  | .estimatorRead c => Sys2Proof.Machine.execEstimatorRead c s
  | .trapRead c => Sys2Proof.Machine.execTrapRead c s
  | .scalarFlagsRead c => Sys2Proof.Machine.execScalarFlagsRead c s
  | .orderModeSet c => Sys2Proof.Machine.execOrderModeSet c s
  | .checkpointSave c => Sys2Proof.Machine.execCheckpointSave c s
  | .checkpointWritten p => Sys2Proof.Machine.execCheckpointWritten p s
  | .checkpointResume c => Sys2Proof.Machine.execCheckpointResume c s
  | .orderStatusRead c => Sys2Proof.Machine.execOrderStatusRead c s
  | .orderDigestSet c => Sys2Proof.Machine.execOrderDigestSet c s
  | .placeConstrain c => Sys2Proof.Machine.execPlaceConstrain c s
  | .placeRead c => Sys2Proof.Machine.execPlaceRead c s
  | .pourRingSet c => Sys2Proof.Machine.execPourRingSet c s
  | .trainSet c => Sys2Proof.Machine.execTrainSet c s
  | .trainStop c => Sys2Proof.Machine.execTrainStop c s
  | .trainRollback c => Sys2Proof.Machine.execTrainRollback c s
  | .trainStatusRead c => Sys2Proof.Machine.execTrainStatusRead c s
  | .tensorFlagsRead c => Sys2Proof.Machine.execTensorFlagsRead c s
  | .tbEnable c => Sys2Proof.Machine.execTbEnable c s
  | .tbDisable c => Sys2Proof.Machine.execTbDisable c s
  | .tbDisableComplete tb => Sys2Proof.Machine.execTbDisableComplete tb s
  | .tbStep c => Sys2Proof.Machine.execTbStep c s
  | .tbPair c => Sys2Proof.Machine.execTbPair c s
  | .portSet c => Sys2Proof.Machine.execPortSet c s
  | .portEnable c => Sys2Proof.Machine.execPortEnable c s
  | .portDisable c => Sys2Proof.Machine.execPortDisable c s
  | .portShutdownComplete port => Sys2Proof.Machine.execPortShutdownComplete port s
  | .clientSet c => Sys2Proof.Machine.execClientSet c s
  | .gateSet c => Sys2Proof.Machine.execGateSet c s
  | .streamSet c => Sys2Proof.Machine.execStreamSet c s
  | .pourStreamSet c => Sys2Proof.Machine.execPourStreamSet c s
  | .plkEnable c => Sys2Proof.Machine.execPlkEnable c s
  | .plkDisable c => Sys2Proof.Machine.execPlkDisable c s
  | .plkShutdownComplete link => Sys2Proof.Machine.execPlkShutdownComplete link s
  | .peerGroupSet c => Sys2Proof.Machine.execPeerGroupSet c s
  | .twinSet c => Sys2Proof.Machine.execTwinSet c s
  | .twinStatusRead c => Sys2Proof.Machine.execTwinStatusRead c s
  | .loopStart c => Sys2Proof.Machine.execLoopStart c s
  | .loopStop c => Sys2Proof.Machine.execLoopStop c s
  | .slotMapSet c => Sys2Proof.Machine.execSlotMapSet c s
  | .profileWrite c => Sys2Proof.Machine.execProfileWrite c s
  | .profileLoad c => Sys2Proof.Machine.execProfileLoad c s
  | .profileBootSet c => Sys2Proof.Machine.execProfileBootSet c s
  | .fioConfigWrite c => Sys2Proof.Machine.execFioConfigWrite c s
  | .fioConfigRead c => Sys2Proof.Machine.execFioConfigRead c s
  | .fioClearLatch c => Sys2Proof.Machine.execFioClearLatch c s
  | .powerStateSet c => Sys2Proof.Machine.execPowerStateSet c s
  | .powerCapSet c => Sys2Proof.Machine.execPowerCapSet c s
  | .powerStatusRead c => Sys2Proof.Machine.execPowerStatusRead c s
  | .kettleSet c => Sys2Proof.Machine.execKettleSet c s
  | .keySlotWrite c => Sys2Proof.Machine.execKeySlotWrite c s
  | .imageSignRequire c => Sys2Proof.Machine.execImageSignRequire c s
  | .firmwareStage c => Sys2Proof.Machine.execFirmwareStage c s
  | .selfTest c => Sys2Proof.Machine.execSelfTest c s
  | .unitFence c => Sys2Proof.Machine.execUnitFence c s
  | .unitUnfence c => Sys2Proof.Machine.execUnitUnfence c s
  | .faultLogRead c => Sys2Proof.Machine.execFaultLogRead c s
  | .recoveryEnter c => Sys2Proof.Machine.execRecoveryEnter c s
  | .recoveryExit c => Sys2Proof.Machine.execRecoveryExit c s
  | .testSessionBegin c => Sys2Proof.Machine.execTestSessionBegin c s
  | .testSessionEnd c => Sys2Proof.Machine.execTestSessionEnd c s
  | .commandDoorbell value => Sys2Proof.Machine.execCommandDoorbell value s
  | .descriptorFetch path => Sys2Proof.Machine.execDescriptorFetch path s
  | .commandStart acceptNo => Sys2Proof.Machine.execCommandStart acceptNo s
  | .ringEnable => Sys2Proof.Machine.execRingEnable s
  | .ringDisable => Sys2Proof.Machine.execRingDisable s
  | .ringShutdownComplete => Sys2Proof.Machine.execRingShutdownComplete s
  | .functionLevelReset => Sys2Proof.Machine.execFunctionLevelReset s
  | .perstAsserted => Sys2Proof.Machine.execPerstAsserted s
  | .pourTailWrite ring value => Sys2Proof.Machine.execPourTailWrite ring value s
  | .evtTailWrite value => Sys2Proof.Machine.execEvtTailWrite value s
  | .ltLatchRead => Sys2Proof.Machine.execLtLatchRead s
  | .loLatchRead accept => Sys2Proof.Machine.execLoLatchRead accept s
  | .registerReadClear win off => Sys2Proof.Machine.execRegisterReadClear win off s
  | .registerWrite win off value enables => Sys2Proof.Machine.execRegisterWrite win off value enables s
  | .arbFreezeWrite arb freeze => Sys2Proof.Machine.execArbFreezeWrite arb freeze s
  | .mbxFrameRead f => Sys2Proof.Machine.execMbxFrameRead f s
  | .mbxFrameWrite f => Sys2Proof.Machine.execMbxFrameWrite f s
  | .mbxFrameCommand f => Sys2Proof.Machine.execMbxFrameCommand f s
  | .bufWrite f => Sys2Proof.Machine.execBufWrite f s
  | .bufRead f => Sys2Proof.Machine.execBufRead f s
  | .yspInfuse f => Sys2Proof.Machine.execYspInfuse f s
  | .yspSolve f => Sys2Proof.Machine.execYspSolve f s
  | .yspMeasure f => Sys2Proof.Machine.execYspMeasure f s
  | .leaseAcquire f => Sys2Proof.Machine.execLeaseAcquire f s
  | .leaseRenew f => Sys2Proof.Machine.execLeaseRenew f s
  | .leaseRelease f => Sys2Proof.Machine.execLeaseRelease f s
  | .yspUnknownType type f => Sys2Proof.Machine.execYspUnknownType type f s
  | .leaseExpiry lease => Sys2Proof.Machine.execLeaseExpiry lease s
  | .leaseWaiterGrant lease => Sys2Proof.Machine.execLeaseWaiterGrant lease s
  | .leaseCycleSnapshot => Sys2Proof.Machine.execLeaseCycleSnapshot s
  | .transitFrame e => Sys2Proof.Machine.execTransitFrame e s
  | .ptpSyncReceived m => Sys2Proof.Machine.execPtpSyncReceived m s
  | .ptpAnnounceReceived a => Sys2Proof.Machine.execPtpAnnounceReceived a s
  | .ptpDelayRespReceived m => Sys2Proof.Machine.execPtpDelayRespReceived m s
  | .ptpPdelayReqReceived m => Sys2Proof.Machine.execPtpPdelayReqReceived m s
  | .ptpSyncTx tb port => Sys2Proof.Machine.execPtpSyncTx tb port s
  | .masterLost tb => Sys2Proof.Machine.execMasterLost tb s
  | .fdbAgeing mac vid => Sys2Proof.Machine.execFdbAgeing mac vid s
  | .gateCycleStart port => Sys2Proof.Machine.execGateCycleStart port s
  | .gateIntervalEnd port => Sys2Proof.Machine.execGateIntervalEnd port s
  | .portUp port => Sys2Proof.Machine.execPortUp port s
  | .portLinkLost port => Sys2Proof.Machine.execPortLinkLost port s
  | .preemptVerifyDone port ok => Sys2Proof.Machine.execPreemptVerifyDone port ok s
  | .plkLinkUp link lanes group rank => Sys2Proof.Machine.execPlkLinkUp link lanes group rank s
  | .plkLinkLost link => Sys2Proof.Machine.execPlkLinkLost link s
  | .flitCrcError link replayFails lane => Sys2Proof.Machine.execFlitCrcError link replayFails lane s
  | .barrierMessageReceived p b => Sys2Proof.Machine.execBarrierMessageReceived p b s
  | .barrierTimeout p => Sys2Proof.Machine.execBarrierTimeout p s
  | .digestMessageReceived p mismatch steep status digest => Sys2Proof.Machine.execDigestMessageReceived p mismatch steep status digest s
  | .digestTimeout p => Sys2Proof.Machine.execDigestTimeout p s
  | .prewarmStart p => Sys2Proof.Machine.execPrewarmStart p s
  | .periodicRelease p => Sys2Proof.Machine.execPeriodicRelease p s
  | .heldRequestRelease p => Sys2Proof.Machine.execHeldRequestRelease p s
  | .commitComplete p => Sys2Proof.Machine.execCommitComplete p s
  | .jduStageComplete p pipe => Sys2Proof.Machine.execJduStageComplete p pipe s
  | .modelEvaluationComplete p model quadrant => Sys2Proof.Machine.execModelEvaluationComplete p model quadrant s
  | .tileReclaim tile => Sys2Proof.Machine.execTileReclaim tile s
  | .weightStagingComplete quadrant => Sys2Proof.Machine.execWeightStagingComplete quadrant s
  | .iterationComplete p r => Sys2Proof.Machine.execIterationComplete p r s
  | .factorisationBreakdown p => Sys2Proof.Machine.execFactorisationBreakdown p s
  | .iterationTrap p corrected => Sys2Proof.Machine.execIterationTrap p corrected s
  | .deadlineReached p => Sys2Proof.Machine.execDeadlineReached p s
  | .budgetEnd p => Sys2Proof.Machine.execBudgetEnd p s
  | .priorUpdateComplete p shared units => Sys2Proof.Machine.execPriorUpdateComplete p shared units s
  | .retirementComplete p => Sys2Proof.Machine.execRetirementComplete p s
  | .overloadLower set => Sys2Proof.Machine.execOverloadLower set s
  | .shedIntervalEnd => Sys2Proof.Machine.execShedIntervalEnd s
  | .slotWrite p => Sys2Proof.Machine.execSlotWrite p s
  | .roundStart p model => Sys2Proof.Machine.execRoundStart p model s
  | .trainStep p model => Sys2Proof.Machine.execTrainStep p model s
  | .roundValidate p model => Sys2Proof.Machine.execRoundValidate p model s
  | .sampleBoundary loop => Sys2Proof.Machine.execSampleBoundary loop s
  | .loopOutputApply loop => Sys2Proof.Machine.execLoopOutputApply loop s
  | .leRunWrite loop run => Sys2Proof.Machine.execLeRunWrite loop run s
  | .leHoldWrite loop hold => Sys2Proof.Machine.execLeHoldWrite loop hold s
  | .clearSafe loop => Sys2Proof.Machine.execClearSafe loop s
  | .leCfgWrite loop reg value => Sys2Proof.Machine.execLeCfgWrite loop reg value s
  | .leSelWrite sel cfg value => Sys2Proof.Machine.execLeSelWrite sel cfg value s
  | .slotStale p => Sys2Proof.Machine.execSlotStale p s
  | .bootProfileStart => Sys2Proof.Machine.execBootProfileStart s
  | .fioConfigApply => Sys2Proof.Machine.execFioConfigApply s
  | .ainConversion ch raw => Sys2Proof.Machine.execAinConversion ch raw s
  | .ainOpenWireTest ch fails => Sys2Proof.Machine.execAinOpenWireTest ch fails s
  | .aoutLoadTest ch fails => Sys2Proof.Machine.execAoutLoadTest ch fails s
  | .pulseEdge ch a b => Sys2Proof.Machine.execPulseEdge ch a b s
  | .fioCondition kind ch cond present => Sys2Proof.Machine.execFioCondition kind ch cond present s
  | .doutShortRetry ch => Sys2Proof.Machine.execDoutShortRetry ch s
  | .pwmPeriodStart ch => Sys2Proof.Machine.execPwmPeriodStart ch s
  | .fioSetWrite aout ch value => Sys2Proof.Machine.execFioSetWrite aout ch value s
  | .powerGood refSel ref25 => Sys2Proof.Machine.execPowerGood refSel ref25 s
  | .powerFail cause => Sys2Proof.Machine.execPowerFail cause s
  | .holdUpExhausted => Sys2Proof.Machine.execHoldUpExhausted s
  | .wardenVerified ok => Sys2Proof.Machine.execWardenVerified ok s
  | .mainDiePowerOn => Sys2Proof.Machine.execMainDiePowerOn s
  | .switchCoreStart => Sys2Proof.Machine.execSwitchCoreStart s
  | .bootSelfTestComplete failed mainPart => Sys2Proof.Machine.execBootSelfTestComplete failed mainPart s
  | .hbmTrained => Sys2Proof.Machine.execHbmTrained s
  | .rankoazReady => Sys2Proof.Machine.execRankoazReady s
  | .readyTimeout => Sys2Proof.Machine.execReadyTimeout s
  | .fullService => Sys2Proof.Machine.execFullService s
  | .domainWakeComplete pd => Sys2Proof.Machine.execDomainWakeComplete pd s
  | .kettleHoldExpiry pd => Sys2Proof.Machine.execKettleHoldExpiry pd s
  | .domainOffComplete pd => Sys2Proof.Machine.execDomainOffComplete pd s
  | .governorStep meanMw inputMv => Sys2Proof.Machine.execGovernorStep meanMw inputMv s
  | .thermalLimitStep junction => Sys2Proof.Machine.execThermalLimitStep junction s
  | .sleepEntryComplete => Sys2Proof.Machine.execSleepEntryComplete s
  | .wakeEvent source => Sys2Proof.Machine.execWakeEvent source s
  | .wakeComplete => Sys2Proof.Machine.execWakeComplete s
  | .coolantSample m => Sys2Proof.Machine.execCoolantSample m s
  | .limpEntryComplete => Sys2Proof.Machine.execLimpEntryComplete s
  | .faultDetected kind index detector retryOk m => Sys2Proof.Machine.execFaultDetected kind index detector retryOk m s
  | .unresolvedTestDone kind index pass => Sys2Proof.Machine.execUnresolvedTestDone kind index pass s
  | .watchdogExpiry core retryOk => Sys2Proof.Machine.execWatchdogExpiry core retryOk s
  | .mainDieLoss part detector => Sys2Proof.Machine.execMainDieLoss part detector s
  | .hbmRefresh stack channel r => Sys2Proof.Machine.execHbmRefresh stack channel r s
  | .patrolScrub pool corrected => Sys2Proof.Machine.execPatrolScrub pool corrected s
  | .arbiterGrant arb arrived withdrawn => Sys2Proof.Machine.execArbiterGrant arb arrived withdrawn s
  | .emergencyRequest arb => Sys2Proof.Machine.execEmergencyRequest arb s
  | .debugResponse valid => Sys2Proof.Machine.execDebugResponse valid s
  | .debugLockoutExpiry => Sys2Proof.Machine.execDebugLockoutExpiry s
  | .jtagInstruction edge x => Sys2Proof.Machine.execJtagInstruction edge x s
  | .ref25Lost => Sys2Proof.Machine.execRef25Lost s
  | .jduQueryComplete => Sys2Proof.Machine.execJduQueryComplete s
  | .selfTestComplete failed => Sys2Proof.Machine.execSelfTestComplete failed s
  | .firmwareStageComplete => Sys2Proof.Machine.execFirmwareStageComplete s
  | .trainStopComplete p model => Sys2Proof.Machine.execTrainStopComplete p model s
  | .nonvolatileWriteComplete => Sys2Proof.Machine.execNonvolatileWriteComplete s
  | .perstReleased => Sys2Proof.Machine.execPerstReleased s
  | .pcieConfigRequest => Sys2Proof.Machine.execPcieConfigRequest s
  | .msixTableWrite off value => Sys2Proof.Machine.execMsixTableWrite off value s
  | .ainReconnectTest ch currentOk => Sys2Proof.Machine.execAinReconnectTest ch currentOk s
  | .preemptionHold port => Sys2Proof.Machine.execPreemptionHold port s
  | .sequenceRecoveryReset entry => Sys2Proof.Machine.execSequenceRecoveryReset entry s
  | .ptpFollowUpReceived m => Sys2Proof.Machine.execPtpFollowUpReceived m s
  | .ptpPdelayRespReceived m => Sys2Proof.Machine.execPtpPdelayRespReceived m s
  | .ptpDelayReqReceived m => Sys2Proof.Machine.execPtpDelayReqReceived m s
  | .ptpDelayReqTx tb port => Sys2Proof.Machine.execPtpDelayReqTx tb port s
  | .ptpPdelayReqTx port => Sys2Proof.Machine.execPtpPdelayReqTx port s
  | .ptpAnnounceTx tb port => Sys2Proof.Machine.execPtpAnnounceTx tb port s
  | .ptpSignalingReceived m logSync logAnnounce logPdelay => Sys2Proof.Machine.execPtpSignalingReceived m logSync logAnnounce logPdelay s

end Sys2Proof.Machine
end

