-- ==== Sys2Proof/Machine/Tick.lean ====
section
/-! DEFINITION. What passes in one nanosecond without a command: the clocks count (R266, R308, R309, R450). -/
namespace Sys2Proof.Machine

/-- One CK20 cycle of a time base (R309). -/
def tickTb (b : TBase) : TBase := if b.running then { b with value := (((b.value : Int) + 2 ^ 40 + b.rate) % 2 ^ 104).toNat } else b

/-- One nanosecond of the loop engine's clock: LE_TICK counts CK12 ticks of 5 ns while PD58 is powered (R266). -/
def tickEdge (e : Edge) : Edge :=
  if e.on then (if e.sub = 4 then { e with sub := 0, tick := (e.tick + 1) % 2 ^ 64 } else { e with sub := e.sub + 1 }) else e

/-- One nanosecond of an UP link's credit (R357): whether the partner returns the credit of the oldest VC2 flit, and whether VC0 waits for
credit while requests pend at the egress, are free values (log entry 138); 7/4 cycles of CK21 pass. -/
def tickLink (l : Nat) (s : State) : State :=
  let k := s.links.get l
  let pends := !(s.arbs.get (194 + l)).queue.isEmpty
  if k.state = .up ∧ (k.vc2Sent ≠ [] ∨ pends = true) then
    let d := draw s
    let part := if pends && d.1.getLsbD 1 then k.waitPart + 7 else k.waitPart
    pumpVc2 l (modLink l (fun k => { k with
      vc2Sent := if d.1.getLsbD 0 then k.vc2Sent.drop 1 else k.vc2Sent
      creditWait := BitVec.ofNat 32 (min 0xFFFFFFFF (k.creditWait.toNat + part / 4)), waitPart := part % 4 }) d.2)
  else s

/-- Every link. -/
def tickLinks (s : State) : State := forAll (List.range 8) tickLink s

/-- One nanosecond: LT and the time bases while the main die is powered, LE_TICK while the edge die is, the always-on count
from power good (log entry 13). -/
def tick (s : State) : State :=
  let s := tickLinks s
  { s with
    lt := if mainOn s then (s.lt + 1) % 2 ^ 64 else s.lt
    time := if mainOn s then { s.time with tbs := s.time.tbs.map (fun e => (e.1, tickTb e.2)) } else s.time
    edge := tickEdge s.edge
    pwr := if s.pwr.power = .unpowered then s.pwr else { s.pwr with since := s.pwr.since + 1 } }

end Sys2Proof.Machine
end

