-- ==== Sys2Proof/Safety.lean ====
section
/-! DEFINITION. What counts as a good state of the block, and the terms in which the statements say that a master command runs at
once. -/
namespace Sys2Proof

/-- The problem that a descriptor names. -/
def CmdIn.p (c : CmdIn) : Nat := c.problem.toNat

end Sys2Proof

namespace Sys2Proof.Machine

/-- The memories are in their canonical form and no posted write is left over. -/
def State.memWf (s : State) : Bool := s.hostMem.wf && s.xbuf.wf && s.posts.isEmpty

/-- Every waiting command is well-formed. -/
def State.queueWf (s : State) : Bool := s.pending.all Instr.wf

/-- A master command runs at once: its path takes commands, the device is in full service, nothing is in flight before it, its
completion has room, and its descriptor's reserved bits are zero (R410, R418, R420, R422). -/
def Runs (c : CmdIn) (s : State) : Bool :=
  pathOpen c.agent s && full s && s.mbx.waiting.isEmpty && s.mbx.running.isEmpty && s.mbx.arrived.isEmpty
  && decide ((s.mbx.cplHead - s.mbx.cplTail).toNat < 255) && decide (c.flags.toNat < 4) && c.rsvd == 0

/-- The command as accepted: its opcode, descriptor and acceptance number, with what its acceptance fixes (R259, R407, R456). -/
def cmdOf (op : W16) (c : CmdIn) (s : State) : Cmd :=
  { op := op, c := c, acceptNo := s.mbx.accepted, src := s.mbx.lastSrc.getD {}, signReq := decide (0 < s.pwr.nv.sign)
    nextAt := (prob s c.p).nextSteep }

/-- The state in which an accepted command starts: the acceptance numbers have moved on (R407, R408). -/
def taken (c : CmdIn) (s : State) : State :=
  modMbx (fun b => { b with
    accepted := b.accepted + 1
    acceptPcie := if c.agent = .pcie then b.acceptPcie + 1 else b.acceptPcie
    acceptMgmt := if c.agent = .mgmt then b.acceptMgmt + 1 else b.acceptMgmt
    waiting := [] }) s

/-- The outcome of a command that completes with a status and RESULT after changing the state to `t` (R417, R422). -/
def ends (op : W16) (c : CmdIn) (s : State) (st : Status) (res : List Byte) (t : State) : Host.Outcome State Fault Refusal :=
  finish s (complete (cmdOf op c s) st res t)

/-- The outcome of a command that has begun something and stays in flight until an event ends it (R420). -/
def begins (op : W16) (c : CmdIn) (s : State) (a : Await) (locks : Bool) (t : State) : Host.Outcome State Fault Refusal :=
  finish s (modMbx (fun b => { b with running := b.running ++ [⟨cmdOf op c s, a, locks⟩] }) t)

/-- A descriptor of a command that names no problem and no second address (R422). -/
def NoProb (c : CmdIn) : Bool := c.problem == 0xFFFF && c.addr2 == 0

/-- A descriptor that names a problem and no second address (R422). -/
def Named (c : CmdIn) : Bool := decide (c.problem.toNat < 1024) && c.addr2 == 0

/-- The output of `n` bytes has room and a usable address (R413, R422). -/
def OutOk (c : CmdIn) (n : Nat) : Bool := decide (n ≤ c.length.toNat) && !addrBad { c := c } c.addr n

/-- The input record has `n` bytes and a usable address (R413, R422). -/
def InOk (c : CmdIn) (n : Nat) : Bool := c.length.toNat == n && !addrBad { c := c } c.addr n

/-- The input record of a descriptor. -/
def recOf (c : CmdIn) (s : State) : List Byte := getRecord s c.addr c.length.toNat

/-- The state in which a frame addressed to the device has passed the switch: its port is UP, it met no error and no filter that drops it,
its source is learned, and sequence recovery lets it on (R338, R345, R346). -/
def passed (f : FrameIn) (s : State) : Option State :=
  if switchOn s && (port s f.src.port.val).state == .up then
    match ingress (frameEth s f) s with
    | (some e, t) => if (recover e (vidOf t e).toNat t).1 then some (recover e (vidOf t e).toNat t).2 else none
    | (none, _) => none
  else none

/-- The state in which an accepted mailbox frame has its effect: the frame's source is the latest one (R412, R436). -/
def heard (f : FrameIn) (s : State) : State := modMbx (fun b => { b with lastSrc := some f.src }) s

/-- A mailbox frame that passes the port's and the header's checks while Rankoaz is ready (R410, R412, Table 15-10). -/
def FrameOk (f : FrameIn) (s : State) : Bool :=
  ready s && (port s f.src.port.val).cfg.flags.getLsbD 2 && !f.runt
  && f.magic == 0x4D59 && f.version == 1 && f.length.toNat == f.payload.length && f.client == 0 && f.flags == 0 && f.rsvd == 0

/-- A YSP frame of a registered client with LENGTH `n` that passes the checks of its header in full service (R348, R351, Table 15-10);
FLAGS but for ACK of an INFUSE is the row's to say. -/
def YspOk (f : FrameIn) (n : Nat) (s : State) : Bool :=
  full s && (port s f.src.port.val).cfg.flags.getLsbD 1 && !f.runt
  && f.magic == 0x5359 && f.version == 1 && sourceOk s f && f.length.toNat == f.payload.length && f.length.toNat == n
  && decide (f.flags.toNat ≤ 1) && f.rsvd == 0

/-- The state in which an accepted YSP frame has its effect: one with SEQ 0 has reset its client (R432). -/
def greeted (f : FrameIn) (s : State) : State := if f.seq = 0 then resetClient f.client 0 s else s

end Sys2Proof.Machine
end

