-- ==== Sys2Proof/Certificates/Slice0/Obligations.lean ====
section
/-! DEFINITION. The statements for the provers. -/
open Sys2Proof Sys2Proof.Machine


/-- R407 to R422, the block's step: with a command at the front of the queue the step is that command's effect with the queue's rest. -/
def Obligations.StepRunsFront : Prop :=
  ∀ (c : Instr) (s : State) (q : List Instr), step { s with pending := c :: q } = exec c { s with pending := q }

/-- On an empty queue the step is one nanosecond: LT counts one where the main die is powered, and no problem, loop register, port, lease,
client, arbiter or counter changes; where no link that is UP owes a credit or has an arbiter with requests pending, no link changes and
nothing leaves the block (the model's choices, log entries 13 and 138). -/
def Obligations.IdleStepCounts : Prop :=
  ∀ s : State, s.pending = [] → ∃ t, step s = .next t ∧ t.lt = (if mainOn s then (s.lt + 1) % 2 ^ 64 else s.lt)
    ∧ t.probs = s.probs ∧ t.edge.loops = s.edge.loops ∧ t.net = s.net ∧ t.leases = s.leases ∧ t.clients = s.clients ∧ t.mbx = s.mbx
    ∧ t.irq = s.irq ∧ t.log = s.log ∧ t.rings = s.rings ∧ t.arbs = s.arbs ∧ t.faults = s.faults ∧ t.hostMem = s.hostMem
    ∧ t.xbuf = s.xbuf
    ∧ ((∀ l, l < 8 → (link s l).state = .up → (link s l).vc2Sent = [] ∧ (s.arbs.get (194 + l)).queue = []) → t.links = s.links ∧ t.out = s.out)

/-- The memories are canonical and nothing is posted at reset. -/
def Obligations.ResetMemory : Prop :=
 State.reset.memWf = true

/-- Every step keeps the canonical form of master memory and of the exchange buffer, and leaves no posted write over (R413, R417). -/
def Obligations.StepKeepsMemory : Prop :=
 ∀ s t : State, s.memWf = true → step s = .next t → t.memWf = true

/-- No command touches the queue: it answers a next state whose queue is that of the state it ran in. -/
def Obligations.CommandsKeepQueue : Prop :=
 ∀ (c : Instr) (s : State), ∃ t, exec c s = .next t ∧ t.pending = s.pending ∧ t.posts = []

/-- A byte of a space outside the bytes that a step posts reads after the step as before, whatever the command (R413, R417). -/
def Obligations.PostsFrame : Prop :=
  ∀ (s t u : State) (sp : Space) (a : Nat), s.memWf = true → finish s t = .next u →
    (∀ p ∈ t.posts, p.space = sp → a < p.addr ∨ p.addr + p.bytes.length ≤ a) →
    (match sp with | .host => u.hostMem | .xbuf => u.xbuf).read a = (match sp with | .host => s.hostMem | .xbuf => s.xbuf).read a

/-- At reset the block is unpowered: no problem, lease, client or binding, every port, link and time base DISABLED, every loop STOPPED,
no command in flight, no interrupt, an empty log, and the reset words of Tables 22-3 and 22-4 read so. -/
def Obligations.ResetState : Prop :=
  State.reset.pwr.power = .unpowered ∧ ready State.reset = false ∧ State.reset.lt = 0
  ∧ (∀ p, (prob State.reset p).st = .empty) ∧ (∀ l, (lease State.reset l).client = none) ∧ (∀ c, (State.reset.clients.get c).used = false)
  ∧ (∀ n, (port State.reset n).state = .disabled) ∧ (∀ l, (link State.reset l).state = .disabled)
  ∧ (∀ n, (tbase State.reset n).state = .disabled) ∧ (∀ n, (loopN State.reset.edge n).state = .stopped)
  ∧ inFlight State.reset = 0 ∧ State.reset.irq.status = 0 ∧ State.reset.log.head = 0
  ∧ (∀ k, k < 48 → (readReg .mailbox (0x100 + 4 * k) State.reset).1 = BitVec.ofNat 32 k)
  ∧ (readReg .mailbox 0x0A04 State.reset).1 = 0x2710 ∧ (readReg .mailbox 0x0B00 State.reset).1 = 0x000000FF
  ∧ (readReg .direct 0x40008 State.reset).1 = 0x21422848 ∧ (readReg .direct 0x4000C State.reset).1 = 0x400

/-- A master command that finds no room in flight, or others waiting before it, is not accepted; it waits in the order of arrival (R418). Commands of groups 0x02 to 0x06 before full service complete with NOT_READY and change nothing but the acceptance counts (R410). Locks: a command starts only when no older waiting command and no holder shares a lock with it (R420). -/
def Obligations.AcceptanceRules : Prop :=
  (∀ (c : CmdIn) (s : State), pathOpen c.agent s = true → (hasRoom s = false ∨ s.mbx.arrived ≠ []) →
      ∃ t, exec (.nop c) s = .next t ∧ t.mbx.accepted = s.mbx.accepted ∧ t.mbx.waiting = s.mbx.waiting
        ∧ ∃ m : Cmd, m.op = 0x0102 ∧ m.c = c ∧ t.mbx.arrived = s.mbx.arrived ++ [m])
  ∧ (∀ (m : Cmd) (s : State), full s = false → m.phaseBad = false → 2 ≤ m.op.toNat / 256 → m.op.toNat / 256 ≤ 6 → gateStatus m s = some stNotReady)
  ∧ (∀ (m : Cmd) (s : State), canStart m s = true →
      (∀ w ∈ s.mbx.waiting, w.acceptNo.toNat < m.acceptNo.toNat → conflict w m = false)
      ∧ (∀ r ∈ s.mbx.running, r.holds = true → conflict r.cmd m = false))

/-- R421: a command with FENCE starts only after every command accepted before it has completed. -/
def Obligations.FenceWaits : Prop :=
  ∀ (m : Cmd) (s : State), m.c.flags.getLsbD 1 = true → canStart m s = true →
    (∀ r ∈ s.mbx.running, m.acceptNo.toNat ≤ r.cmd.acceptNo.toNat) ∧ (∀ w ∈ s.mbx.waiting, m.acceptNo.toNat ≤ w.acceptNo.toNat)

/-- R513: a reserved offset reads as zero and a write to it is ignored, in the ranges between the blocks of the mailbox window. -/
def Obligations.ReservedOffsets : Prop :=
  ∀ (s : State) (o : Nat) (v : W32), o % 4 = 0 →
    ((0x44 ≤ o ∧ o < 0x100) ∨ (0x1C8 ≤ o ∧ o < 0x400) ∨ (0x600 ≤ o ∧ o < 0xA00) ∨ (0xB08 ≤ o ∧ o < 0x2000) ∨ (0x3028 ≤ o ∧ o < 0x10000)) →
    readReg .mailbox o s = (0, s) ∧ writeReg .mailbox o v s = s

/-- R517: a TAIL written ahead of its HEAD, by signed 32-bit difference, is taken as HEAD, one more than the size behind as HEAD less the size, any other
as written; EVT_TAIL and MBX_POUR_TAIL then read as the value taken. -/
def Obligations.TailTaken : Prop :=
  (∀ (head tail : W32) (n : Nat), n ≤ 65536 →
    ((head - tail).toInt < 0 → takeTail head tail n = head)
    ∧ ((n : Int) < (head - tail).toInt → takeTail head tail n = head - BitVec.ofNat 32 n)
    ∧ (0 ≤ (head - tail).toInt → (head - tail).toInt ≤ (n : Int) → takeTail head tail n = tail))
  ∧ (∀ (s : State) (v : W32), (readReg .direct 0x50004 (writeReg .direct 0x50004 v s)).1 = takeTail s.log.head v 4096)
  ∧ (∀ (s : State) (v : W32) (r : Nat), r < 32 → (readReg .mailbox (0x404 + 16 * r) (writeReg .mailbox (0x404 + 16 * r) v s)).1
      = takeTail (s.rings.get r).head v (2 ^ (s.rings.get r).log2))

/-- NOP, DEVICE_INFO, LEASE_TABLE_READ, LEASE_REVOKE and CLIENT_RESET complete with OK when they run at once; a read writes its record at
ADDR and changes nothing else, a revoke expires the lease, a reset resets the client (R422, R423, R432, R434). R434: LEASE_REVOKE of a HELD lease leaves it FREE with its epoch and its waiters, and of a FREE one changes nothing but the acceptance
counts and the completion. -/
def Obligations.GeneralCommandsComplete : Prop :=
  (∀ (c : CmdIn) (s : State), Runs c s = true → NoProb c = true →
      exec (.nop c) s = ends 0x0102 c s stOk [] (taken c s)
      ∧ (OutOk c 64 = true → exec (.deviceInfo c) s = ends 0x0101 c s stOk [] (putRecord c.addr (deviceRecord (taken c s) s.mbx.accepted) (taken c s)))
      ∧ (OutOk c 96 = true → ∃ hbmFree : W64, exec (.memStatusRead c) s = ends 0x0110 c s stOk []
          (putRecord c.addr (s.mem.counts.flatMap (wBytes 8) ++ leBytes 1 s.mem.spares ++ zeros 3 ++ leBytes 4 (32 * 2 ^ 20 - caddyUsed s) ++ wBytes 8 hbmFree)
            { taken c s with free := s.free + 1 }))
      ∧ (OutOk c 16384 = true → exec (.leaseTableRead c) s = ends 0x0120 c s stOk []
          (putRecord c.addr ((List.range 512).flatMap (leaseEntry (taken c s))) (taken c s)))
      ∧ (argN c 0 2 < 512 → exec (.leaseRevoke c) s = ends 0x0121 c s stOk [] (expire (argN c 0 2) stLeaseRevoked 0x60 (expiredData 1) (taken c s)))
      ∧ exec (.clientReset c) s = ends 0x0122 c s stOk [] (resetClient (byteAt (argBytes c) 0) 2 (taken c s)))
  ∧ (∀ (c : CmdIn) (s : State) (l : Nat), Runs c s = true → NoProb c = true → argN c 0 2 = l → l < 512 →
      ∃ t, exec (.leaseRevoke c) s = .next t ∧ (lease t l).client = none ∧ (lease t l).epoch = (lease s l).epoch
        ∧ (lease t l).waiters = (lease s l).waiters ∧ t.mbx.accepted = s.mbx.accepted + 1
        ∧ ((lease s l).client = none → t.leases = s.leases ∧ t.probs = s.probs))

/-- IMAGE_LOAD begins a load of an EMPTY problem; IMAGE_UNLOAD returns a LOADED problem to EMPTY and reports the groups and entries that
it discards; IMAGE_INFO writes its record; WARM_SOURCE_SET stores MODE and SOURCE (R71, R73, R84). IMAGE_UNLOAD of a LOADED problem leaves it EMPTY with no image, pending entry, open group, twin queue or poured iterate, and leaves every
other problem's parameters and schedule as they were (R73). -/
def Obligations.ImageCommandsComplete : Prop :=
  (∀ (c : CmdIn) (s : State), Runs c s = true → Named c = true →
      (addrBad { c := c } c.addr c.length.toNat = false → (prob s c.p).st = .empty → exec (.imageLoad c) s = begins 0x0201 c s .imageLoad true (taken c s))
      ∧ ((prob s c.p).st = .loaded → exec (.imageUnload c) s = ends 0x0202 c s stOk
          (leBytes 4 (groupsHeld (prob s c.p)) ++ leBytes 4 (entriesHeld (prob s c.p))) (unloadProb c.p (taken c s)))
      ∧ ((prob s c.p).st ≠ .empty → OutOk c 64 = true → exec (.imageInfo c) s = ends 0x0204 c s stOk [] (putRecord c.addr (imageInfo (prob s c.p)) (taken c s)))
      ∧ ((prob s c.p).st ≠ .empty → argN c 0 1 ≤ 2 → (argN c 0 1 = 1 → argN c 2 2 < 1024) →
          exec (.warmSourceSet c) s = ends 0x0205 c s stOk []
            (modProb c.p (fun q => { q with warmMode := argN c 0 1, warmSrc := argN c 2 2 }) (taken c s))))
  ∧ (∀ (c : CmdIn) (s : State), Runs c s = true → Named c = true → (prob s c.p).st = .loaded →
      ∃ t, exec (.imageUnload c) s = .next t ∧ (prob t c.p).st = .empty ∧ (prob t c.p).im = none ∧ (prob t c.p).pend = []
        ∧ (prob t c.p).groups = [] ∧ (prob t c.p).twin.queue = [] ∧ (prob t c.p).poured = none
        ∧ ∀ q, q ≠ c.p → (prob t q).params = (prob s q).params ∧ (prob t q).sched = (prob s q).sched)

/-- IMAGE_LOAD_COMPLETE ends the load with the first failing status of Table 3-15; a refused load leaves every problem as it was, an accepted
one makes the problem LOADED with the image's initial parameters (R70, R71). INFUSE by the master: a whole group whose fragment passes its checks and whose indices lie in the parameter space completes at once with
its commit sequence number (R74, R76, R80). -/
def Obligations.LoadAndInfuse : Prop :=
  (∀ (s : State) (r : LoadIn) (x : Run), s.mbx.running.find? (fun y => y.await == .imageLoad) = some x →
      let bs := getRecord s x.cmd.c.addr x.cmd.c.length.toNat
      let v := loadVerdict s x.cmd bs r
      exec (.imageLoadComplete r) s = finish s (endRuns (fun y => y.await == .imageLoad && y.cmd.acceptNo == x.cmd.acceptNo) v []
        (if v = stOk then { s with probs := s.probs.set x.cmd.c.p (loadedProb s (parseImage bs) r) } else s)))
  ∧ (∀ (c : CmdIn) (s : State), Runs c s = true → Named c = true → (prob s c.p).st ≠ .empty →
      let bs := recOf c s
      let es := (entryRecs bs).map parseEntry
      (parseHdr bs).problem = c.p → InOk c (24 + 16 * (parseHdr bs).count) = true → firstFail (fragmentChecks bs) = none →
      (parseHdr bs).first = 0 → (parseHdr bs).count = (parseHdr bs).total → indexBad (prob s c.p) es = false →
        (completeGroup c.p es (taken c s)).2 = stOk →
        exec (.infuse c) s = ends 0x0203 c s stOk (wBytes 8 (prob (completeGroup c.p es (taken c s)).1 c.p).commitSeq) (completeGroup c.p es (taken c s)).1)

/-- PROBLEM_RETIRE of a LOADED problem completes at once without effect; of an ENABLED one it begins the retirement and waits for its end
(R51, R52, Table 2-15). SOLVE_REQUEST of an ENABLED REQUESTED problem is taken by the scheduler and completes with OK (R32, R33). -/
def Obligations.ScheduleCommandsComplete : Prop :=
  ∀ (c : CmdIn) (s : State), Runs c s = true → Named c = true →
    ((prob s c.p).st = .loaded → exec (.problemRetire c) s = ends 0x0302 c s stOk (retireResult (prob s c.p)) (taken c s))
    ∧ ((prob s c.p).st = .enabled → exec (.problemRetire c) s = begins 0x0302 c s .retire false (beginRetire c.p (taken c s)))
    ∧ ((prob s c.p).st = .enabled → (prob s c.p).sched.requested = true → (prob s c.p).staging = false →
        exec (.solveRequest c) s = ends 0x0303 c s stOk [] (solve c.p (taken c s)).1)

/-- PROBLEM_ENABLE with parameters inside Table 2-3 and an image they fit runs the admission test: refused, it completes with ADMIT_REFUSED;
admitted, it completes with OK, or stays in flight while weights are staged (R26, R38, R39, R182). -/
def Obligations.EnableCompletes : Prop :=
  ∀ (c : CmdIn) (s : State), Runs c s = true → Named c = true → (prob s c.p).st = .loaded →
    schedBad (argBytes c) = false → schedImageBad (prob s c.p) (parseSched (argBytes c)) = false →
    let r := enableWith c.p (parseSched (argBytes c)) id (taken c s)
    exec (.problemEnable c) s = (match r.2 with
      | some st => ends 0x0301 c s st [] r.1
      | none => begins 0x0301 c s .enable true r.1)
    ∧ ((admitRun (taken c s) c.p (parseSched (argBytes c))).1 = none → r.2 = some stAdmitRefused ∧ r.1.probs = s.probs ∧ r.1.sets = s.sets)

/-- R26: a schedule value outside its range in Table 2-3 or outside what the image allows, or a reserved bit of the block, completes PROBLEM_ENABLE with SCHED_RANGE, and no problem
changes. -/
def Obligations.EnableOutOfRange : Prop :=
  ∀ (c : CmdIn) (s : State), Runs c s = true → Named c = true → (prob s c.p).st = .loaded →
    (schedBad (argBytes c) = true ∨ schedImageBad (prob s c.p) (parseSched (argBytes c)) = true) →
    exec (.problemEnable c) s = ends 0x0301 c s stSchedRange [] (taken c s)

/-- The reads of a problem's records complete with OK, write the record at ADDR, and change the problem only where the rule says the read
clears: flags and counts (R46, R121, R206, R220, R221, R388). PLACE_CONSTRAIN of a LOADED problem stores the constraints of a record in range (R387). -/
def Obligations.ProblemReadsComplete : Prop :=
  (∀ (c : CmdIn) (s : State), Runs c s = true → Named c = true → (prob s c.p).st ≠ .empty →
      (OutOk c 152 = true → exec (.steepStatsRead c) s = ends 0x0304 c s stOk [] (putRecord c.addr (statsRecord (prob s c.p)) (taken c s)))
      ∧ (∀ bs, iterateRecord (prob s c.p) = some bs → OutOk c bs.length = true → addrBad { c := c } c.addr c.length.toNat = false →
          exec (.iterateRead c) s = ends 0x0305 c s stOk [] (putRecord c.addr bs (taken c s)))
      ∧ (∀ r, (prob s c.p).trap = some r → OutOk c 80 = true →
          exec (.trapRead c) s = ends 0x030A c s stOk [] (putRecord c.addr (trapRecord c.p (prob s c.p).traps r) (taken c s)))
      ∧ (OutOk c 72 = true → exec (.scalarFlagsRead c) s = ends 0x030B c s stOk [] (putRecord c.addr (flagRecord (prob s c.p).scalar)
          (modProb c.p (fun q => { q with
            scalar := { counts := List.replicate 7 0 }, steep := q.steep.map (fun t => { t with mScalar := 0 }),
            est := { q.est with updating := q.est.updating.map (fun u => { u with steep := { u.steep with mScalar := 0 } }) } }) (taken c s))))
      ∧ (OutOk c 56 = true → exec (.tensorFlagsRead c) s = ends 0x0410 c s stOk [] (putRecord c.addr (flagRecord (prob s c.p).tensor)
          (modProb c.p (fun q => { q with
            tensor := { counts := List.replicate 5 0 }, steep := q.steep.map (fun t => { t with mTensor := 0 }),
            est := { q.est with updating := q.est.updating.map (fun u => { u with steep := { u.steep with mTensor := 0 } }) } }) (taken c s))))
      ∧ (OutOk c 96 = true → exec (.placeRead c) s = ends 0x0312 c s stOk [] (putRecord c.addr (placeRecord s (prob s c.p)) (taken c s))))
  ∧ (∀ (c : CmdIn) (s : State), Runs c s = true → Named c = true → (prob s c.p).st = .loaded → InOk c 32 = true →
      let bs := recOf c s
      u16 bs 0 = c.p → u64 bs 8 ≠ 0 → u8 bs 2 ≤ 3 → u8 bs 3 ≤ 15 → zeroAt bs 5 3 = true → zeroAt bs 16 16 = true →
      exec (.placeConstrain c) s = ends 0x0311 c s stOk []
        (modProb c.p (fun q => { q with place := ⟨byteAt bs 2, byteAt bs 3, byteAt bs 4, w64At bs 8⟩ }) (taken c s)))

/-- Estimator commands complete with OK: ESTIMATOR_SET of a LOADED estimation problem stores its configuration and empties its store and counters;
MEASURE_PUT stores 1 to 4,096 samples; ESTIMATOR_READ writes its record (R144, R148, R160). -/
def Obligations.EstimatorCommandsComplete : Prop :=
  ∀ (c : CmdIn) (s : State) (im : Image), Runs c s = true → Named c = true → (prob s c.p).im = some im →
    let bs := recOf c s
    (isEst (prob s c.p) = true → (prob s c.p).st = .loaded → u16 bs 0 = c.p → InOk c (80 + 32 * u16 bs 2) = true → estBad im bs = false →
      exec (.estimatorSet c) s = ends 0x0307 c s stOk [] (modProb c.p (fun q => { q with est := { cfg := some (parseEst bs) } }) (taken c s)))
    ∧ (∀ n, 1 ≤ n → n ≤ 4096 → InOk c (32 * n) = true → (prob s c.p).st ≠ .empty → (chunks 32 n bs).any (sampleBad c.p) = false →
      exec (.measurePut c) s = ends 0x0308 c s stOk [] (takeSamples c.p (chunks 32 n bs) (taken c s)))
    ∧ (isEst (prob s c.p) = true → (prob s c.p).st ≠ .empty → OutOk c (estRecord (prob s c.p) im).length = true →
      addrBad { c := c } c.addr c.length.toNat = false →
      exec (.estimatorRead c) s = ends 0x0309 c s stOk [] (putRecord c.addr (estRecord (prob s c.p) im) (taken c s)))

/-- Fixed-order commands complete with OK: ORDER_MODE_SET of a LOADED problem stores the mode, ORDER_STATUS_READ writes its record,
ORDER_DIGEST_SET of an ENABLED problem restarts its digest at a steep not yet released (R250, R264, R265). CHECKPOINT_SAVE of an ENABLED problem with room waits for its steep; without room it completes with CKPT_SPACE and the bytes needed.
CHECKPOINT_RESUME of a LOADED problem with a good record enables it like PROBLEM_ENABLE, its first release taking the record (R259 to R263). -/
def Obligations.OrderAndCheckpointCommands : Prop :=
  (∀ (c : CmdIn) (s : State), Runs c s = true → Named c = true →
      ((prob s c.p).st = .loaded → argN c 0 1 ≤ 1 → (argN c 0 1 = 1 → ∃ im, (prob s c.p).im = some im ∧ im.fixedOrderBuilt = true) →
        exec (.orderModeSet c) s = ends 0x030C c s stOk [] (modProb c.p (fun q => { q with fixed := argN c 0 1 == 1 }) (taken c s)))
      ∧ ((prob s c.p).st ≠ .empty → OutOk c 64 = true →
        exec (.orderStatusRead c) s = ends 0x030F c s stOk [] (putRecord c.addr (orderRecord (prob s c.p)) (taken c s)))
      ∧ ((prob s c.p).st = .enabled → (prob s c.p).nextSteep.toNat ≤ argN c 0 8 → argN c 0 8 < 2 ^ 64 →
        exec (.orderDigestSet c) s = ends 0x0310 c s stOk [] (modProb c.p (restartDigest (BitVec.ofNat 64 (argN c 0 8))) (taken c s))))
  ∧ (∀ (c : CmdIn) (s : State) (im : Image), Runs c s = true → Named c = true → (prob s c.p).im = some im →
      addrBad { c := c } c.addr c.length.toNat = false →
      ((prob s c.p).st = .enabled → (prob s c.p).nextSteep.toNat ≤ argN c 0 8 → argN c 0 8 < 2 ^ 64 → (prob s c.p).ckpt = none →
        exec (.checkpointSave c) s =
          if c.length.toNat < ckptSize im (prob s c.p) then ends 0x030D c s stCkptSpace (leBytes 4 (ckptSize im (prob s c.p))) (taken c s)
          else begins 0x030D c s .checkpoint false
            (modProb c.p (fun q => { q with ckpt := some { atSteep := BitVec.ofNat 64 (argN c 0 8) } }) (taken c s)))
      ∧ ((prob s c.p).st = .loaded →
        let bs := recOf c s
        let k := parseSched (argBytes c)
        c.length.toNat = u32 bs 8 → ckptFormatBad bs = false → ckptMismatch (prob s c.p) im k bs = false → ckptSizesBad im bs = false →
        schedBad (argBytes c) = false → schedImageBad (prob s c.p) k = false →
        let r := enableWith c.p k (resumeWith im bs) (taken c s)
        exec (.checkpointResume c) s = (match r.2 with
          | some st => ends 0x030E c s st [] r.1
          | none => begins 0x030E c s .enable true r.1)))

/-- TWIN_SET MODE 1 puts a fixed-order PERIODIC problem whose twin link is UP into FORMING with its START_STEEP and TWIN_WAIT, MODE 0 ends the
pairing, the groups of the queue merged; TWIN_STATUS_READ writes its record (R363, R371). JDU_QUERY of a resident problem with a good input and a
free pipeline begins the query, computed from the parameters committed now; it completes at its own event (R138, R139). -/
def Obligations.TwinAndQueryCommands : Prop :=
  (∀ (c : CmdIn) (s : State), Runs c s = true → Named c = true → (prob s c.p).st ≠ .empty →
      (s.faults.recovery = false → zeroAt (argBytes c) 1 3 = true → zeroAt (argBytes c) 16 16 = true →
        (argN c 0 1 = 1 → 1000 ≤ argN c 4 4 → argN c 4 4 ≤ 50000 →
          (prob s c.p).fixed = true → (prob s c.p).sched.requested = false → (prob s c.p).sched.period ≠ 0 → (prob s c.p).spans = false →
          twinLink s = true → argN c 8 8 < 2 ^ 64 → (prob s c.p).nextSteep.toNat ≤ argN c 8 8 →
          ∃ t, exec (.twinSet c) s = .next t ∧ (prob t c.p).twin.state = .forming ∧ (prob t c.p).twin.start = BitVec.ofNat 64 (argN c 8 8)
            ∧ (prob t c.p).twin.wait = argN c 4 4 ∧ (prob t c.p).twin.queue = [] ∧ (prob t c.p).params = (prob s c.p).params)
        ∧ (argN c 0 1 = 0 → (prob s c.p).atBarrier = none →
          ∃ t, exec (.twinSet c) s = .next t ∧ (prob t c.p).twin.state = .none ∧ (prob t c.p).twin.queue = []
            ∧ (prob t c.p).params = (prob s c.p).params))
      ∧ (OutOk c 48 = true → exec (.twinStatusRead c) s = ends 0x0524 c s stOk []
        (let w := (prob s c.p).twin
         let st := match w.state with | .none => 0 | .forming => 1 | .paired => 2 | .solo => 3
         putRecord c.addr (leBytes 1 st ++ zeros 7 ++ wBytes 8 w.pairSeq ++ wBytes 8 w.matched ++ wBytes 8 w.diverged ++ wBytes 8 w.timeouts ++ zeros 8)
           (taken c s))))
  ∧ (∀ (c : CmdIn) (s : State) (im : Image), Runs c s = true → c.problem.toNat < 1024 → (prob s c.p).st ≠ .empty → (prob s c.p).im = some im →
      let head := getRecord (taken c s) c.addr 0x90
      let k := im.treeCoords (u16 head 2)
      let size := 0x90 + 8 * (k.1 + 2 * k.2)
      let bs := getRecord (taken c s) c.addr size
      u16 head 0 = c.p → addrBad { c := c } c.addr 0x90 = false → addrBad { c := c } c.addr size = false →
      addrBad { c := c } c.addr2 c.length.toNat = false → queryBad im bs c.length.toNat = false → freePipe (taken c s) = true →
      exec (.jduQuery c) s = begins 0x0306 c s .jduQuery true { taken c s with query := some (queryOutput (prob s c.p) im bs) })

/-- Training commands: TRAIN_SET starts its job with the record in place of any other of its problem and MODEL, or answers that HBM has no
room, a free value (log entry 1), and is held while a stop of that job is in progress; TRAIN_STOP begins the stop and waits;
TRAIN_ROLLBACK records the rollback for its steep; TRAIN_STATUS_READ writes the record and clears the job's flags (R232, R243, R247, R248). -/
def Obligations.TrainingCommandsComplete : Prop :=
  ∀ (c : CmdIn) (s : State), Runs c s = true → Named c = true → (prob s c.p).st ≠ .empty →
    (let bs := recOf c s
     s.faults.recovery = false → u16 bs 0 = c.p → jobLengthBad (prob s c.p) bs = false → addrBad { c := c } c.addr c.length.toNat = false →
     (prob s c.p).st ≠ .retiring → jobBad (prob s c.p) bs = false → (prob s c.p).nextSteep.toNat ≤ (parseJob bs).start →
     (jobOf s c.p (u8 bs 2) ≠ none ∨ s.jobs.length < 16) →
     (∀ j, jobOf s c.p (u8 bs 2) = some j → j.stopping = true → exec (.trainSet c) s = begins 0x0401 c s (.trainSet (u8 bs 2)) true
       (modJob c.p (u8 bs 2) (fun j => { j with held := some (parseJob bs, u16 bs 0x4C) }) (taken c s)))
     ∧ ((∀ j, jobOf s c.p (u8 bs 2) = some j → j.stopping = false) →
       let d := draw (taken c s)
       exec (.trainSet c) s = if d.1.getLsbD 0
         then ends 0x0401 c s stOk [] (startJob c.p (u8 bs 2) (parseJob bs) (u16 bs 0x4C) (removeJob c.p (u8 bs 2) d.2))
         else ends 0x0401 c s stTrainSpace [] d.2))
    ∧ (∀ j, jobOf s c.p (argN c 0 1) = some j →
      exec (.trainStop c) s = begins 0x0403 c s (.trainStop (argN c 0 1)) false
        (if j.stopping then taken c s else beginStop c.p (argN c 0 1) (taken c s)))
    ∧ (jobOf s c.p (argN c 0 1) ≠ none → (prob s c.p).nextSteep.toNat ≤ argN c 8 8 → argN c 1 1 ≤ 1 →
      (argN c 1 1 = 0 → (prob s c.p).prev.get? (argN c 0 1) ≠ none) →
      exec (.trainRollback c) s = ends 0x0404 c s stOk []
        (modJob c.p (argN c 0 1) (fun j => { j with rollbacks := j.rollbacks ++ [(argN c 8 8, argN c 1 1, true)] }) (taken c s)))
    ∧ (∀ j, jobOf s c.p (argN c 0 1) = some j → OutOk c 128 = true →
      exec (.trainStatusRead c) s = ends 0x0405 c s stOk []
        (putRecord c.addr (jobRecord (prob s c.p) j s.lt) (modJob c.p (argN c 0 1) (fun j => { j with tflags := 0, sflags := 0 }) (taken c s))))

/-- Time-base commands: TB_ENABLE of a DISABLED base with a record in range starts it, of one that is shutting down it is held; TB_DISABLE begins
the shut-down; TB_STEP steps a FREE base; TB_PAIR pairs two bases that serve the same time from different sources (R311 to R316). -/
def Obligations.TimeCommandsComplete : Prop :=
  ∀ (c : CmdIn) (s : State), Runs c s = true → NoProb c = true →
    (let bs := recOf c s
     InOk c 40 = true → tbRecordBad bs = false →
      ((tbase s (u8 bs 0)).state = .disabled → tbClash (taken c s) (u8 bs 0) (parseTb bs) = false →
        exec (.tbEnable c) s = ends 0x0501 c s stOk [] (startTb (u8 bs 0) (parseTb bs) (taken c s)))
      ∧ ((tbase s (u8 bs 0)).state = .disabling → exec (.tbEnable c) s = begins 0x0501 c s (.tbEnable (u8 bs 0)) false
          (modTb (u8 bs 0) (fun b => { b with held := some (parseTb bs) }) (taken c s))))
    ∧ (let n := argN c 0 1
       n ≤ 3 → (tbase s n).state ≠ .disabled → (tbase s n).state ≠ .disabling →
       ∃ t, exec (.tbDisable c) s = .next t ∧ (tbase t n).state = .disabling ∧ (tbase t n).slavePort = none)
    ∧ (argN c 0 1 ≤ 3 → (tbase s (argN c 0 1)).state = .free →
        exec (.tbStep c) s = ends 0x0503 c s stOk [] (stepTb (argN c 0 1) (s64 (argBytes c) 8 * 2 ^ 40) (taken c s)))
    ∧ (let p := argN c 0 1
       let q := argN c 1 1
       p ≤ 3 → q ≤ 3 → p ≠ q → (tbase s p).state ≠ .disabled → (tbase s q).state ≠ .disabled → (tbase s p).source ≠ 0 → (tbase s q).source ≠ 0 →
       (tbase s p).partner = none → (tbase s q).partner = none → (tbase s p).domain ≠ (tbase s q).domain →
       exec (.tbPair c) s = ends 0x0504 c s stOk []
         (modTb p (fun x => { x with partner := some q, standby := false }) (modTb q (fun x => { x with partner := some p, standby := true }) (taken c s))))

/-- R17, R334: PORT_SET whose modes together need more than 32 lanes, or with a field out of range, is refused as a whole, and at most eight ports of
a configuration that is taken run at 400 Gb/s; otherwise the network
configuration is the record's, every port with a changed entry restarts with it, and the command waits for those of them that go down. -/
def Obligations.PortSetWhole : Prop :=
  ∀ (c : CmdIn) (s : State), Runs c s = true → NoProb c = true → InOk c 576 = true →
    let bs := recOf c s
    let cs := (portEntries bs).map parsePort
    (portSetBad bs = true → exec (.portSet c) s = ends 0x0510 c s stPortRange [] (taken c s))
    ∧ (portSetBad bs = false → lanesBad cs = true → exec (.portSet c) s = ends 0x0510 c s stPortLanes [] (taken c s))
    ∧ (32 < (cs.map (fun x => modeLanes x.mode)).foldl (· + ·) 0 → lanesBad cs = true)
    ∧ (lanesBad cs = false → (cs.filter (fun x => x.mode == 8)).length ≤ 8)
    ∧ (portSetBad bs = false → lanesBad cs = false →
        let t := forAll cs.zipIdx (fun e t => applyEntry e.2 e.1 t) (modNet (fun n => { n with cfg := parseNet bs }) (taken c s))
        let u := if (byteAt bs 30).getLsbD 0 then storeLater 5 0 bs t else t
        exec (.portSet c) s = (match (afterPorts (changedPorts cs s) u).2 with
          | .done st res => ends 0x0510 c s st res u
          | .held a k => begins 0x0510 c s a k u))

/-- Peer-link commands: PLK_ENABLE trains each named link or holds the enable of one that drains; PLK_DISABLE begins the shut-down of each named
link and waits; PEER_GROUP_SET with rank, size and links in range stores the group, invalid where a partner's record does not fit, and sends its record on
every link that is UP; ID 0 dissolves the group where no ENABLED problem spans it (R358, R359). -/
def Obligations.PeerCommandsComplete : Prop :=
  ∀ (c : CmdIn) (s : State), Runs c s = true → NoProb c = true →
    (zeroAt (argBytes c) 1 31 = true → exec (.plkEnable c) s = ends 0x0520 c s stOk [] (forAll (bitsOf (argN c 0 1) 8) (fun l t =>
      if (link (modLink l (fun k => { k with wasEnabled := true }) t) l).state = .draining
      then modLink l (fun k => { k with enableHeld := true }) (modLink l (fun k => { k with wasEnabled := true }) t)
      else trainLink l (modLink l (fun k => { k with wasEnabled := true }) t)) (taken c s)))
    ∧ (zeroAt (argBytes c) 1 31 = true →
       let t := forAll (bitsOf (argN c 0 1) 8) (fun l t => modLink l (fun k => { k with wasEnabled := false }) (drainLink 0 l t)) (taken c s)
       exec (.plkDisable c) s = if drainMask t (argN c 0 1) = 0 then ends 0x0521 c s stOk [] t
         else begins 0x0521 c s (.links (BitVec.ofNat 8 (drainMask t (argN c 0 1)))) false t)
    ∧ (s.faults.recovery = false → argN c 0 1 = 0 → zeroAt (argBytes c) 3 5 = true → zeroAt (argBytes c) 16 16 = true → (s.probs.any (fun e => e.2.spans && e.2.st == .enabled)) = false →
        exec (.peerGroupSet c) s = ends 0x0522 c s stOk [] { taken c s with group := {} })
    ∧ (let g : Group := { id := BitVec.ofNat 8 (argN c 0 1), rank := BitVec.ofNat 8 (argN c 1 1), n := argN c 2 1
                          links := (List.range 8).map (fun r => BitVec.ofNat 8 (argN c (8 + r) 1)) }
       let wrong := (List.range 8).any (fun l => (link s l).state == .up && groupWrong g l (link s l))
       s.faults.recovery = false → argN c 0 1 ≠ 0 → argN c 1 1 < argN c 2 1 → argN c 2 1 ≤ 8 →
        (∀ r, r < argN c 2 1 → r ≠ argN c 1 1 → argN c (8 + r) 1 ≤ 7) → zeroAt (argBytes c) 3 5 = true → zeroAt (argBytes c) 16 16 = true →
        exec (.peerGroupSet c) s = ends 0x0522 c s (if wrong then stGroupInvalid else stOk) []
          (forAll ((List.range 8).filter (fun l => (link s l).state == .up)) sendRecord { taken c s with group := { g with invalid := wrong } }))

/-- Client and TSN tables: CLIENT_SET writes the entry's fields, TRANSPORT 255 removes it, and either resets the client; GATE_SET puts the list in
waiting for the port's next cycle, and stores it where STORE is 1; STREAM_SET writes or deletes the entry of its kind, at INDEX or at the lowest
free one, stores it where STORE is 1, and answers its index (R340, R344, R432). R335: PORT_ENABLE starts the training of each named DISABLED port
and holds the enable of a DOWNING one; PORT_DISABLE begins the shut-down of each named port and waits for those that are going down. -/
def Obligations.PortAndTsnCommands : Prop :=
  ∀ (c : CmdIn) (s : State), Runs c s = true → NoProb c = true →
    (let n := argN c 0 1
     let put := fun e : Client => ends 0x0513 c s stOk [] (resetClient (byteAt (argBytes c) 0) 1
       { taken c s with clients := s.clients.set n { e with outSeq := (s.clients.get n).outSeq, lastStatus := (s.clients.get n).lastStatus } })
     let entry := fun (t : Transport) (ip : Nat) => ({
       used := true, transport := t, mac := BitVec.ofNat 48 (argN c 2 6), ip := BitVec.ofNat 128 ip,
       udp := BitVec.ofNat 16 (argN c 8 2), portMask := BitVec.ofNat 16 (argN c 10 2), pcp := byteAt (argBytes c) 12 } : Client)
     argN c 12 1 ≤ 7 →
      (argN c 1 1 = 0 → exec (.clientSet c) s = put (entry .ipv4 (argN c 16 4)))
      ∧ (argN c 1 1 = 1 → exec (.clientSet c) s = put (entry .ipv6 (argN c 16 16)))
      ∧ (argN c 1 1 = 2 → exec (.clientSet c) s = put (entry .raw (argN c 16 16)))
      ∧ (argN c 1 1 = 255 → exec (.clientSet c) s = put {}))
    ∧ (let bs := recOf c s
       let t := modPort (u8 bs 0) (fun q => { q with gateNext := some (parseGates bs, s.lt) }) (taken c s)
       InOk c (24 + 8 * u16 bs 4) = true → gatesBad bs = false →
        exec (.gateSet c) s = ends 0x0514 c s stOk [] (if (byteAt bs 3).getLsbD 0 then storeLater 5 (1 + u8 bs 0) bs t else t))
    ∧ (let bs := recOf c s
       let kind := u8 bs 0
       let spare := (List.range (streamCount kind)).find? (fun i => !(streamUsed s kind).contains i)
       let i := if u16 bs 2 = 0xFFFF then spare.getD 0 else u16 bs 2
       let put := fun del : Bool =>
         let t := modNet (writeStream kind i del (bs.drop 8) s.lt) (taken c s)
         if (byteAt bs 1).getLsbD 0 then storeLater 5 (32 + kind * 1024 + i) (if del then [] else bs) t else t
       kind ≤ 4 → u8 bs 1 ≤ 3 → zeroAt bs 4 4 = true →
        ((byteAt bs 1).getLsbD 1 = false → (u16 bs 2 < streamCount kind ∨ (u16 bs 2 = 0xFFFF ∧ spare ≠ none)) → InOk c (streamSize bs) = true →
          streamEntryBad kind (bs.drop 8) = false → exec (.streamSet c) s = ends 0x0515 c s stOk (leBytes 2 i) (put false))
        ∧ ((byteAt bs 1).getLsbD 1 = true → u16 bs 2 < streamCount kind → 8 ≤ c.length.toNat → InOk c c.length.toNat = true →
          exec (.streamSet c) s = ends 0x0515 c s stOk (leBytes 2 i) (put true)))
    ∧ exec (.portEnable c) s = ends 0x0511 c s stOk [] (forAll (bitsOf (argN c 0 2) 16) (fun p t =>
        if (port t p).state = .downing then modPort p (fun q => { q with enableHeld := true }) t else startPort p t) (taken c s))
    ∧ (let t := forAll (bitsOf (argN c 0 2) 16) (shutPort false) (taken c s)
       let down := downingMask t (argN c 0 2)
       exec (.portDisable c) s = if down = 0 then ends 0x0512 c s stOk [] t else begins 0x0512 c s (.ports (BitVec.ofNat 16 down)) false t)

/-- Loop commands: LOOP_START of loops whose registers form a legal control starts them, and otherwise sets CFG_ERR of the offending ones and
completes with LOOP_CONFIG; LOOP_STOP begins the stop of the named loops and waits while any is stopping (R283 to R285). -/
def Obligations.LoopCommandsComplete : Prop :=
  ∀ (c : CmdIn) (s : State), Runs c s = true → NoProb c = true →
    let ns := bitsOf (argN c 0 4) 32
    let bad := ns.filter (fun n => startBad s.edge n (takenLoops s.edge ++ ns))
    (bad = [] → exec (.loopStart c) s = ends 0x0601 c s stOk [] (modEdge (fun e => ns.foldl (fun e n => askStart n e) e) (taken c s)))
    ∧ (bad ≠ [] → exec (.loopStart c) s = ends 0x0601 c s stLoopConfig []
        (modEdge (fun e => bad.foldl (fun e n => e.modLoop n (fun l => { l with cfgErr := true })) e) (taken c s)))
    ∧ (let e := ns.foldl (fun e n => askStop n e) s.edge
       exec (.loopStop c) s = if stoppingMask e ns = 0 then ends 0x0602 c s stOk [] { taken c s with edge := e }
         else begins 0x0602 c s (.loops (stoppingMask e ns)) false { taken c s with edge := e })

/-- Pour destinations: POUR_RING_SET with ENABLE 1 binds a ring that no other problem holds with its base and sizes and restarts its HEAD, TAIL and
LAP, and with ENABLE 0 removes the problem's binding, if it has one there; POUR_STREAM_SET stores the destinations (R425, R526). -/
def Obligations.PourDestinationsSet : Prop :=
  ∀ (c : CmdIn) (s : State) (im : Image), Runs c s = true → Named c = true → (prob s c.p).st ≠ .empty → (prob s c.p).im = some im →
    (argN c 0 1 ≤ 31 → (ringOf s c.p = none ∨ ringOf s c.p = some (argN c 0 1)) →
      ((s.rings.get (argN c 0 1)).problem = none ∨ (s.rings.get (argN c 0 1)).problem = some c.p) →
      (argN c 2 1 = 1 → 4 ≤ argN c 1 1 → argN c 1 1 ≤ 16 → c.addr.toNat % 4096 = 0 → c.addr.getLsbD 63 = false → c.agent = .pcie →
        c.length.toNat % 64 = 0 → 32 + im.resultBytes ≤ c.length.toNat →
        exec (.pourRingSet c) s = ends 0x0313 c s stOk [] { taken c s with rings := s.rings.mod (argN c 0 1) (fun r => { r with
          problem := some c.p, base := c.addr, log2 := argN c 1 1, entryBytes := c.length.toNat, head := 0, tail := 0, lap := 1 }) })
      ∧ (argN c 2 1 = 0 → exec (.pourRingSet c) s = ends 0x0313 c s stOk [] (if ringOf s c.p = none then taken c s
          else { taken c s with rings := s.rings.mod (argN c 0 1) (fun r => { r with problem := none }) })))
    ∧ (let bs := recOf c s
       let es := chunks 8 (u8 bs 2) (bs.drop 8)
       let ds := es.map (fun e => (⟨byteAt e 0, u8 e 1, u16 e 2⟩ : Dest))
       u16 bs 0 = c.p → InOk c (8 + 8 * u8 bs 2) = true → u8 bs 2 ≤ 8 → zeroAt bs 3 5 = true →
       (∀ e ∈ es, u8 e 1 ≤ 7 ∧ (u16 e 2 ≤ 127 ∨ u16 e 2 = 0xFFFF) ∧ zeroAt e 4 4 = true) → (ds.map Dest.client).Nodup →
       exec (.pourStreamSet c) s = ends 0x0516 c s stOk [] (modProb c.p (fun q => { q with dests := ds }) (taken c s)))

/-- Power commands in range: POWER_CAP_SET stores the cap, POWER_STATUS_READ writes its record and clears PEAK_MW, KETTLE_SET stores the class's policy
(R448, R461, R468). POWER_STATE_SET to SLEEP or OFF with nothing busy begins the entry; a target or wake mask out of range is PWR_RANGE and changes nothing
(R442, R464, R465). -/
def Obligations.PowerCommandsComplete : Prop :=
  (∀ (c : CmdIn) (s : State), Runs c s = true → NoProb c = true →
      (60 ≤ argN c 0 2 → argN c 0 2 ≤ 720 → argN c 2 1 = 0 →
        exec (.powerCapSet c) s = ends 0x0702 c s stOk [] (modPwr (fun w => { w with cap := argN c 0 2 }) (taken c s)))
      ∧ (60 ≤ argN c 0 2 → argN c 0 2 ≤ 720 → argN c 2 1 = 1 →
        exec (.powerCapSet c) s = ends 0x0702 c s stOk [] (storeLater 4 0 (leBytes 2 (argN c 0 2)) (modPwr (fun w => { w with cap := argN c 0 2 }) (taken c s))))
      ∧ (OutOk c 64 = true → exec (.powerStatusRead c) s = ends 0x0703 c s stOk []
          (putRecord c.addr (powerRecord (taken c s)) (modPwr (fun w => { w with peakMw := 0 }) (taken c s))))
      ∧ (argN c 0 1 ≤ 4 → argN c 1 1 ≤ 2 → 50 ≤ argN c 4 4 → argN c 4 4 ≤ 10000000 →
        exec (.kettleSet c) s = ends 0x0704 c s stOk [] (modPwr (fun w => { w with kettle := w.kettle.set (argN c 0 1) ⟨argN c 1 1, argN c 4 4⟩ }) (taken c s))))
  ∧ (∀ (c : CmdIn) (s : State), Runs c s = true → NoProb c = true →
      ((argN c 0 1 = 2 ∨ argN c 0 1 = 4) → argN c 1 1 ≤ 7 → ((argN c 1 1).testBit 1 = true ↔ argN c 4 4 ≠ 0) →
        s.probs.any (fun e => e.2.st == .enabled || e.2.st == .retiring || e.2.ckpt.isSome) = false → staging s = false → s.faults.limp = none →
        s.pwr.power ≠ .limp → s.faults.recovery = false → s.faults.testSession = false → s.pwr.entering = none →
        exec (.powerStateSet c) s = ends 0x0701 c s stOk [] (beginRest (argN c 0 1) (argN c 1 1) (argN c 4 4) (taken c s)))
      ∧ ((argN c 0 1 ≠ 2 ∧ argN c 0 1 ≠ 4) ∨ 7 < argN c 1 1 → exec (.powerStateSet c) s = ends 0x0701 c s stPwrRange [] (taken c s)))

/-- Field I/O commands: FIO_CONFIG_WRITE of a good record that changes no output in use applies it and stores it; FIO_CONFIG_READ writes the record in
force; FIO_CLEAR_LATCH clears the short latches of the named outputs (R296, R306). Slot maps and profiles: SLOT_MAP_SET binds slots that no other problem holds; PROFILE_WRITE stores a good record; PROFILE_LOAD copies a stored
profile into STOPPED loops, and with START starts those of AUTOSTART; PROFILE_BOOT_SET stores the boot index (R275, R276, R288 to R290). -/
def Obligations.EdgeTableCommands : Prop :=
  (∀ (c : CmdIn) (s : State), Runs c s = true → NoProb c = true →
      (InOk c 272 = true → fioGood (recOf c s) = true → fioInUse s.edge (recOf c s) = false →
        exec (.fioConfigWrite c) s = ends 0x0607 c s stOk [] (storeLater 2 0 (recOf c s) (changeFio (recOf c s) (taken c s))))
      ∧ (OutOk c 272 = true → exec (.fioConfigRead c) s = ends 0x0608 c s stOk [] (putRecord c.addr (fioInForce s.edge) (taken c s)))
      ∧ exec (.fioClearLatch c) s = ends 0x0609 c s stOk [] (modEdge (fun e => { e with
          douts := (bitsOf (argN c 0 1) 8).foldl (fun t i => t.mod i (fun d => { d with latched := false })) e.douts }) (taken c s)))
  ∧ (∀ (c : CmdIn) (s : State), Runs c s = true →
      (Named c = true → (prob s c.p).st ≠ .empty →
        let bs := recOf c s
        ∀ im, (prob s c.p).im = some im → u16 bs 0 = c.p → InOk c (16 + 24 * u16 bs 2) = true → slotMapBad bs (im.resultBytes / 8) = false →
        (∀ r ∈ slotRecords bs, ∀ b ∈ s.edge.binds, b.1 ≠ c.p → u8 r 0 ∉ b.2.entries.map SlotEntry.slot) →
        exec (.slotMapSet c) s = ends 0x0603 c s stOk [] (modEdge (setBinding c.p bs) (taken c s)))
      ∧ (NoProb c = true → argN c 0 1 ≤ 7 → InOk c 2240 = true → profileBad (recOf c s) = false →
        exec (.profileWrite c) s = ends 0x0604 c s stOk [] (storeLater 0 (argN c 0 1) (recOf c s) (taken c s)))
      ∧ (NoProb c = true → ∀ bs, argN c 0 1 < 8 → s.edge.profiles.get? (argN c 0 1) = some bs → profileForm bs = true →
        let mask := BitVec.ofNat 32 (argN c 4 4)
        let ns := bitsOf mask.toNat 32
        let sels := (List.range 8).filter (fun k => ((s.edge.sels.get k).members ||| profileMembers bs k) &&& ~~~mask == 0)
        (∀ n ∈ ns, (loopN s.edge n).state = .stopped) →
        exec (.profileLoad c) s = ends 0x0605 c s stOk [] (modEdge (fun e =>
          if (argN c 1 1).testBit 0 then (bitsOf (mask &&& profileAuto bs).toNat 32).foldl (fun e n => startOne n e) (loadInto bs ns sels e)
          else loadInto bs ns sels e) (taken c s)))
      ∧ (NoProb c = true → (argN c 0 1 ≤ 7 ∨ argN c 0 1 = 0xFF) →
        exec (.profileBootSet c) s = ends 0x0606 c s stOk [] (storeLater 1 0 (leBytes 1 (argN c 0 1)) (taken c s))))

/-- Keys and firmware: KEY_SLOT_WRITE of a point on the curve stores the key, of ERASE empties the slot; IMAGE_SIGN_REQUIRE stores the mode; both record
KEY_CHANGED, and neither acts while the keys are locked; FIRMWARE_STAGE hands the package to the warden and waits (R455 to R457). -/
def Obligations.SecurityCommandsComplete : Prop :=
  ∀ (c : CmdIn) (s : State), Runs c s = true → NoProb c = true →
    (argN c 0 1 ≤ 7 → argN c 1 1 = 0 → InOk c 96 = true → ecOn (beAt (recOf c s) 0 48) (beAt (recOf c s) 48 48) = true → keysLocked s = false →
      exec (.keySlotWrite c) s = ends 0x0705 c s stOk [] (event 0x206 (argN c 0 1) [BitVec.ofNat 8 s.pwr.nv.sign] (storeLater 3 (argN c 0 1) (recOf c s) (taken c s))))
    ∧ (argN c 0 1 ≤ 7 → argN c 1 1 = 1 → keysLocked s = false →
      exec (.keySlotWrite c) s = ends 0x0705 c s stOk [] (event 0x206 (argN c 0 1) [BitVec.ofNat 8 s.pwr.nv.sign] (storeLater 3 (argN c 0 1) [] (taken c s))))
    ∧ (argN c 0 1 ≤ 2 → keysLocked s = false →
      exec (.imageSignRequire c) s = ends 0x0706 c s stOk [] (event 0x206 0xFF [BitVec.ofNat 8 (argN c 0 1)]
        (modPwr (fun w => { w with nv := { w.nv with sign := argN c 0 1 } }) (taken c s))))
    ∧ (argN c 0 1 ≤ 2 → keysLocked s = true → exec (.imageSignRequire c) s = ends 0x0706 c s stKeyLocked [] (taken c s))
    ∧ (addrBad { c := c } c.addr c.length.toNat = false → c.length.toNat ≤ 32 * 2 ^ 20 → staging s = false →
      exec (.firmwareStage c) s = begins 0x0707 c s .firmware false (modPwr (fun w => { w with staging := some (1 - w.bank, recOf c s) }) (taken c s)))

/-- Fault commands: SELF_TEST of a fenced unit, or of any unit or all of them in a test session, begins the test; UNIT_FENCE fences a unit: at
once where no set with a steep in flight uses it or it is fenced already, else it waits; UNIT_UNFENCE returns a unit fenced by command to
service and tests one fenced for a fault first; FAULT_LOG_READ writes its record (R478, R479, R488). Recovery and test sessions at a
quiescent point: RECOVERY_ENTER enters recovery mode with cause 0 or finds it entered, RECOVERY_EXIT leaves it, the main die to restart
where its cause is not 0, TEST_SESSION_BEGIN and TEST_SESSION_END open and close a session; each change records its event. Away from a
quiescent point each completes with FLT_BUSY (R485, R487). -/
def Obligations.FaultCommandsComplete : Prop :=
  (∀ (c : CmdIn) (s : State) (k i : Nat), Runs c s = true → NoProb c = true → argN c 0 1 = k → argN c 1 1 = i → zeroAt (argBytes c) 2 30 = true →
      ((unitOk k i = true ∧ fenced s k i = true ∧ k ≠ 0xFF) ∨ (unitOk k i = true ∧ s.faults.testSession = true) ∨ (k = 0xFF ∧ s.faults.testSession = true) →
        exec (.selfTest c) s = begins 0x0801 c s .selfTest true (taken c s))
      ∧ (unitOk k i = true → k ≤ 4 → (k ≠ 4 ∨ i ≠ 0) →
        (fenced s k i = true → exec (.unitFence c) s =
          if fencePends s (k, i) then begins 0x0802 c s (.fence k i) true (taken c s) else ends 0x0802 c s stOk [] (taken c s))
        ∧ (fenced s k i = false →
          let t := markFenced k i 2 1 (unit s k i).detector (taken c s)
          let u := rebalance { t with sets := t.sets.map (fun e => (e.1, if usesUnit e.2 k i then { e.2 with fencing := e.2.fencing ++ [(k, i)] } else e.2)) }
          exec (.unitFence c) s = if t.sets.any (fun e => usesUnit e.2 k i && occupied t e.1) then begins 0x0802 c s (.fence k i) true u
            else ends 0x0802 c s stOk [] u))
      ∧ (unitOk k i = true → fenced s k i = true → exec (.unitUnfence c) s =
          if (unit s k i).state = 2 then ends 0x0803 c s stOk [] (unfence k i (taken c s)) else begins 0x0803 c s .selfTest true (taken c s))
      ∧ (OutOk c 10736 = true → exec (.faultLogRead c) s = ends 0x0804 c s stOk [] (putRecord c.addr (faultRecord (taken c s)) (taken c s))))
  ∧ (∀ (c : CmdIn) (s : State), Runs c s = true → NoProb c = true →
      (quiescent (taken c s) = true →
        (s.faults.recovery = false → exec (.recoveryEnter c) s = ends 0x0805 c s stOk [] (enterRecovery 0 (taken c s)))
        ∧ (s.faults.recovery = true → exec (.recoveryEnter c) s = ends 0x0805 c s stOk [] (taken c s))
        ∧ (s.faults.recovery = true → (s.faults.recoveryCause = 2 → s.faults.staged = true) → exec (.recoveryExit c) s = ends 0x0806 c s stOk []
            (event 0x107 0 [BitVec.ofNat 8 s.faults.recoveryCause]
              (modFaults (fun f => { f with recovery := false, recoveryCause := 0, restart := s.faults.recoveryCause != 0 }) (taken c s))))
        ∧ (s.faults.testSession = false → exec (.testSessionBegin c) s = ends 0x0807 c s stOk []
            (event 0x108 1 [] (modFaults (fun f => { f with testSession := true }) (taken c s))))
        ∧ (s.faults.testSession = true → exec (.testSessionBegin c) s = ends 0x0807 c s stOk [] (taken c s))
        ∧ (s.faults.testSession = true → exec (.testSessionEnd c) s = ends 0x0808 c s stOk []
            (event 0x108 0 [] (modFaults (fun f => { f with testSession := false }) (taken c s)))))
      ∧ (quiescent (taken c s) = false →
        exec (.recoveryEnter c) s = ends 0x0805 c s stFltBusy [] (taken c s)
        ∧ (s.faults.recovery = true → exec (.recoveryExit c) s = ends 0x0806 c s stFltBusy [] (taken c s))
        ∧ exec (.testSessionBegin c) s = ends 0x0807 c s stFltBusy [] (taken c s)
        ∧ (s.faults.testSession = true → exec (.testSessionEnd c) s = ends 0x0808 c s stFltBusy [] (taken c s))))

/-- The command ring: the doorbell takes TAIL, a fetch accepts the slot at HEAD (or the oldest descriptor of the path that waits), ENABLE and
DISABLE begin and end the ring, and a command starts when its locks are free (R414, R416, R418 to R420). A reset of the PCIe function shuts the ring down and returns the interrupt maps to reset; problems, loops, ports, links, leases and memories are
unaffected. PERST_N low makes that reset and takes the link down, high brings it back; a configuration read gets retry status until Rankoaz is ready
(R410, R419, R506). -/
def Obligations.RingEventsComplete : Prop :=
  (∀ s : State, ready s = true →
      (∀ v, s.mbx.perst = false → exec (.commandDoorbell v) s = finish s { s with mbx := { s.mbx with cmdTail := v.setWidth 8 } })
      ∧ (pathOpen .pcie s = true → hasRoom s = true → s.mbx.arrived = [] → s.mbx.cmdTail ≠ s.mbx.cmdHead →
          ∃ t m, exec (.descriptorFetch .pcie) s = .next t ∧ t.mbx.cmdHead = s.mbx.cmdHead + 1 ∧ t.mbx.accepted = s.mbx.accepted + 1
            ∧ t.mbx.waiting = s.mbx.waiting ++ [m] ∧ m.acceptNo = s.mbx.accepted
            ∧ m.op = BitVec.ofNat 16 (u16 ((memView s .host).readBytes (s.mbx.cmdBase.toNat + 64 * s.mbx.cmdHead.toNat) 64) 0))
      ∧ (∀ a m rest, hasRoom s = true → takeArrived a s.mbx.arrived = some (m, rest) →
          exec (.descriptorFetch a) s = finish s (accept m { s with mbx := { s.mbx with arrived := rest } }))
      ∧ (∀ m, m ∈ s.mbx.waiting → s.mbx.waiting.find? (fun w => w.acceptNo == m.acceptNo) = some m → canStart m s = true →
          exec (.commandStart m.acceptNo) s = finish s (startCmd (effectOf m.op) m s))
      ∧ (s.mbx.disabling = false → s.mbx.enable = false → exec .ringEnable s = finish s { s with mbx := { s.mbx with
          enable := true, cmdHead := 0, cmdTail := 0, cplHead := 0, cplTail := 0, cmdPhase := true, cplPhase := true } })
      ∧ (s.mbx.disabling = true → exec .ringEnable s = finish s { s with mbx := { s.mbx with enableHeld := true } })
      ∧ (s.mbx.enable = true → exec .ringDisable s = finish s { s with mbx := { s.mbx with disabling := true } })
      ∧ (s.mbx.disabling = true → s.mbx.waiting = [] → s.mbx.running = [] →
          (s.mbx.enableHeld = false → exec .ringShutdownComplete s = finish s { s with mbx := { s.mbx with enable := false, disabling := false } })
          ∧ (s.mbx.enableHeld = true → ∃ t, exec .ringShutdownComplete s = .next t ∧ t.mbx.enable = true ∧ t.mbx.disabling = false
            ∧ t.mbx.enableHeld = false ∧ t.mbx.cmdHead = 0 ∧ t.mbx.cplHead = 0)))
  ∧ (∀ s : State,
      (mainOn s = true → s.mbx.perst = false → s.mbx.enable = true →
        (∃ t, exec .functionLevelReset s = .next t ∧ t.mbx = { s.mbx with disabling := true } ∧ t.irq = { s.irq with map := [] }
          ∧ t.probs = s.probs ∧ t.edge = s.edge ∧ t.net = s.net ∧ t.links = s.links ∧ t.leases = s.leases ∧ t.clients = s.clients)
        ∧ (∃ t, exec .perstAsserted s = .next t ∧ t.mbx = { s.mbx with disabling := true, perst := true } ∧ t.irq = { s.irq with map := [] }
          ∧ t.probs = s.probs ∧ t.edge = s.edge ∧ t.net = s.net ∧ t.links = s.links ∧ t.leases = s.leases ∧ t.clients = s.clients)
        ∧ exec .pcieConfigRequest s = finish s { s with out := .pcieConfig (!ready s) :: s.out })
      ∧ exec .perstReleased s = finish s { s with mbx := { s.mbx with perst := false } })

/-- TAIL writes are taken relative to their HEAD; a write to the MSI-X table sets a dword and lets a pending vector go; a read of a register answers
its value with its side effects, a whole word written takes effect, a write that leaves byte lanes out has none; the arbiter's FREEZE is its register's
bit 0 (R6, R330, R436, R491, R512, R515 to R517). -/
def Obligations.RegisterEventsComplete : Prop :=
  ∀ s : State, ready s = true →
    (∀ (r : Fin 32) v, ∃ t, exec (.pourTailWrite r v) s = .next t
      ∧ (t.rings.get r).tail = takeTail (s.rings.get r).head v (2 ^ (s.rings.get r).log2) ∧ (t.rings.get r).head = (s.rings.get r).head)
    ∧ (∀ v, exec (.evtTailWrite v) s = finish s { s with log := { s.log with tail := takeTail s.log.head v 4096 } })
    ∧ (s.mbx.perst = false →
      (∃ t, exec .ltLatchRead s = .next t ∧ t.time.latchLt = s.lt ∧ (∀ k, k < 4 → t.time.latchTb.getD k 0 = (tbase s k).value)
        ∧ t.out = .pcieRead [BitVec.ofNat 32 s.lt] :: s.out)
      ∧ exec (.loLatchRead false) s = finish s (emit (.pcieRead [(readReg .direct 0x21400 s).1]) (readReg .direct 0x21400 s).2)
      ∧ (∃ t, exec (.loLatchRead true) s = .next t ∧ t.mbx.acceptHi = BitVec.ofNat 32 (s.mbx.accepted.toNat / 2 ^ 32)
        ∧ t.out = .pcieRead [BitVec.ofNat 32 (s.mbx.accepted.toNat % 2 ^ 32)] :: s.out)
      ∧ (∀ win off, exec (.registerReadClear win off) s = finish s (emit (.pcieRead [(readReg win off.toNat s).1]) (readReg win off.toNat s).2))
      ∧ (∀ win off v, exec (.registerWrite win off v 15#4) s = finish s (writeReg win off.toNat v s))
      ∧ (∀ win off v en, en ≠ 15#4 → exec (.registerWrite win off v en) s = finish s s)
      ∧ (∀ off v, off.toNat < 1024 → off.toNat % 4 = 0 → exec (.msixTableWrite off v) s = finish s (sendPending (off.toNat / 16)
          { s with irq := { s.irq with table := s.irq.table.mod (off.toNat / 16) (fun e => msixDword e (off.toNat % 16 / 4) v) } })))
    ∧ (∀ (a : Fin 202) f, ∃ t, exec (.arbFreezeWrite a f) s = .next t ∧ (arb t a).freeze = f ∧ (arb t a).limit = (arb s a).limit)

/-- A frame that meets no stream filter and carries no R-TAG passes the switch with its source learned. Mailbox frames that pass it and their checks:
a read answers the words with the reads' side effects, a write writes them in ascending offset, a command frame hands its descriptors over in order,
and buffer frames write or read the exchange buffer (R338, R411 to R413, R512). -/
def Obligations.MailboxFramesComplete : Prop :=
  ∀ (f : FrameIn) (s : State),
    (switchOn s = true → (port s f.src.port.val).state = .up → f.size ≤ (port s f.src.port.val).cfg.mtu → f.src.rtag = none →
      filterOf s (frameEth s f) (vidOf s (frameEth s f)).toNat = none →
      ∃ fdb, passed f s = some (modNet (fun n => { n with fdb := fdb }) s))
    ∧ ∀ t, passed f s = some t → FrameOk f t = true →
      (accessGood false f.payload = true → exec (.mbxFrameRead f) s =
        finish s (answer f 0x81 (f.payload.take 12 ++ (readSpan (winOf f.payload) (u32 f.payload 4) (u32 f.payload 8) (heard f t)).1)
          (readSpan (winOf f.payload) (u32 f.payload 4) (u32 f.payload 8) (heard f t)).2))
      ∧ (accessGood true f.payload = true → exec (.mbxFrameWrite f) s =
        finish s (answer f 0x82 (f.payload.take 12) (writeSpan (winOf f.payload) (u32 f.payload 4) (f.payload.drop 12) (heard f t))))
      ∧ (∀ n, 1 ≤ n → n ≤ 16 → f.payload.length = 64 * n →
        exec (.mbxFrameCommand f) s = finish s (forAll (chunks 64 n f.payload) (takeDesc f) (heard f t)))
      ∧ (∀ n, spanGood (u64 f.payload 0) n = true → f.payload.length = n + 8 → exec (.bufWrite f) s =
        finish s (answer f 0x84 (leBytes 8 (u64 f.payload 0) ++ leBytes 4 n ++ zeros 4) (post .xbuf (u64 f.payload 0) (f.payload.drop 8) (heard f t))))
      ∧ (f.payload.length = 16 → spanGood (u64 f.payload 0) (u32 f.payload 8) = true → zeroAt f.payload 12 4 = true → exec (.bufRead f) s =
        finish s (answer f 0x85 (leBytes 8 (u64 f.payload 0) ++ leBytes 4 (u32 f.payload 8) ++ zeros 4
          ++ (memView t .xbuf).readBytes (u64 f.payload 0) (u32 f.payload 8)) (heard f t)))

/-- YSP frames that pass their checks under a lease that is held and covers the problem: a fragment is held or completes its group, answered where
ACK asks for it, a SOLVE reaches the scheduler, a MEASURE stores its samples; each renews the lease (R76, R79, R80, R148, R350, R429). A type that no
frame has is answered with YSP_TYPE (R351). -/
def Obligations.YspFramesComplete : Prop :=
  ∀ (f : FrameIn) (s t : State), passed f s = some t →
    let v := greeted f t
    (let h := parseHdr f.payload
     YspOk f (24 + 16 * h.count) t = true → h.client = f.client.toNat → firstFail (fragmentChecks f.payload) = none →
      leaseValid v h.lease f.client (BitVec.ofNat 32 h.epoch) h.problem = true → (prob v h.problem).st ≠ .empty →
      (∀ u, takeFragment f.payload (f.flags.getLsbD 0) (touchLease h.lease v) = (u, .held) → exec (.yspInfuse f) s = finish s u)
      ∧ (∀ u es ack, takeFragment f.payload (f.flags.getLsbD 0) (touchLease h.lease v) = (u, .complete es ack) →
        (completeGroup h.problem es u).2 = stOk →
        let g := (completeGroup h.problem es u).1
        exec (.yspInfuse f) s = finish s (if ack
          then toClient f.client.toNat 0x81 (statusPayload 1 stOk f.seq h.problem h.seq (prob g h.problem).commitSeq) g else g))
      ∧ (∀ es u, (prob u h.problem).twin.state ≠ .paired → completeGroup h.problem es u =
        (modProb h.problem (fun q => mergeEntries es { q with commitSeq := q.commitSeq + 1 }) u, stOk)))
    ∧ (let p := u16 f.payload 0
       YspOk f 16 t = true → f.flags = 0 → zeroAt f.payload 2 2 = true → zeroAt f.payload 6 2 = true → zeroAt f.payload 12 4 = true →
       leaseValid v (u16 f.payload 4) f.client (BitVec.ofNat 32 (u32 f.payload 8)) p = true →
       (prob v p).st = .enabled → (prob v p).staging = false → (prob v p).sched.requested = true →
       exec (.yspSolve f) s = finish s (solve p (touchLease (u16 f.payload 4) v)).1)
    ∧ (∀ n, 1 ≤ n → n ≤ 256 → f.payload.length = 8 + 32 * n → YspOk f (8 + 32 * n) t = true → f.flags = 0 → zeroAt f.payload 2 2 = true →
       (measureRecs f.payload).any (fun r => !zeroAt r 4 4) = false →
       let p := u16 ((measureRecs f.payload).headD []) 0
       leaseValid v (u16 f.payload 0) f.client (BitVec.ofNat 32 (u32 f.payload 4)) p = true →
       (measureRecs f.payload).any (sampleBad p) = false → (prob v p).st ≠ .empty →
       exec (.yspMeasure f) s = finish s (takeSamples p (measureRecs f.payload) (touchLease (u16 f.payload 0) v)))
    ∧ (∀ ty : Byte, (ty = 0 ∨ 4 < ty.toNat) → YspOk f f.payload.length t = true →
       exec (.yspUnknownType ty f) s = finish s (refuse f.client.toNat ty.toNat stYspType f.seq none none v))

/-- Lease frames and events: ACQUIRE of a FREE lease, or of any where the lowest FREE one is taken, grants it with the next epoch, of the client's own
it renews the lease, of a lease that another holds or awaits it waits in order; RENEW moves its expiry, RELEASE frees it or gives up waiting; a lease whose
EXPIRY LT has reached expires; a freed lease with a waiter goes to the first one; no circle is left after a snapshot that finds none (R428, R430, R433). -/
def Obligations.LeaseEventsComplete : Prop :=
  ∀ s : State,
    (∀ f u, passed f s = some u → YspOk f 16 u = true → f.flags = 0 → zeroAt f.payload 1 1 = true →
      let v := greeted f u
      let l := u16 f.payload 2
      let d := u32 f.payload 8
      let mine := (lease v l).client = some f.client ∧ (lease v l).epoch = BitVec.ofNat 32 (u32 f.payload 4) ∧ v.lt < (lease v l).expiry
      (u8 f.payload 0 = 0 → 50 ≤ d → d ≤ 10000000 → 1 ≤ u16 f.payload 14 → u16 f.payload 12 + u16 f.payload 14 ≤ 1024 →
        (∀ k, ((l < 512 ∧ k = l ∧ (lease v l).client = none ∧ (lease v l).waiters = []) ∨ (l = 0xFFFF ∧ lowestFree v = some k)) →
          ∃ t, exec (.leaseAcquire f) s = .next t ∧ (lease t k).client = some f.client ∧ (lease t k).epoch = nextEpoch (lease v k).epoch
            ∧ (lease t k).expiry = v.lt + d * 1000 ∧ (lease t k).granted = v.lt ∧ (lease t k).first = u16 f.payload 12
            ∧ (lease t k).count = u16 f.payload 14)
        ∧ (l < 512 → mine → ∃ t, exec (.leaseAcquire f) s = .next t ∧ (lease t l).client = some f.client ∧ (lease t l).epoch = (lease v l).epoch
            ∧ (lease t l).expiry = v.lt + d * 1000 ∧ (lease t l).first = u16 f.payload 12 ∧ (lease t l).count = u16 f.payload 14)
        ∧ (l < 512 → (lease v l).client ≠ some f.client → ((lease v l).client ≠ none ∨ (lease v l).waiters ≠ []) →
          v.leases.any (fun e => e.2.waiters.any (fun w => w.client == f.client)) = false →
          ∃ t, exec (.leaseAcquire f) s = .next t ∧ (lease t l).client = (lease v l).client
            ∧ (lease t l).waiters = (lease v l).waiters ++ [⟨f.client, d, u16 f.payload 12, u16 f.payload 14⟩]))
      ∧ (l < 512 → u8 f.payload 0 = 1 → 50 ≤ d → d ≤ 10000000 → mine →
        ∃ t, exec (.leaseRenew f) s = .next t ∧ (lease t l).client = some f.client ∧ (lease t l).expiry = v.lt + d * 1000
          ∧ (lease t l).epoch = (lease v l).epoch)
      ∧ (l < 512 → u8 f.payload 0 = 2 →
        (mine → ∃ t, exec (.leaseRelease f) s = .next t ∧ (lease t l).client = none ∧ (lease t l).epoch = (lease v l).epoch
          ∧ (lease t l).waiters = (lease v l).waiters)
        ∧ ((lease v l).client ≠ some f.client → (lease v l).waiters.any (fun w => w.client == f.client) = true →
          ∃ t, exec (.leaseRelease f) s = .next t ∧ (lease t l).client = (lease v l).client
            ∧ (lease t l).waiters = (lease v l).waiters.filter (fun w => w.client != f.client))))
    ∧ (∀ (l : Fin 512) c, (lease s l).client = some c → (lease s l).expiry ≤ s.lt →
      ∃ t, exec (.leaseExpiry l) s = .next t ∧ (lease t l).client = none ∧ (lease t l).epoch = (lease s l).epoch
        ∧ (lease t l).waiters = (lease s l).waiters ∧ ∀ p, (prob t p).groups = (prob s p).groups.filter (fun g => g.lease != l.val))
    ∧ (∀ (l : Fin 512) w ws, (lease s l).client = none → (lease s l).waiters = w :: ws →
      ∃ t, exec (.leaseWaiterGrant l) s = .next t ∧ (lease t l).client = some w.client ∧ (lease t l).waiters = ws
        ∧ (lease t l).epoch = nextEpoch (lease s l).epoch ∧ (lease t l).expiry = s.lt + w.duration * 1000)
    ∧ (∀ (l : Nat) cs, findCircle s = some cs → youngest s cs = some l → (lease s l).client ≠ none →
      ∃ t, exec .leaseCycleSnapshot s = .next t ∧ (lease t l).client = none)
    ∧ (findCircle s = none → exec .leaseCycleSnapshot s = finish s s)

/-- Messages from the master that a time base follows: a one-step Sync measures at once, a two-step one with its Follow_Up, a Delay_Resp that answers
the last request sets the mean path delay, an Announce of the present master is followed, gPTP interval requests in range are taken (R313, R322, R329). -/
def Obligations.PtpMasterMessages : Prop :=
  ∀ (s : State) (m : PtpIn) (n : Nat), hearer s m = some n → fromMaster (tbase s n) m = true → (tbase s n).state ≠ .free →
    (ptpIgnored s true m = false →
      let u := modTb n (fun b => { b with lastSync := some s.lt, master := b.master.map (fun ma => { ma with logSync := m.logInterval }) }) s
      (m.twoStep = false → exec (.ptpSyncReceived m) s = finish s (syncMeasure n m (stampTo s (tbase s n) m.ingress) (m.stamp + m.corr) u))
      ∧ (m.twoStep = true → exec (.ptpSyncReceived m) s =
          finish s (modTb n (fun b => { b with twoStep := some (m.seqId, stampTo s (tbase s n) m.ingress, m.corr) }) u)))
    ∧ (ptpIgnored s false m = false →
      (∀ v c, (tbase s n).twoStep = some (m.seqId, v, c) →
        exec (.ptpFollowUpReceived m) s = finish s (syncMeasure n m v (m.stamp + m.corr + c) s))
      ∧ (∀ t3 d, (tbase s n).delayReq = some (m.seqId, t3) → (tbase s n).syncDiff = some d → (tbase s n).source = 2 → m.forUs = true →
        exec (.ptpDelayRespReceived m) s = finish s (modTb n (fun b => { b with
          delayReq := none, pathDelay := rneDiv (-d + ((m.stamp : Int) - m.corr - t3)) 2 }) s))
      ∧ (∀ ls la lp : Int, (tbase s n).source = 4 → -7 ≤ ls → ls ≤ 0 → -7 ≤ la → la ≤ 0 →
        ∃ t, exec (.ptpSignalingReceived m ls la lp) s = .next t ∧ (tbase t n).logSync = ls ∧ (tbase t n).logAnnounce = la
          ∧ (tbase t n).rate = (tbase s n).rate)
      ∧ (∀ a : AnnounceIn, a.msg = m → (tbase s n).partner = none → (tbase s n).cfg.cls = 255 →
        ∃ t, exec (.ptpAnnounceReceived a) s = .next t ∧ (tbase t n).slavePort = some m.port.val
          ∧ (tbase t n).master.map (fun ma => ma.ann) = some a ∧ (tbase t n).state = (tbase s n).state))

/-- Messages that the device sends or answers: Sync and Announce of a time base that is master on a port, Delay_Req of an end-to-end slave, the answer
to one, Pdelay_Req and its answer on a port that measures its neighbour (R313, R323, R329). A time base ends: TB_DISABLE_COMPLETE records its final value and leaves it DISABLED at value 0; the loss of the master of one without a partner
is HOLDOVER, which keeps its rate (R311, R316). -/
def Obligations.PtpSendsAndEnds : Prop :=
  (∀ (s : State) (n : Fin 4) (p : Fin 16),
      (masterOn s n p = true →
        exec (.ptpSyncTx n p) s = finish s (sendPtp 0 p (tbase s n).domain (tbase s n).seqId ((tbase s n).value / 2 ^ 40) (fracOf (tbase s n))
          (modTb n (fun b => { b with seqId := b.seqId + 1 }) s))
        ∧ exec (.ptpAnnounceTx n p) s = finish s (sendPtp 11 p (tbase s n).domain (tbase s n).seqId 0 0 (modTb n (fun b => { b with seqId := b.seqId + 1 }) s)))
      ∧ ((tbase s n).source = 2 → (tbase s n).slavePort = some p.val → (tbase s n).state = .locked → (port s p).state = .up →
        ∃ t, exec (.ptpDelayReqTx n p) s = .next t ∧ (tbase t n).delayReq = some ((tbase s n).seqId, (((tbase s n).value / 2 ^ 24 : Nat) : Int))
          ∧ t.out = .ptp 1 p (BitVec.ofNat 8 (tbase s n).domain) (tbase s n).seqId 0 0 :: s.out)
      ∧ (∀ m : PtpIn, m.port = p → ptpIgnored s false m = false →
        (hearer s m = some n.val → (tbase s n).source = 2 → masterOn s n p = true →
          exec (.ptpDelayReqReceived m) s = finish s (sendPtp 9 p m.domain.toNat m.seqId (stampTo s (tbase s n) m.ingress).toNat m.corr s))
        ∧ (measuresNeighbour s p = true → (port s p).state = .up →
          exec (.ptpPdelayReqReceived m) s = finish s (sendPtp 3 p m.domain.toNat m.seqId 0 (m.corr + ((s.lt : Int) * 2 ^ 16 - m.ingress)) s))
        ∧ (∀ t1, measuresNeighbour s p = true → (s.time.ports.get p).req = some (m.seqId, t1) → m.forUs = true → m.twoStep = false →
          ∃ t, exec (.ptpPdelayRespReceived m) s = .next t ∧ (t.time.ports.get p).delay = some (rneDiv ((m.ingress : Int) - t1 - m.corr) 2)
            ∧ (t.time.ports.get p).req = none))
      ∧ (measuresNeighbour s p = true → (port s p).state = .up →
        ∃ t, exec (.ptpPdelayReqTx p) s = .next t ∧ (t.time.ports.get p).req = some ((s.time.ports.get p).seqId, (s.lt : Int) * 2 ^ 16)
          ∧ (t.time.ports.get p).seqId = (s.time.ports.get p).seqId + 1))
  ∧ (∀ (n : Fin 4) (s : State),
      ((tbase s n).state = .disabling → (tbase s n).held = none →
        exec (.tbDisableComplete n) s = finish s (endAwait (.tbDisable n) stOk (leBytes 8 ((tbase s n).value / 2 ^ 40))
          (event 0x10 n (leBytes 8 ((tbase s n).value / 2 ^ 40)) (modTb n disableTb s)))
        ∧ ∃ t, exec (.tbDisableComplete n) s = .next t ∧ (tbase t n).state = .disabled ∧ (tbase t n).value = 0)
      ∧ (∀ ma l, (tbase s n).master = some ma → (tbase s n).lastSync = some l → (tbase s n).state = .locked → (tbase s n).partner = none →
        1250000000 ≤ (s.lt - l) * 2 ^ (-ma.logSync).toNat →
        ∃ t, exec (.masterLost n) s = .next t ∧ (tbase t n).state = .holdover ∧ (tbase t n).rate = (tbase s n).rate
          ∧ (tbase t n).value = (tbase s n).value ∧ ∀ k, k ≠ n.val → tbase t k = tbase s k))

/-- Port events: training ends in UP, a link that the partner loses shuts down, a shut-down that ends takes the configuration that waits for
it and trains again where a restart, a held enable or the partner asks for it, verification decides preemption (R333, R335, R342). Queued
frames of a port that goes down are discarded and counted, and no other port changes. -/
def Obligations.PortEventsComplete : Prop :=
  ∀ (p : Fin 16) (s : State),
    ((port s p).state = .training → ∃ t, exec (.portUp p) s = .next t ∧ (port t p).state = .up ∧ (port t p).linkChanged = true
      ∧ (port t p).preemptActive = ((port s p).cfg.flags.getLsbD 3 && !(port s p).cfg.flags.getLsbD 4) ∧ ∀ k, k ≠ p.val → port t k = port s k)
    ∧ ((port s p).state = .up → ∃ t, exec (.portLinkLost p) s = .next t ∧ (port t p).state = .downing ∧ (port t p).byPartner = true
      ∧ (port t p).queue = []
      ∧ (port t p).drops = satPlus (port s p).drops (((port s p).queue.map (fun x => (itemSizes x.2).length)).foldl (· + ·) 0)
      ∧ ∀ k, k ≠ p.val → port t k = port s k)
    ∧ ((port s p).state = .downing →
      ((port s p).byPartner = false → (port s p).enableHeld = false → (port s p).restart = none →
        ∃ t, exec (.portShutdownComplete p) s = .next t ∧ (port t p).state = .disabled ∧ (port t p).cfg = (port s p).cfg)
      ∧ ((port s p).byPartner = true ∨ (port s p).enableHeld = true ∨ (port s p).restart.isSome = true →
        ∃ t, exec (.portShutdownComplete p) s = .next t ∧ (port t p).cfg = (port s p).restart.getD (port s p).cfg
          ∧ (port t p).state = if (port t p).cfg.mode = 0 then .disabled else .training))
    ∧ (∀ ok, (port s p).state = .up → (port s p).cfg.flags.getLsbD 3 = true → (port s p).cfg.flags.getLsbD 4 = true →
      exec (.preemptVerifyDone p ok) s = finish s (modPort p (fun q => { q with preemptActive := ok }) s))

/-- Gate events: a waiting list whose first cycle starts at least 1 µs after GATE_SET takes effect there and lets the frames of its first
entry go, and a list in force starts its cycles so; at an interval's end the next entry's gates take effect; a hold goes out HOLD_ADVANCE
before an express gate opens (R340 to R342). The switch: a frame that is too long or has a bad FCS is dropped and counted at its port, one
that a filter stops goes no further; one that passes is learned and forwarded, its VLAN the port's where it has none, or, addressed to the
device, ends at sequence recovery or at its port's admission; a learned address ages out after 300 s; a sequence recovery entry resets; the
switch core starts after the main die (R336, R338, R339, R345, R346). -/
def Obligations.GateAndSwitchEvents : Prop :=
  (∀ (p : Fin 16) (s : State) (g : GateList), gateClock s g.tb = true →
      ((g.base : Int) ≤ clockNow s g.tb → cyclePos g (clockNow s g.tb) < (g.entries.getD 0 (0, 0)).2 →
        (∀ t0, (port s p).gateNext = some (g, t0) → t0 + 1000 + cyclePos g (clockNow s g.tb) ≤ s.lt →
          exec (.gateCycleStart p) s = finish s (drain p (modPort p (fun q => { q with gate := some g, gateNext := none, gatePos := some 0 }) s)))
        ∧ ((port s p).gateNext = none → (port s p).gate = some g → cyclePos g (clockNow s g.tb) ≤ s.lt →
          exec (.gateCycleStart p) s = finish s (drain p (modPort p (fun q => { q with gatePos := some 0 }) s))))
      ∧ (∀ i, (port s p).gate = some g → (port s p).gatePos = some i → entryAt g.entries (cyclePos g (clockNow s g.tb)) ≠ i →
        ∃ t, exec (.gateIntervalEnd p) s = .next t ∧ (port t p).gatePos = some (entryAt g.entries (cyclePos g (clockNow s g.tb)))
          ∧ gatesNow (port t p) = (g.entries.getD (entryAt g.entries (cyclePos g (clockNow s g.tb))) (0xFF, 0)).1)
      ∧ (∀ i, (port s p).gate = some g → (port s p).gatePos = some i → (port s p).state = .up → (port s p).preemptActive = true → (port s p).holding = false →
        ((g.entries.take (i + 1)).map Prod.snd).foldl (· + ·) 0 ≤ cyclePos g (clockNow s g.tb) + (port s p).cfg.hold →
        ((g.entries.getD ((i + 1) % g.entries.length) (0, 0)).1 &&& ~~~(gatesNow (port s p)) &&& (port s p).cfg.express) ≠ 0 →
        exec (.preemptionHold p) s = finish s (emit (.hold p true) (modPort p (fun q => { q with holding := true }) s))))
  ∧ (∀ s : State,
      (∀ e : EthIn, switchOn s = true → (port s e.port.val).state = .up →
        let u := countFec e s
        let vid := vidOf s e
        let learned := fun t : State => modNet (fun n => { n with fdb := if e.src.getLsbD 0 then n.fdb else learn e.src vid e.port.val t.lt [] n.fdb }) t
        ((e.fcsBad = true ∨ (port s e.port.val).cfg.mtu < e.size) →
          exec (.transitFrame e) s = finish s (modPort e.port.val (fun q => { q with drops := satInc q.drops }) u))
        ∧ (e.fcsBad = false → e.size ≤ (port s e.port.val).cfg.mtu →
          (∀ t, qci e vid.toNat u = (none, t) → exec (.transitFrame e) s = finish s t)
          ∧ (∀ f t, qci e vid.toNat u = (some f, t) →
            (e.toDevice = false → exec (.transitFrame e) s = finish s (forwardFrame f vid (learned t)))
            ∧ (e.toDevice = true → (recover f vid.toNat (learned t)).1 = false →
              exec (.transitFrame e) s = finish s (recover f vid.toNat (learned t)).2)
            ∧ (e.toDevice = true → (recover f vid.toNat (learned t)).1 = true →
              exec (.transitFrame e) s = finish s (toDevice f (recover f vid.toNat (learned t)).2)))
          ∧ (filterOf s e vid.toNat = none → qci e vid.toNat u = (some e, u))))
      ∧ (∀ mac vid, ∃ t, exec (.fdbAgeing mac vid) s = .next t ∧
          (∀ x, x ∈ t.net.fdb ↔ x ∈ s.net.fdb ∧ ¬ (x.mac = mac ∧ x.vid = vid ∧ x.static = false ∧ x.seen + 300000000000 ≤ s.lt))
          ∧ t.net.ports = s.net.ports)
      ∧ (∀ (i : Fin 256) r, s.net.recs.get? i.val = some r → exec (.sequenceRecoveryReset i) s =
          finish s { s with net := { s.net with recs := s.net.recs.set i.val { r with newest := none, seen := [] } } })
      ∧ (s.pwr.stage = .mainOn → ∃ t, exec .switchCoreStart s = .next t ∧ t.pwr.stage = .switchOn ∧ (s.net.store.ports = none → t.net.cfg = s.net.cfg)))

/-- Peer-link events: training ends in UP on at least two lanes that are not fenced and takes the partner's record, the partner's drop begins the
shut-down, its end leaves the link DISABLED, or training where the partner dropped it or an enable is held, and a flit with a CRC error is
replayed and counted, a replay that fails losing the lane (R356, R358). Twin events: a barrier message is taken as the partner's word for the
next barrier, or, with another STEEP than a PAIRED problem waits for, ends its wait; a barrier or a digest that the partner does not answer in
time ends the pair, with TWIN_LOST and TIMEOUTS; a digest for a steep the device has poured is compared with its own, otherwise kept (R364 to
R370). -/
def Obligations.LinkAndTwinEvents : Prop :=
  (∀ (l : Fin 8) (s : State),
      (∀ lanes g r, mainOn s = true → (link s l).state = .training → 2 ≤ laneCount (lanes &&& goodLanes s l) →
        ∃ t, exec (.plkLinkUp l lanes g r) s = .next t ∧ (link t l).state = .up ∧ (link t l).lanes = lanes &&& goodLanes s l
          ∧ (link t l).peerGroup = g ∧ (link t l).peerRank = r ∧ (link t l).linkChanged = true)
      ∧ ((link s l).state = .up → exec (.plkLinkLost l) s =
          finish s (leaveUp l (modLink l (fun k => { k with state := .draining, cause := 1, linkChanged := true }) s)))
      ∧ ((link s l).state = .draining → ∃ t, exec (.plkShutdownComplete l) s = .next t ∧ (link t l).lanes = 0
          ∧ (link t l).vc2Sent = [] ∧ (link t l).vc2Wait = []
          ∧ (link t l).state = if (link s l).cause = 1 ∨ (link s l).enableHeld = true then .training else .disabled)
      ∧ (∀ lane, ((link s l).state = .up ∨ (link s l).state = .draining) →
          (∃ t, exec (.flitCrcError l false lane) s = .next t ∧ (link t l).state = (link s l).state
            ∧ (link t l).replays = satInc (link s l).replays ∧ (unit t 7 (4 * l + lane)).transients = satInc (unit s 7 (4 * l + lane)).transients)
          ∧ ((link s l).lanes.getLsbD lane = true → fenced s 7 (4 * l + lane) = false → exec (.flitCrcError l true lane) s =
            finish s (loseLane l lane (emit (.replay l) (modLink l (fun k => { k with replays := satInc k.replays }) s))))))
  ∧ (∀ (p : Fin 1024) (s : State),
      (∀ b, full s = true → ((prob s p).twin.state = .forming ∨ (prob s p).twin.state = .paired) →
          (crossed (prob s p) b = none → exec (.barrierMessageReceived p b) s =
            finish s (tryBarrier p (modProb p (fun q => { q with twin := { q.twin with early := some b } }) s)))
          ∧ (∀ t, crossed (prob s p) b = some t → exec (.barrierMessageReceived p b) s = finish s (runAlone p t s)))
      ∧ (∀ t, (prob s p).atBarrier = some t → t.release + (prob s p).twin.wait ≤ s.lt →
          ((prob s p).twin.state ≠ .paired → exec (.barrierTimeout p) s = finish s (runAlone p t s))
          ∧ ((prob s p).twin.state = .paired → exec (.barrierTimeout p) s =
              finish s (runAlone p t (modProb p (fun q => { q with twin := { q.twin with timeouts := satInc q.twin.timeouts } }) s))))
      ∧ ((prob s p).twin.state = .paired →
          (∀ mismatch steep status digest,
            let u := if mismatch then event 0x40 p (divergeData steep 1 0 status 0 digest) s else s
            ((prob s p).twin.own.find? (fun x => x.1 == steep) = none →
              ∃ t, exec (.digestMessageReceived p mismatch steep status digest) s = .next t
                ∧ (prob t p).twin.partner = (prob s p).twin.partner ++ [(steep, status, digest)] ∧ (prob t p).twin.state = .paired)
            ∧ (∀ x, (prob s p).twin.own.find? (fun x => x.1 == steep) = some x →
              exec (.digestMessageReceived p mismatch steep status digest) s = finish s (compareDigests p steep x.2.1 status x.2.2.1 digest
                (modProb p (fun q => { q with twin := { q.twin with own := q.twin.own.filter (fun x => x.1 != steep) } }) u))))
          ∧ (∀ x xs, (prob s p).twin.own = x :: xs → x.2.2.2 + 100000 ≤ s.lt →
            ∃ t, exec (.digestTimeout p) s = .next t ∧ (prob t p).twin.state = .solo ∧ (prob t p).twin.queue = [])))

/-- Releases: a PERIODIC problem whose time base has reached a release instant releases one steep with the deadline D after it and counts the instants
passed over, after the end of a steep in flight that is past its deadline; a held request that is due is released with the instant of its acceptance,
cut under DEGRADE by the time since the release before, and a pre-warm wakes the domains of the problem's set (R28 to R30, R34, R41, R43, R147). -/
def Obligations.ReleaseEventsComplete : Prop :=
  ∀ (p : Fin 1024) (s : State),
    (∀ x n, dueInstant s (prob s p) = some (x, n) →
      let u := match (prob s p).steep with | some t => if t.deadline ≤ s.lt then endAtDeadline p s else s | none => s
      let v := modProb p (fun q => { q with lastInstant := some x, stats := { q.stats with steppedOver := satPlus q.stats.steppedOver n } }) u
      exec (.periodicRelease p) s = finish s (releaseSteep p { deadline := v.lt + (prob v p).sched.deadline, instant := x } (shedEvents n v)))
    ∧ (∀ h, (prob s p).held = some h → heldDue (prob s p) s.lt = true → exec (.heldRequestRelease p) s =
      finish s (releaseSteep p { deadline := s.lt + (prob s p).sched.deadline, instant := h.instant
                                 cut := if (prob s p).sched.policy = 2
                                   then some (match (prob s p).lastRelease with | some l => s.lt - l | none => (prob s p).sched.period) else none }
        (modProb p (fun q => { q with held := none }) s)))
    ∧ (∀ k, (prob s p).set = some k → (prob s p).st = .enabled → (prob s p).sched.requested = false → (prob s p).staging = false →
      (prob s p).prewarm = false → 0 < (prob s p).sched.period → clockRuns s (prob s p).sched.tb = true →
      let cold := (domainsOf (rset s k)).any (fun d => (pd s d).state == .off || (pd s d).state == .goingOff)
      predictLt s (prob s p).sched.tb (nextInstant s (prob s p)) ≤ s.lt + (if cold then 40000 else 2000) →
      exec (.prewarmStart p) s = finish s (wakeSet (rset s k) (modProb p (fun q => { q with prewarm := true }) s)))

/-- The ends of a steep: a commit of 2.5 ns an entry gives way to the first evaluation, or to the end of a steep whose deadline or budget has passed
meanwhile; a deadline or a budget end ends a steep with the deadline code of its last evaluation, but marks a commit, which is never cut; an enabled
trap inside an iteration ends it with TRAP; the budget end counts an overrun (R14, R37, R47, R48, R82, R120). Inside an iteration: the pipelines' stages
and the quadrants' shares come in, an iteration whose shares are in commits with what it computes, a breakdown of its factorisation is taken and the
fifth in one iteration ends the steep with NUMERIC (R104, R115, R134, R171, R172). -/
def Obligations.SteepRowsComplete : Prop :=
  ∀ (p : Fin 1024) (s : State) (im : Image) (t : Steep), (prob s p).im = some im → (prob s p).steep = some t →
    (let x := settleRetry true t s
     let u := modProb p (fun q => { q with steep := some x.1 }) x.2
     let overrun := modProb p (fun q => { q with stats := { q.stats with overruns := satInc q.stats.overruns } }) u
     t.phase = .commit → 5 * t.commitEntries ≤ 2 * (s.lt - t.since) → exec (.commitComplete p) s = finish s
      (if t.late = true ∨ t.deadline ≤ u.lt then finishSteep p .deadlineInfeas false u
       else if t.budget ≤ t.spent u.lt then finishSteep p .deadlineInfeas false overrun
       else evalDone p (goOn p x.1 u)))
    ∧ (t.deadline ≤ s.lt →
      (t.phase ≠ .commit → exec (.deadlineReached p) s =
        finish s (finishSteep p t.deadlineCode (t.phase == .running && t.iterating && decide (t.iterSince < s.lt)) s))
      ∧ (t.phase = .commit → exec (.deadlineReached p) s = finish s (modProb p (fun q => { q with steep := some { t with late := true } }) s)))
    ∧ (t.phase = .commit ∨ t.phase = .running → t.budget ≤ t.spent s.lt → t.late = false → exec (.budgetEnd p) s =
        finish s (endAtDeadline p (modProb p (fun q => { q with stats := { q.stats with overruns := satInc q.stats.overruns } }) s)))
    ∧ (t.phase = .running → t.iterating = true →
      (∀ pipe : Fin 8, t.jduLeft.getD pipe [] ≠ [] → exec (.jduStageComplete p pipe) s =
        finish s (evalDone p (modProb p (fun q => { q with steep := some { t with jduLeft := t.jduLeft.modify pipe (fun l => l.drop 1) } }) s)))
      ∧ (∀ (m : Fin 16) (qd : Fin 4), (m.val, qd.val) ∈ t.modelLeft → t.modelWaits im m = false → exec (.modelEvaluationComplete p m qd) s =
        finish s (evalDone p (modProb p (fun q => { q with steep := some { t with modelLeft := t.modelLeft.filter (· != (m.val, qd.val)) } }) s)))
      ∧ (t.inTime s.lt = true →
        (let n := if t.evaluated then (solveIn s p im t).runIter.2 else (solveIn s p im t).runFirst.2
         n.traps ≠ [] → ∀ x, exec (.iterationTrap p x) s = finish s (trapSteep p im t n (countCorrected x s)))
        ∧ (t.evaluated = true → t.sharesIn = true → t.passes = [] →
          (∀ r n corrected, (solveIn s p im t).runIter = (some r, n) → n.traps = [] →
            exec (.iterationComplete p corrected) s = finish s (completeIter p im t r n (countCorrected corrected s)))
          ∧ (let n := (solveIn s p im t).runIter.2
             n.traps = [] → t.breakdowns < n.breaks →
              (t.breakdowns < 4 → ∃ u, exec (.factorisationBreakdown p) s = .next u
                ∧ (prob u p).steep = some { t with breakdowns := t.breakdowns + 1 } ∧ ∀ q, q ≠ p.val → prob u q = prob s q)
              ∧ (4 ≤ t.breakdowns → exec (.factorisationBreakdown p) s = finish s (finishSteep p .numeric false
                  (modProb p (fun q => { q with steep := some (mergeTensor p t n.tn s).1 }) (mergeTensor p t n.tn s).2)))))))

/-- Between steeps: the prior of a CLASS 3 problem is updated from the steep that froze, and its set is free once no update is left; a retirement whose
last steep has poured ends; a checkpoint that was captured is written where its command asked, or the command ends with CKPT_SPACE and the bytes needed;
a query's output is written and its command ends; a quadrant is staged between two steeps of its set; a level is lowered 10 ms after the last change
where the test holds; the shed interrupt comes at the end of an interval in which the total changed; a tile's reclaim changes no result (R45, R46, R52,
R141, R154, R155, R182, R183, R259). -/
def Obligations.SchedulerEventsComplete : Prop :=
  ∀ s : State,
    (∀ (p : Fin 1024) im u rest, (prob s p).im = some im → (prob s p).est.updating = u :: rest →
      let r := priorStep s p im (prob s p).est u
      let mine := s.sets.filter (fun e => e.2.running == some p.val && rest.isEmpty)
      ∀ a b c, exec (.priorUpdateComplete p (a, b) c) s = finish s (refreshPower (forAll mine (fun e t => endWork e.2 t)
        (settle (forAll mine (fun e t => modSet e.1 (fun r => { r with running := none }) t)
          (modProb p (fun q => mergePrior u r.2 { q with est := { (if u.void then q.est else r.1) with updating := rest } }) (countCorrected (a, b, c) s)))))))
    ∧ (∀ p : Fin 1024, (prob s p).st = .retiring → (prob s p).steep = none → (prob s p).after = [] → (prob s p).est.updating = [] →
      exec (.retirementComplete p) s = finish s (retireDone p s))
    ∧ (∀ (p : Fin 1024) k bs, (prob s p).ckpt = some k → k.captured = some bs →
      let u := modProb p (fun q => { q with ckpt := none }) s
      (∀ r rs, runsOf s .checkpoint p = r :: rs →
        (bs.length ≤ r.cmd.c.length.toNat → exec (.checkpointWritten p) s = finish s (endAwaitP .checkpoint p stOk [] (putRecord r.cmd.c.addr bs u)))
        ∧ (r.cmd.c.length.toNat < bs.length → exec (.checkpointWritten p) s =
            finish s (endAwaitP .checkpoint p stCkptSpace (leBytes 4 bs.length) u)))
      ∧ (runsOf s .checkpoint p = [] → exec (.checkpointWritten p) s = finish s u))
    ∧ (∀ bs r, s.query = some bs → s.mbx.running.find? (fun x => x.await == .jduQuery) = some r → exec .jduQueryComplete s =
        finish s (endQuery (endAwait .jduQuery stOk [] (putRecord r.cmd.c.addr2 bs s))))
    ∧ (∀ (q : Fin 4) k, k < 64 → (rset s k).running = none →
      ∃ t, exec (.weightStagingComplete q) s = .next t ∧ q.val ∉ (rset t k).toStage)
    ∧ (∀ (k : Fin 64) p, lowerNext s k = some p → levelsRest s k = true →
      lowerPasses s k (fun q => (prob s q).level - (if q = p then 1 else 0)) = true → exec (.overloadLower k) s =
        finish s (modProb p (fun q => { q with level := q.level - 1, levelAt := some s.lt }) s))
    ∧ (ready s = true → s.mbx.shedInterval ≠ 0 → s.mbx.shedStart + 1000 * s.mbx.shedInterval.toNat ≤ s.lt →
      let u := modMbx (fun b => { b with shedChanged := false, shedStart := s.lt }) s
      exec .shedIntervalEnd s = finish s (if s.mbx.shedChanged then event 0x30 0 (wBytes 4 s.mbx.shedTotal) u else u))
    ∧ (∀ tile : Fin 128, exec (.tileReclaim tile) s = finish s s)

/-- Training events of a job: a round begins once the steep before its cutoff has frozen, a step runs the optimiser once and the last step of a round
leads to its validation, an empty validation set rejects the round and one that is not decides on the candidate, whose acceptance has the problem's
quadrants staged again; the end of a stop removes the job, ends TRAIN_STOP with the generation in force, and carries out a TRAIN_SET that was held
(R235, R237 to R239, R241, R247). -/
def Obligations.TrainingEventsComplete : Prop :=
  ∀ (p : Fin 1024) (model : Fin 16) (s : State) (j : Job), jobOf s p model = some j →
    (∀ f, (prob s p).final = some f → j.state = .waiting → j.stepsDone = none → cutoff j j.round ≤ f.1.toNat + 1 →
      exec (.roundStart p model) s = finish s (modJob p model Job.beginRound s))
    ∧ (∀ im m, (prob s p).im = some im → im.findModel model = some m →
      (∀ n, j.stepsDone = some n → j.state = .training → n < j.cfg.steps →
        exec (.trainStep p model) s = finish s (modJob p model (fun j =>
          let j' := withFlags (runStep im m (im.weightsOf m) j)
          { j' with stepsDone := some (n + 1), state := if n + 1 = j.cfg.steps then .validating else .training }) s))
      ∧ (j.state = .validating → j.val = [] → exec (.roundValidate p model) s = finish s (modJob p model Job.reject s))
      ∧ (j.state = .validating → j.val ≠ [] →
        let r := (validate im (prob s p) m j).run {}
        let j' := Job.decide' { j with sflags := j.sflags ||| (r.2.sc.setWidth 7 &&& 0x1F), tflags := j.tflags ||| r.2.tn } r.1.1 r.1.2.1 r.1.2.2
        let u := modJob p model (fun _ => j') s
        exec (.roundValidate p model) s = finish s (match (prob s p).set with
          | some k => if j.accepted.length < j'.accepted.length then modSet k (fun x => { x with toStage := (x.toStage ++ x.quads).eraseDups }) u else u
          | none => u)))
    ∧ (j.stopping = true →
      (j.held = none → ∃ t, exec (.trainStopComplete p model) s = .next t ∧ jobOf t p model = none
        ∧ ((prob t p).prev.get? model.val) = none ∧ (prob t p).gens = (prob s p).gens ∧ (prob t p).params = (prob s p).params)
      ∧ (∀ c w, j.held = some (c, w) →
        let u := endAwaitP (.trainStop model) p stOk (stopResult (prob s p) j) (removeJob p model s)
        exec (.trainStopComplete p model) s =
          finish s (endAwaitP (.trainSet model) p (replaceJob p model c w u).2 [] (replaceJob p model c w u).1)))

/-- Loop registers with the direct window open: RUN starts a legal loop, holds the start of one that is stopping, leaves one that runs, sets
CFG_ERR on one that R284 refuses, and RUN 0 stops a running one and takes back a start; HOLD, CLEAR_SAFE and configuration of a STOPPED loop
take effect at once and of another wait for its boundary, PERIOD, PHASE and PV_ORIGIN being ignored there; a selector's registers change while
every member is STOPPED, and are ignored otherwise; no write of one loop's register changes another loop (R272, R278, R280, R281, R283, R285,
R286). -/
def Obligations.LoopRowsComplete : Prop :=
  ∀ (n : Fin 32) (s : State), ready s = true → s.edge.on = true →
    let l := loopN s.edge n
    let others := fun t : State => ∀ k, k ≠ n.val → loopN t.edge k = loopN s.edge k
    (startBad s.edge n (takenLoops s.edge) = false →
      (l.busy = false →
        ∃ t, exec (.leRunWrite n true) s = .next t ∧ loopN t.edge n = { l with starting := some s.edge.tick, run := true } ∧ others t)
      ∧ (l.state = .stopping →
        ∃ t, exec (.leRunWrite n true) s = .next t ∧ loopN t.edge n = { l with startHeld := true, run := true } ∧ others t)
      ∧ (l.state = .running ∨ (l.state = .stopped ∧ l.busy = true) →
        ∃ t, exec (.leRunWrite n true) s = .next t ∧ loopN t.edge n = l ∧ others t))
    ∧ (startBad s.edge n (takenLoops s.edge) = true →
      ∃ t, exec (.leRunWrite n true) s = .next t ∧ loopN t.edge n = { l with cfgErr := true } ∧ others t)
    ∧ (∃ t, exec (.leRunWrite n false) s = .next t ∧ others t ∧ loopN t.edge n = { l with
        run := false, starting := none, startHeld := false
        state := if l.state = .running then .stopping else l.state
        stopTick := if l.state = .running then s.edge.tick else l.stopTick })
    ∧ (l.state = .stopped →
      (∀ h, exec (.leHoldWrite n h) s = finish s (modEdge (fun e => e.modLoop n (fun l => forceOne { l with hold := h } (16, BitVec.ofNat 32 (b2n h)))) s))
      ∧ exec (.clearSafe n) s = finish s (modEdge (fun e => e.modLoop n (fun l => forceOne l (17, 0))) s)
      ∧ (∀ (r : Fin 4) v, ∃ t, exec (.leCfgWrite n r v) s = .next t
          ∧ loopN t.edge n = forceOne { l with written := l.written.set r (loopWord r v) } (r, loopWord r v) ∧ others t))
    ∧ (l.state ≠ .stopped →
      (∀ h, ∃ t, exec (.leHoldWrite n h) s = .next t
          ∧ loopN t.edge n = { l with hold := h, queue := l.queue ++ [(16, BitVec.ofNat 32 (b2n h), s.edge.tick)] } ∧ others t)
      ∧ (∃ t, exec (.clearSafe n) s = .next t ∧ loopN t.edge n = { l with queue := l.queue ++ [(17, 0, s.edge.tick)] } ∧ others t)
      ∧ (∀ v, ∃ t, exec (.leCfgWrite n 0 v) s = .next t ∧ others t
          ∧ (loopN t.edge n).queue = l.queue ++ [(0, (l.force.getD 0 0 &&& 0xBFFFFFFF) ||| (loopWord 0 v &&& 0x40000000), s.edge.tick)]
          ∧ (loopN t.edge n).force = l.force)
      ∧ (∀ (r : Fin 4) v, r ≠ 0 → ∃ t, exec (.leCfgWrite n r v) s = .next t ∧ loopN t.edge n = { l with cfgIgnored := true } ∧ others t))
    ∧ (∀ (m : Fin 8) v cfg,
      let ns := bitsOf ((s.edge.sels.get m).members ||| (if cfg then 0 else v)).toNat 32
      ((∀ k ∈ ns, (loopN s.edge k).state = .stopped) → ∃ t, exec (.leSelWrite m cfg v) s = .next t
        ∧ t.edge.sels.get m = (if cfg then { s.edge.sels.get m with cfg := v &&& 0x3F } else { s.edge.sels.get m with members := v })
        ∧ (∀ j, j ≠ m.val → t.edge.sels.get j = s.edge.sels.get j) ∧ t.edge.loops = s.edge.loops)
      ∧ ((∃ k ∈ ns, (loopN s.edge k).state ≠ .stopped) → ∃ t, exec (.leSelWrite m cfg v) s = .next t ∧ t.edge.sels = s.edge.sels
        ∧ (∀ k ∈ ns, (loopN s.edge k).state ≠ .stopped → (loopN t.edge k).cfgIgnored = true)))

/-- Loop events: the boundary of every loop due at the tick; an output reaches its destination 800 ticks after its boundary with the event of a
loop that it belongs to, one that completes a stop setting the set register too, and stays queued at another loop's event; a pour goes into
its slots; a binding that turns stale changes no state but its age, which LE_TICK gives (log entry 17); the boot profile runs once on the way
up (R267, R271, R277, R278, R290, R296). -/
def Obligations.LoopEventsComplete : Prop :=
  ∀ s : State,
    (∀ n : Fin 32, s.edge.on = true → onGrid (loopN s.edge n) s.edge.tick = true → (loopN s.edge n).last ≠ some s.edge.tick →
      exec (.sampleBoundary n) s = finish s (stopsDone (boundaryAt s.edge).2 { s with edge := (boundaryAt s.edge).1 }))
    ∧ (∀ (n : Fin 32) o, s.edge.on = true → s.edge.outs = [o] → o.tick + 800 ≤ s.edge.tick →
      (o.members.getLsbD n = true →
        (o.dest = 1 → ∃ t, exec (.loopOutputApply n) s = .next t ∧ (t.edge.aouts.get o.index).code = o.code
          ∧ (t.edge.aouts.get o.index).set = (if o.final then o.code else (s.edge.aouts.get o.index).set)
          ∧ t.edge.outs = [] ∧ t.edge.loops = s.edge.loops ∧ t.edge.douts = s.edge.douts)
        ∧ (o.dest = 2 → ∃ t, exec (.loopOutputApply n) s = .next t ∧ (t.edge.douts.get o.index).code = o.code
          ∧ (t.edge.douts.get o.index).set = (if o.final then o.code else (s.edge.douts.get o.index).set)
          ∧ t.edge.outs = [] ∧ t.edge.loops = s.edge.loops ∧ t.edge.aouts = s.edge.aouts))
      ∧ (o.members.getLsbD n = false → exec (.loopOutputApply n) s = finish s s))
    ∧ (∀ (p : Fin 1024) b x rest, s.edge.on = true → s.edge.binds.get? p.val = some b → b.pours = x :: rest →
      ∃ t, exec (.slotWrite p) s = .next t ∧ t.edge.slots = x.foldl (fun t y => t.set y.1 y.2) s.edge.slots
        ∧ t.edge.binds = s.edge.binds.set p.val { b with pours := rest, fresh := some s.edge.tick })
    ∧ (∀ p : Fin 1024, exec (.slotStale p) s = finish s s)
    ∧ (s.pwr.stage = .edge → ∃ t, exec .bootProfileStart s = .next t ∧ t.pwr.stage = .profile ∧ t.edge = bootProfileRun s.edge)

/-- Field inputs of a powered edge die: a conversion enters its channel and latches the pulse input of its number, tests and conditions move the live
bits that R301 names, edges count by mode; no other channel's input changes (R294, R298 to R301). Field outputs of a powered edge die: a load test not suspended by SHORT moves OPEN, a SHORT switches a digital output off and under LATCH for good, a
retry 100 ms later switches it on, a PWM period takes its on-time from the code; a set register is taken only by an output that no loop drives
(R295, R296, R301). -/
def Obligations.FieldChannelsComplete : Prop :=
  (∀ (ch : Fin 8) (s : State), s.edge.on = true →
      (∀ raw, ∃ t, exec (.ainConversion ch raw) s = .next t
        ∧ ((t.edge.ains.get ch).raw = (trimCode (s.edge.ains.get ch).trimOff (s.edge.ains.get ch).trimGain raw.toInt :: (s.edge.ains.get ch).raw).take 64)
        ∧ ((s.edge.ains.get ch).live.getLsbD 2 = true → (t.edge.ains.get ch).code = 32767)
        ∧ (t.edge.pins.get ch).count = (s.edge.pins.get ch).count ∧ ∀ k, k ≠ ch.val → t.edge.ains.get k = s.edge.ains.get k)
      ∧ (∀ fails, ∃ t, exec (.ainOpenWireTest ch fails) s = .next t
        ∧ (t.edge.ains.get ch) = Ain.settleOpen { s.edge.ains.get ch with tests := runOf fails (s.edge.ains.get ch).tests })
      ∧ ((s.edge.ains.get ch).live.getLsbD 2 = true → ∃ t, exec (.ainReconnectTest ch true) s = .next t
        ∧ (t.edge.ains.get ch).live = (s.edge.ains.get ch).live &&& 0xB)
      ∧ (∀ a b, ∃ t, exec (.pulseEdge ch a b) s = .next t ∧ t.edge.pins.get ch = Pin.edge a b (s.edge.pins.get ch)
        ∧ ∀ k, k ≠ ch.val → t.edge.pins.get k = s.edge.pins.get k)
      ∧ (∀ on, ∃ t, exec (.fioCondition .ain ch 1 on) s = .next t ∧ (t.edge.ains.get ch).live.getLsbD 1 = on
        ∧ ((s.edge.ains.get ch).seen.getLsbD 1 = true → (t.edge.ains.get ch).seen.getLsbD 1 = true))
      ∧ (∀ on, ∃ t, exec (.fioCondition .pin ch 0 on) s = .next t ∧ (t.edge.pins.get ch).live = on)
      ∧ (∀ on, ∃ t, exec (.fioCondition .aout ch 2 on) s = .next t ∧ (t.edge.aouts.get ch).live.getLsbD 2 = on)
      ∧ (∀ on, ∃ t, exec (.fioCondition .dout ch 3 on) s = .next t ∧ (t.edge.douts.get ch).live.getLsbD 3 = on
        ∧ (on = true → doutDrives t.edge ch = 0))
      ∧ (∀ on, ∃ t, exec (.fioCondition .vio ch 0 on) s = .next t ∧ t.edge.vioLow = on ∧ t.edge.vioReversed = s.edge.vioReversed)
      ∧ (∀ on, ∃ t, exec (.fioCondition .vio ch 1 on) s = .next t ∧ t.edge.vioReversed = on ∧ t.edge.vioLow = s.edge.vioLow))
  ∧ (∀ (ch : Fin 8) (s : State), s.edge.on = true →
      (∀ fails, (s.edge.aouts.get ch).live.getLsbD 2 = false → ∃ t, exec (.aoutLoadTest ch fails) s = .next t
        ∧ t.edge.aouts.get ch = Aout.test fails (s.edge.aouts.get ch))
      ∧ (∀ fails, (s.edge.aouts.get ch).live.getLsbD 2 = true → exec (.aoutLoadTest ch fails) s = finish s s)
      ∧ (∃ t, exec (.fioCondition .dout ch 2 true) s = .next t ∧ doutDrives t.edge ch = 0
        ∧ ((s.edge.douts.get ch).latchAct = true → (t.edge.douts.get ch).latched = true))
      ∧ (∀ t0, (s.edge.douts.get ch).shortOff = some t0 → t0 + 20000000 ≤ s.edge.tick →
        ∃ t, exec (.doutShortRetry ch) s = .next t ∧ (t.edge.douts.get ch).shortOff = none)
      ∧ ((s.edge.douts.get ch).pwm = true → ∃ t, exec (.pwmPeriodStart ch) s = .next t
        ∧ (t.edge.douts.get ch).onTicks = onTime (s.edge.douts.get ch).code (s.edge.douts.get ch).period)
      ∧ (ready s = true → ∀ v : W32,
        (loopDriven s.edge 1 ch = false → ∃ t, exec (.fioSetWrite true ch v) s = .next t ∧ (t.edge.aouts.get ch).set = (v.setWidth 16).toInt
          ∧ (t.edge.aouts.get ch).code = (v.setWidth 16).toInt)
        ∧ (loopDriven s.edge 1 ch = true → ∃ t, exec (.fioSetWrite true ch v) s = .next t ∧ (t.edge.aouts.get ch).ignored = true
          ∧ (t.edge.aouts.get ch).code = (s.edge.aouts.get ch).code)
        ∧ (loopDriven s.edge 2 ch = false → ∃ t, exec (.fioSetWrite false ch v) s = .next t ∧ (t.edge.douts.get ch).set = (v.setWidth 16).toInt
          ∧ (t.edge.douts.get ch).code = (v.setWidth 16).toInt)
        ∧ (loopDriven s.edge 2 ch = true → ∃ t, exec (.fioSetWrite false ch v) s = .next t ∧ (t.edge.douts.get ch).ignored = true
          ∧ (t.edge.douts.get ch).code = (s.edge.douts.get ch).code)))

/-- The boot timeline: power good with the edge die off is a cold start, with the edge die on hold-up a restart of the main die from +40 ms in normal
service; firmware of the warden that fails leaves the device as it is; the field I/O configuration applies, the main die starts with LT 0 in its
self-test, failed units are fenced and a failed part of the main-die row keeps the main die off, HBM trains and a bank that does not verify gives way
to the other, Rankoaz is ready, full service comes at +1 s, in recovery mode at once (R308, R441, R450, R452, R453, R478, R485, R500, R503). -/
def Obligations.BootAndPowerEvents : Prop :=
  ∀ s : State,
    (∀ r f, s.pwr.power = .unpowered →
      (s.edge.on = false → ∃ t, exec (.powerGood r f) s = .next t ∧ t.pwr.power = .idle ∧ t.pwr.stage = .good
        ∧ t.pwr.since = 0 ∧ t.pwr.wakeCause = 8 ∧ t.pwr.ref25 = (r && f) ∧ t.pwr.nv = s.pwr.nv)
      ∧ (s.edge.on = true → ∃ t, exec (.powerGood r f) s = .next t ∧ t.pwr.power = .idle ∧ t.pwr.since = 40000000 ∧ t.pwr.wakeCause = 8
        ∧ t.pwr.ref25 = (r && f) ∧ t.faults.recovery = false ∧ t.faults.mainDead = false ∧ t.edge = s.edge ∧ t.pwr.nv = s.pwr.nv))
    ∧ (s.pwr.stage = .good → exec (.wardenVerified true) s = finish s (modPwr (fun w => { w with stage := .warden }) s)
      ∧ exec (.wardenVerified false) s = finish s s)
    ∧ (s.pwr.stage = .warden → ∃ t, exec .fioConfigApply s = .next t ∧ t.pwr.stage = .edge ∧ t.edge.on = true
      ∧ t.edge.cfgInvalid = (s.edge.fioStore.filter fioGood).isNone)
    ∧ (s.pwr.stage = .profile ∨ s.faults.restart = true → s.pwr.power ≠ .unpowered → s.pwr.entering = none → s.faults.mainDead = false →
      ∃ t, exec .mainDiePowerOn s = .next t ∧ t.pwr.stage = .mainOn ∧ t.lt = 0 ∧ t.pwr.selfTesting = true ∧ t.probs = [] ∧ t.leases = []
        ∧ t.pwr.cap = s.pwr.nv.cap.getD 720 ∧ t.pwr.bank = s.pwr.nv.boot ∧ t.edge.loops = s.edge.loops)
    ∧ (∀ (failed : List (Nat × Nat)) part, s.pwr.stage = .switchOn →
      (part = false → (4, 0) ∉ failed → ∃ t, exec (.bootSelfTestComplete failed part) s = .next t
        ∧ t.pwr.stage = .tested ∧ t.pwr.selfTesting = false ∧ ∀ u ∈ failed, fenced t u.1 u.2 = true)
      ∧ (part = true ∨ (4, 0) ∈ failed → ∃ t, exec (.bootSelfTestComplete failed part) s = .next t
        ∧ mainOn t = false ∧ t.faults.mainDead = true ∧ t.edge.loops = s.edge.loops))
    ∧ (s.pwr.stage = .tested → exec .hbmTrained s = finish s (if bankOk s.pwr.nv s.pwr.bank then modPwr (fun w => { w with stage := .hbm }) s
        else fallBack 0 (modPwr (fun w => { w with stage := .hbm }) s)))
    ∧ (s.pwr.stage = .hbm → fromSleep s = false → ∃ t, exec .rankoazReady s = .next t ∧ ready t = true ∧ full t = false)
    ∧ (s.pwr.stage = .ready → 1000000000 ≤ s.pwr.since ∨ s.faults.recovery = true → ∃ t, exec .fullService s = .next t ∧ full t = true
      ∧ t.pwr.everFull = true ∧ (s.faults.recovery = false → (bankVersion s).toNat ≤ t.pwr.nv.minVersion.toNat))

/-- Power and stores: a READY that does not come takes the other bank, and after that bank the recovery package; a lost reference is noted; a power fail
takes the main die and leaves the edge die running, hold-up's end takes the edge die and the writes not complete; a write to the nonvolatile store
replaces the copy kept; a staged package is verified, both answers free (log entry 1) (R288, R452, R453, R457, R485, R500, R504). -/
def Obligations.PowerAndStoreEvents : Prop :=
  ∀ s : State,
    (mainOn s = true → ready s = false → fromSleep s = false → ¬(s.faults.recovery = true ∧ s.faults.recoveryCause = 2) →
      (s.pwr.fallback = false → 300000000 ≤ s.pwr.since →
        ∃ t, exec .readyTimeout s = .next t ∧ t.pwr.bank = 1 - s.pwr.bank ∧ t.pwr.fallback = true
          ∧ (bankOk s.pwr.nv (1 - s.pwr.bank) = true → t.faults.recovery = s.faults.recovery)
          ∧ (bankOk s.pwr.nv (1 - s.pwr.bank) = false → t.faults.recovery = true ∧ t.faults.recoveryCause = 2))
      ∧ (s.pwr.fallback = true → 700000000 ≤ s.pwr.since →
        ∃ t, exec .readyTimeout s = .next t ∧ t.faults.recovery = true ∧ t.faults.recoveryCause = 2 ∧ t.pwr.bank = s.pwr.bank))
    ∧ (s.pwr.ref25 = true → ∃ t, exec .ref25Lost s = .next t ∧ t.pwr.ref25 = false
      ∧ t.pwr.refRecord = (if mainOn s then s.pwr.refRecord else some 0))
    ∧ (∀ c, s.pwr.power ≠ .unpowered → ∃ t, exec (.powerFail c) s = .next t ∧ t.pwr.power = .unpowered ∧ mainOn t = false ∧ t.probs = []
      ∧ t.leases = [] ∧ t.lt = 0 ∧ t.pwr.failRecord = some (c.val, s.edge.on) ∧ t.edge.on = s.edge.on ∧ t.edge.loops = s.edge.loops
      ∧ t.edge.aouts = s.edge.aouts)
    ∧ (s.pwr.power = .unpowered → s.edge.on = true → ∃ t, exec .holdUpExhausted s = .next t ∧ t.edge.on = false ∧ t.pwr.nv.pendingWrites = []
      ∧ t.edge.profiles = s.edge.profiles)
    ∧ (∀ x xs, s.pwr.nv.pendingWrites = x :: xs →
      exec .nonvolatileWriteComplete s = finish s (storeItem x (modPwr (fun w => { w with nv := { w.nv with pendingWrites := xs } }) s)))
    ∧ (∀ b bs, s.pwr.staging = some (b, bs) → ∃ u st, exec .firmwareStageComplete s = finish s (endAwait .firmware st [] u) ∧ u.pwr.staging = none
      ∧ (st = stFwAuth ∨ st = stFwRollback ∨ st = stOk) ∧ (st ≠ stOk → u.pwr.nv = s.pwr.nv) ∧ (st = stOk → u.pwr.nv.boot = b))

/-- Domains, governor and thermal limit: a wake ends with its domain ON and its work dispatched; HOLD_US after its last use a domain of a class under AUTO
goes off, or waits in KETTLE where a release is near, and under another policy the policy decides; the end of a shut-down carries out a wake that was held. Above the limit
the governor's next step applies, below 95 % of it the most recent is undone; at 95 °C the thermal limit falls by 5 % of CAP, at 92 °C or less it rises
again (R445 to R448, R461, R463). -/
def Obligations.DomainAndRestEvents : Prop :=
  ∀ (d : Fin 64) (s : State),
    (mainOn s = true → (pd s d).waking = true → exec (.domainWakeComplete d) s = finish s (dispatchAll (wakeDone d s)))
    ∧ (∀ c, pdClass d = some c → mainOn s = true → pdWorks s d = false → (pd s d).lastUse + (s.pwr.kettle.get c).holdUs * 1000 ≤ s.lt →
      exec (.kettleHoldExpiry d) s = finish s (refreshPower (kettleDecide d s))
      ∧ ((pd s d).waking = false → (pd s d).state = .on → (s.pwr.kettle.get c).policy = 0 →
        let soon := predictedSoon s d ((s.pwr.kettle.get c).holdUs * 1000)
        ∃ t, exec (.kettleHoldExpiry d) s = .next t ∧ (pd t d).state = (if soon then .kettle else .goingOff) ∧ ∀ k, k ≠ d.val → pd t k = pd s k))
    ∧ ((pd s d).state = .goingOff → ∃ t, exec (.domainOffComplete d) s = .next t ∧ (pd t d).state = .off ∧ (pd t d).waking = (pd s d).heldWake
      ∧ (pd t d).heldWake = false)
    ∧ (∀ mean mv, mainOn s = true →
      let u := modPwr (fun w => { w with meanMw := mean, peakMw := max w.peakMw mean, voltage := mv / 10 }) s
      (∀ a, limitMw s < mean → nextStep s = some a → rateOk s.pwr.govAt s.lt 100000 = true → exec (.governorStep mean mv) s =
        finish s (govDone (govStep s) (modPwr (fun w => moveClocks a false { w with gov := a :: w.gov, govAt := some s.lt }) u)))
      ∧ (∀ a rest, 100 * mean < 95 * limitMw s → s.pwr.gov = a :: rest → rateOk s.pwr.govAt s.lt 1000000 = true → exec (.governorStep mean mv) s =
        finish s (govDone (govStep s) (modPwr (fun w => moveClocks a true { w with gov := rest, govAt := some s.lt }) u)))
      ∧ (mean ≤ limitMw s → 95 * limitMw s ≤ 100 * mean → exec (.governorStep mean mv) s = finish s u))
    ∧ (∀ j : Int, mainOn s = true →
      let now := s.pwr.thermal.getD (s.pwr.cap * 1000)
      (95 ≤ j → rateOk s.pwr.thermalAt s.lt 1000000 = true → ∃ t, exec (.thermalLimitStep j) s = .next t
        ∧ t.pwr.throttling = true ∧ t.pwr.thermal = some (now - s.pwr.cap * 50) ∧ t.pwr.mainTj = 16 * j)
      ∧ (j ≤ 92 → s.pwr.throttling = true → rateOk s.pwr.thermalAt s.lt 10000000 = true → ∃ t, exec (.thermalLimitStep j) s = .next t
        ∧ t.pwr.mainTj = 16 * j ∧ t.pwr.thermal = (if s.pwr.cap * 1000 ≤ now + s.pwr.cap * 50 then none else some (now + s.pwr.cap * 50))))

/-- Sleep, wake and coolant: the entry to SLEEP ends once every port and link is down and leaves the loops as they run, the entry to OFF takes the main
die, then stops the loops, then takes the edge die; an enabled source wakes the device from either, or is held during an entry; the wake ends in full
service. A coolant sample enters the warden's windows and decides on LIMP, of good coolant it changes only what it measures, and the entry to LIMP ends
with the host cores at 1 GHz (R464 to R467, R480 to R484). -/
def Obligations.RestAndWakeEvents : Prop :=
  ∀ s : State,
    (s.pwr.entering = some 2 → mainOn s = true → restDone s = true →
      exec .sleepEntryComplete s = finish s (wakeHeld (sleepMain s))
      ∧ (s.pwr.heldWake = none → ∃ t, exec .sleepEntryComplete s = .next t
        ∧ t.pwr.power = .sleep ∧ mainOn t = false ∧ t.edge = s.edge ∧ (∀ p, (prob t p).im = (prob s p).im ∧ (prob t p).params = (prob s p).params)))
    ∧ (s.pwr.entering = some 4 →
      (mainOn s = true → restDone s = true → (∀ n, n < 32 → (loopN s.edge n).state = .stopped ∧ (loopN s.edge n).starting = none) →
        s.pwr.heldWake = none → ∃ t, exec .sleepEntryComplete s = .next t ∧ t.pwr.power = .off ∧ mainOn t = false ∧ t.edge = edgeOff s.edge)
      ∧ (mainOn s = true → restDone s = true → (∃ n, n < 32 ∧ (loopN s.edge n).state = .running) →
        ∃ t, exec .sleepEntryComplete s = .next t ∧ mainOn t = false ∧ t.pwr.entering = some 4 ∧ t.edge.on = s.edge.on
          ∧ ∀ n, n < 32 → (loopN s.edge n).state = .running → (loopN t.edge n).state = .stopping)
      ∧ (mainOn s = false → (∀ n, n < 32 → (loopN s.edge n).state = .stopped) → s.pwr.heldWake = none →
        ∃ t, exec .sleepEntryComplete s = .next t ∧ t.pwr.power = .off ∧ t.pwr.entering = none ∧ t.edge = edgeOff s.edge))
    ∧ (∀ c, wakeEnabled s c = true → (c = .timer → ∃ l t0, s.pwr.sleepCount = some (l, t0) ∧ s.pwr.timerMs * 1000000 ≤ s.pwr.since - t0) →
      (c = .fieldIo → s.pwr.power ≠ .off) →
      (s.pwr.entering = none → s.pwr.power = .sleep →
        ∃ t, exec (.wakeEvent c) s = .next t ∧ t.pwr.power = .idle ∧ mainOn t = true ∧ t.pwr.waking = some (c, false))
      ∧ (s.pwr.entering = none → s.pwr.power = .off →
        ∃ t, exec (.wakeEvent c) s = .next t ∧ t.pwr.power = .idle ∧ t.pwr.stage = .warden ∧ t.pwr.since = 0 ∧ t.pwr.waking = some (c, true))
      ∧ (s.pwr.entering ≠ none → exec (.wakeEvent c) s =
        finish s (modPwr (fun w => { w with heldWake := match w.heldWake with | some x => some x | none => some c }) s)))
    ∧ (s.pwr.stage = .hbm → fromSleep s = true → ∃ t, exec .wakeComplete s = .next t ∧ full t = true ∧ t.pwr.waking = none)
    ∧ (∀ c : CoolantIn, mainOn s = true →
      let cause := coolantCause (takeCoolant c s).faults c.junction
      let u := modFaults (fun f => { f with coolantLost := cause.isSome, calmSince := if cause.isSome then none else match f.calmSince with
        | some t => some t | none => some s.lt }) (takeCoolant c s)
      exec (.coolantSample c) s = finish s (if mainOn (limpSample c cause u) then trainFollow (max c.junction c.edge) (limpSample c cause u)
        else limpSample c cause u)
      ∧ (s.faults.limp = none → cause = none →
        ∃ t, exec (.coolantSample c) s = .next t ∧ t.faults.coolantLost = false ∧ t.faults.limp = none ∧ t.pwr.mainTj = 16 * c.junction
          ∧ t.pwr.flow = c.flow / 10 ∧ t.probs = s.probs ∧ t.sets = s.sets))
    ∧ (s.faults.limp ≠ none → s.pwr.power ≠ .limp → mainOn s = true → s.probs.any (fun e => e.2.st == .retiring) = false →
      ∃ t, exec .limpEntryComplete s = .next t ∧ t.pwr.power = .limp ∧ t.pwr.hostClk = 1000)

/-- Faults: a retry that raises no fault counts a transient of the unit, a lasting fault of a host core other than core 0 fences it, one of core 0 is a
loss of the main die, which restarts in recovery mode while the loops run on; a fault in a steep's work begins its retry or ends it; a fault of a memory
or of a lane has the effect of its table; a background test counts a transient or fences, and a scrub counts what it corrects (R119, R381, R382, R472 to
R479). -/
def Obligations.FaultEventsComplete : Prop :=
  ∀ (s : State) (m : MemFaultIn) (det : Fin 7), mainOn s = true →
    (∀ kind i, unitExists kind i = true → fenced s kind i = false →
      (kind = 4 →
        exec (.faultDetected 4 i det true m) s = finish s (countTransient 4 i det s)
        ∧ (i ≠ 0 → exec (.faultDetected 4 i det false m) s = finish s (fenceLasting 4 i det s))
        ∧ (i = 0 → exec (.faultDetected 4 i det false m) s = finish s (mainDieLost (unitArg 4 0) det s)))
      ∧ (kind ≤ 3 → workOn s kind i = none → (kind = 2 → s.jobs.any (fun j => j.stopping) = false) →
        exec (.faultDetected kind i det true m) s = finish s (countTransient kind i det s)
        ∧ exec (.faultDetected kind i det false m) s = finish s (rebalance (loseUnit kind i det s)))
      ∧ (∀ p t ok, kind ≤ 3 → workOn s kind i = some p → (prob s p).steep = some t →
        exec (.faultDetected kind i det ok m) s = finish s (faultInSteep p [(kind, i, det)] t s))
      ∧ (∀ ok, kind = 5 ∨ kind = 6 → exec (.faultDetected kind i det ok m) s = finish s (faultInMemory (kind == 5) i det ok m s))
      ∧ (∀ (l : Fin 8) (lane : Fin 4) ok, kind = 7 → i = 4 * l + lane →
        exec (.faultDetected kind i det ok m) s = finish s (doCrc l (!ok) lane s)))
    ∧ (∀ kind i, (unit s kind i).unresolved = true →
      exec (.unresolvedTestDone kind i true) s = finish s (countTransient kind i (unit s kind i).detector s)
      ∧ exec (.unresolvedTestDone kind i false) s = finish s (rebalance (dropUnit kind i (markFenced kind i 1 3 (unit s kind i).detector
          (modFaults (fun f => { f with lastingTotal := satInc f.lastingTotal }) s)))))
    ∧ (∀ core : Fin 16, ready s = true →
      (core ≠ 0 → fenced s 4 core = false →
        (∃ t, exec (.watchdogExpiry core false) s = .next t ∧ fenced t 4 core = true ∧ t.probs = s.probs ∧ t.sets = s.sets)
        ∧ exec (.watchdogExpiry core true) s = finish s (countTransient 4 core 6 s))
      ∧ (∀ ok, exec (.watchdogExpiry 0 ok) s = finish s (mainDieLost (unitArg 4 0) 6 s)))
    ∧ (∀ part, ∃ t, exec (.mainDieLoss part det) s = .next t ∧ t.faults.recovery = true ∧ t.faults.recoveryCause = 1 ∧ mainOn t = false
      ∧ t.probs = [] ∧ t.leases = [] ∧ t.edge.loops = s.edge.loops ∧ t.edge.aouts = s.edge.aouts ∧ t.edge.douts = s.edge.douts)
    ∧ (∀ pool corrected, exec (.patrolScrub pool corrected) s = finish s (if corrected ∧ (pool = true ∨ s.pwr.power ≠ .limp)
        then { s with mem := { s.mem with counts := bumpAt s.mem.counts (if pool then 5 else 0) 1 } } else s))
    ∧ (∀ r failed, s.mbx.running.find? (fun x => x.await == .selfTest) = some r →
      let u := (argN r.cmd.c 0 1, argN r.cmd.c 1 1)
      let pass := if u.1 = 0xFF then failed.isEmpty else !failed.contains u
      (r.cmd.op ≠ 0x0803 → exec (.selfTestComplete failed) s = finish s (endAwait .selfTest stOk (leBytes 1 (b2n pass))
        (rebalance (forAll (if u.1 = 0xFF then failed else failed.filter (fun x => x == u)) failTest s))))
      ∧ (r.cmd.op = 0x0803 → exec (.selfTestComplete failed) s =
        finish s (if pass then endAwait .selfTest stOk [] (unfence u.1 u.2 s) else endAwait .selfTest stFltTestFailed [] s)))

/-- Arbiters: a free cycle, which neither an emergency nor a VC2 flit holds, takes the arrivals and makes one grant; an emergency requester takes the next
burst boundary, at most once in its interval; no other arbiter changes (R376, R394 to R398). The debug port: a valid response unlocks it, an invalid one
counts and the third locks it out, 60 s later the lockout ends with a new challenge. A TAP loads an instruction unless R509 refuses it, relocks the debug
port, and shifts bits through the register that its instruction selects (R459, R507 to R509). -/
def Obligations.ArbiterAndDebugEvents : Prop :=
  (∀ (a : Fin 202) (s : State), resourceOn s a = true →
      (∀ l w, emergency s a = false → vc2First s a = false →
        let r := (Arb.arrive l (arb s a)).cycle w
        (r.2 = [] ∨ (arb s a).irqEn = false → ∃ t, exec (.arbiterGrant a l w) s = .next t ∧ arb t a = r.1 ∧ ∀ b, b ≠ a.val → arb t b = arb s b)
        ∧ (r.2 ≠ [] → (arb s a).irqEn = true → exec (.arbiterGrant a l w) s =
          finish s (event 0x031 a [BitVec.ofNat 8 (r.2.foldl (fun m k => m + 2 ^ k) 0)] (modArb a (fun _ => r.1) (modArb a (Arb.arrive l) s)))))
      ∧ (hasEmergency s a = true → gapOver s a (gapOf a) = true → ∃ t, exec (.emergencyRequest a) s = .next t
        ∧ arb t a = { arb s a with emergencyAt := some s.lt } ∧ ∀ b, b ≠ a.val → arb t b = arb s b)
      ∧ (∀ (st : Fin 4) (ch : Fin 16) (ps : Fin 2) hot, a.val = 32 * st + 2 * ch + ps → gapOver s a (if hot then 1950 else 3900) = true →
        ∃ t, exec (.hbmRefresh st ch ⟨ps, hot⟩) s = .next t ∧ arb t a = { arb s a with emergencyAt := some s.lt } ∧ ∀ b, b ≠ a.val → arb t b = arb s b))
  ∧ (∀ s : State, s.pwr.power ≠ .unpowered →
      (s.pwr.challenge ≠ none → (∃ t, exec (.debugResponse true) s = .next t ∧ t.pwr.unlocked = true ∧ t.pwr.invalid = 0 ∧ t.pwr.challenge = none)
        ∧ (∃ t, exec (.debugResponse false) s = .next t ∧ t.pwr.unlocked = s.pwr.unlocked ∧ t.pwr.invalid = s.pwr.invalid + 1
          ∧ t.pwr.lockout = decide (3 ≤ s.pwr.invalid + 1) ∧ (t.pwr.challenge = none ↔ 3 ≤ s.pwr.invalid + 1)))
      ∧ (s.pwr.lockout = true → s.pwr.lockoutAt + 60000000000 ≤ s.pwr.since →
        ∃ t, exec .debugLockoutExpiry s = .next t ∧ t.pwr.lockout = false ∧ t.pwr.invalid = 0 ∧ t.pwr.challenge ≠ none)
      ∧ (∀ ir tdi, ir ≠ .relock →
        (mainOn s = true → exec (.jtagInstruction false ⟨ir, tdi⟩) s =
          finish s (shiftDr false tdi (emit (.debug 1) (modPwr (fun w => { w with mainIr := ir }) s))))
        ∧ (tapRefuses s.edge ir = false → exec (.jtagInstruction true ⟨ir, tdi⟩) s =
          finish s (shiftDr true tdi (emit (.debug 1) (modPwr (fun w => { w with edgeIr := ir }) s))))
        ∧ (tapRefuses s.edge ir = true → exec (.jtagInstruction true ⟨ir, tdi⟩) s =
          finish s (shiftDr true tdi (emit (.debug 2) (modPwr (fun w => { w with edgeIr := .bypass }) s)))))
      ∧ (s.pwr.unlocked = true → ∃ t, exec (.jtagInstruction true ⟨.relock, []⟩) s = .next t ∧ t.pwr.unlocked = false ∧ t.pwr.edgeIr = .relock)
      ∧ (∀ tdi : List Bool, tdi ≠ [] →
        (∃ t, exec (.jtagInstruction true ⟨.idcode, tdi⟩) s = .next t
          ∧ t.out = .scan true ((idBits 0x164814B3 ++ tdi).take tdi.length) :: .debug 1 :: s.out)
        ∧ (∃ t, exec (.jtagInstruction true ⟨.bypass, tdi⟩) s = .next t
          ∧ t.out = .scan true ((false :: tdi).take tdi.length) :: .debug 1 :: s.out ∧ t.pwr.scan = s.pwr.scan)
        ∧ (∃ t, exec (.jtagInstruction true ⟨.sample, tdi⟩) s = .next t ∧ t.pwr.edgeIr = .sample
          ∧ ∃ c d, captureScan d = (c, { d with free := d.free + 1 }) ∧ d.edge = s.edge ∧ t.pwr.scan = (c ++ tdi).drop tdi.length)))

/-- R35: steeps of a set in QUEUED and SUSPENDED state are ordered by earliest deadline, for equal deadlines by higher PRIORITY, for equal priority by lower
problem ID; the order is total, and the one that is dispatched first comes before every other. -/
def Obligations.SteepOrderTotal : Prop :=
  ∀ s : State,
    (∀ (a b : Nat) (x y : Steep), (prob s a).steep = some x → (prob s b).steep = some y →
      (precedes s a b = true ↔ x.deadline < y.deadline ∨ (x.deadline = y.deadline ∧ ((prob s b).sched.priority < (prob s a).sched.priority
        ∨ ((prob s a).sched.priority = (prob s b).sched.priority ∧ a < b))))
      ∧ (a ≠ b → (precedes s a b = true ∨ precedes s b a = true) ∧ ¬ (precedes s a b = true ∧ precedes s b a = true)))
    ∧ (∀ a b c, precedes s a b = true → precedes s b c = true → precedes s a c = true)
    ∧ (∀ (l : List Nat) p, (∀ q ∈ l, (prob s q).steep ≠ none) → firstOf s l = some p → p ∈ l ∧ ∀ q ∈ l, q ≠ p → precedes s p q = true)

/-- R33: a solve request for a problem that is not ENABLED, or for a PERIODIC one, is not accepted: through the mailbox it completes with NOT_ENABLED or
NOT_REQUESTED, through YSP it is answered with that status, and no problem changes in either case. -/
def Obligations.SolveRefused : Prop :=
  ∀ st : Status,
    let bad := fun (s : State) (p : Nat) => ((prob s p).st ≠ .enabled ∧ st = stNotEnabled)
      ∨ ((prob s p).st = .enabled ∧ (prob s p).staging = false ∧ (prob s p).sched.requested = false ∧ st = stNotRequested)
    (∀ c s, Runs c s = true → Named c = true → bad s c.p → exec (.solveRequest c) s = ends 0x0303 c s st [] (taken c s))
    ∧ (∀ f s t, passed f s = some t → YspOk f 16 t = true → f.flags = 0 →
      zeroAt f.payload 2 2 = true → zeroAt f.payload 6 2 = true → zeroAt f.payload 12 4 = true →
      let v := greeted f t
      let p := u16 f.payload 0
      bad v p → leaseValid v (u16 f.payload 4) f.client (BitVec.ofNat 32 (u32 f.payload 8)) p = true →
      exec (.yspSolve f) s = finish s (refuse f.client.toNat 2 st f.seq (some p) none (touchLease (u16 f.payload 4) v))
      ∧ ∃ u, exec (.yspSolve f) s = .next u ∧ u.probs = v.probs)

/-- R509: the edge-die TAP refuses EXTEST, CLAMP and HIGHZ while any loop is RUNNING or any output is LOOP_DRIVEN: it loads BYPASS and captures 0b10
instead of 0b01; otherwise it loads them. -/
def Obligations.TapRefusal : Prop :=
  ∀ (s : State) (ir : JtagIr), ir = .extest ∨ ir = .clamp ∨ ir = .highz →
    (((∃ n, n < 32 ∧ (loopN s.edge n).state = .running) ∨ (∃ i, i < 8 ∧ (loopDriven s.edge 1 i = true ∨ loopDriven s.edge 2 i = true))) →
      exec (.jtagInstruction true ⟨ir, []⟩) s = finish s { s with pwr := { s.pwr with edgeIr := .bypass }, out := .debug 2 :: s.out })
    ∧ ((∀ n, n < 32 → (loopN s.edge n).state ≠ .running) → (∀ i, i < 8 → loopDriven s.edge 1 i = false ∧ loopDriven s.edge 2 i = false) →
      exec (.jtagInstruction true ⟨ir, []⟩) s = finish s { s with pwr := { s.pwr with edgeIr := ir }, out := .debug 1 :: s.out })

/-- R523: each event-log entry is the little-endian form of its fields in 64 bytes; byte k of DATA lies in the word at 0x10 + 4 floor(k / 4). -/
def Obligations.LogEntryLayout : Prop :=
  ∀ (s : State) (n : Nat), n < 4096 → (s.log.entries.get n).data.length = 48 →
    let e := s.log.entries.get n
    let word := fun o => (readReg .direct (0x60000 + 64 * n + o) s).1
    word 0 = e.lt.setWidth 32 ∧ word 4 = (e.lt >>> 32).setWidth 32 ∧ word 8 = e.seq
    ∧ (word 12).setWidth 16 = e.code ∧ ((word 12) >>> 16).setWidth 16 = e.arg
    ∧ (∀ k, k < 48 → ((word (0x10 + 4 * (k / 4))) >>> (8 * (k % 4))).setWidth 8 = e.data.getD k 0)

/-- No pour carries a code above 8 (R21), and no release leaves a steep whose warm-start point is both mapped and cold (R23): what it takes
from a checkpoint is not both, since such a record is CKPT_FORMAT (R262). -/
def Obligations.PourFlagsLegal : Prop :=
  (∀ code n f, statusCode (statusWord code n f) ≤ 8)
  ∧ (∀ bs, ckptFormatBad bs = false → u32 bs (u32 bs 0x34 + 8) ≠ 0x600)
  ∧ (∀ (s : State) (p : Nat) (q : Prob) (im : Image) (t : Steep), t.warmMapped = false → t.warmCold = false →
      (∀ r, q.resume.warm = some r → ¬ (r.flags.getLsbD 9 = true ∧ r.flags.getLsbD 10 = true)) →
      ¬ ((withWarm s p q im t).1.warmMapped = true ∧ (withWarm s p q im t).1.warmCold = true))
end

