-- ==== Sys2Proof/Laws/Memory.lean ====
section
/-! SUPPORT. Byte memory and tables: read after write, and the canonical form kept by every operation. -/
namespace Sys2Proof.Machine

/-- The canonical form of a memory with a first cell: the byte is not 0, the other addresses are higher, the rest is canonical. -/
theorem Mem.wf_cons (i : Nat) (b : Byte) (t : Mem) :
    Mem.wf ((i, b) :: t) = true ↔ b ≠ 0 ∧ (∀ e ∈ t, i < e.1) ∧ Mem.wf t = true := by
  induction t generalizing i b with
  | nil => simp [Mem.wf]
  | cons c t ih =>
    obtain ⟨j, d⟩ := c
    have hj := ih j d
    constructor
    · intro h
      simp only [Mem.wf, Bool.and_eq_true, bne_iff_ne, ne_eq, decide_eq_true_eq] at h
      obtain ⟨⟨hb, hij⟩, hw⟩ := h
      refine ⟨hb, ?_, hw⟩
      intro e he
      rcases List.mem_cons.mp he with rfl | he
      · exact hij
      · exact Nat.lt_trans hij ((hj.mp hw).2.1 e he)
    · rintro ⟨hb, ha, hw⟩
      simp only [Mem.wf, Bool.and_eq_true, bne_iff_ne, ne_eq, decide_eq_true_eq]
      exact ⟨⟨hb, ha (j, d) (List.mem_cons_self ..)⟩, hw⟩

/-- A write lists no address but its own beside the old ones. -/
theorem Mem.mem_write (m : Mem) (a : Nat) (v : Byte) (e : Host.Cell) (h : e ∈ m.write a v) : e.1 = a ∨ e ∈ m := by
  induction m with
  | nil => simp only [Mem.write] at h; split at h <;> simp_all
  | cons c t ih =>
    obtain ⟨i, b⟩ := c
    simp only [Mem.write] at h
    split at h
    · split at h
      · exact .inr h
      · rcases List.mem_cons.mp h with rfl | h
        · exact .inl rfl
        · exact .inr h
    · split at h
      · split at h
        · exact .inr (List.mem_cons_of_mem _ h)
        · rcases List.mem_cons.mp h with rfl | h
          · exact .inl rfl
          · exact .inr (List.mem_cons_of_mem _ h)
      · rcases List.mem_cons.mp h with rfl | h
        · exact .inr (List.mem_cons_self ..)
        · rcases ih h with h | h
          · exact .inl h
          · exact .inr (List.mem_cons_of_mem _ h)

/-- A write of one byte keeps the canonical form. -/
theorem Mem.write_wf (m : Mem) (a : Nat) (v : Byte) (h : m.wf = true) : (m.write a v).wf = true := by
  induction m with
  | nil => simp only [Mem.write]; split <;> simp_all [Mem.wf]
  | cons c t ih =>
    obtain ⟨i, b⟩ := c
    have hc := (Mem.wf_cons i b t).mp h
    simp only [Mem.write]
    split
    · rename_i hlt
      split
      · exact h
      · rename_i hv
        refine (Mem.wf_cons _ _ _).mpr ⟨hv, ?_, h⟩
        intro e he
        rcases List.mem_cons.mp he with rfl | he
        · exact hlt
        · exact Nat.lt_trans hlt (hc.2.1 e he)
    · split
      · rename_i _ heq
        subst heq
        split
        · exact hc.2.2
        · rename_i hv
          exact (Mem.wf_cons _ _ _).mpr ⟨hv, hc.2.1, hc.2.2⟩
      · rename_i hlt hne
        refine (Mem.wf_cons _ _ _).mpr ⟨hc.1, ?_, ih hc.2.2⟩
        intro e he
        rcases Mem.mem_write t a v e he with h | h
        · omega
        · exact hc.2.1 e h

/-- An address below every listed one reads as 0. -/
theorem Mem.read_below (m : Mem) (a : Nat) (h : ∀ e ∈ m, a < e.1) : m.read a = 0 := by
  induction m with
  | nil => rfl
  | cons c t ih =>
    obtain ⟨i, b⟩ := c
    have : a < i := h (i, b) (List.mem_cons_self ..)
    simp only [Mem.read]
    rw [if_neg (by omega)]
    exact ih (fun e he => h e (List.mem_cons_of_mem _ he))

/-- A read after a write of one byte. -/
theorem Mem.read_write (m : Mem) (a b : Nat) (v : Byte) (h : m.wf = true) :
    (m.write a v).read b = if b = a then v else m.read b := by
  induction m with
  | nil =>
    by_cases hv : v = 0
    · subst hv; simp [Mem.write, Mem.read]
    · rcases Decidable.em (b = a) with rfl | hb
      · rw [Mem.write, if_neg hv]; simp [Mem.read]
      · rw [Mem.write, if_neg hv]; simp [Mem.read, hb, Ne.symm hb]
  | cons c t ih =>
    obtain ⟨i, x⟩ := c
    have hc := (Mem.wf_cons i x t).mp h
    have ht := ih hc.2.2
    simp only [Mem.write]
    split
    · rename_i hlt
      split
      · rename_i hv
        split
        · rename_i hb
          subst hb
          rw [hv]
          refine Mem.read_below _ _ ?_
          intro e he
          rcases List.mem_cons.mp he with rfl | he
          · exact hlt
          · exact Nat.lt_trans hlt (hc.2.1 e he)
        · rfl
      · simp only [Mem.read]
        rcases Decidable.em (b = a) with rfl | hx
        · simp
        · simp [hx, Ne.symm hx]
    · split
      · rename_i _ heq
        subst heq
        split
        · rename_i hv
          by_cases hb : b = a
          · subst hb
            simp only [if_true]
            rw [hv]
            exact Mem.read_below _ _ hc.2.1
          · simp only [Mem.read, hb, if_false, if_neg (Ne.symm hb)]
        · simp only [Mem.read]
          rcases Decidable.em (b = a) with rfl | hx
          · simp
          · simp [hx, Ne.symm hx]
      · rename_i hlt hne
        simp only [Mem.read]
        by_cases hi : i = b
        · subst hi
          simp [Ne.symm hne]
        · simp [hi, ht]

/-- A write of bytes keeps the canonical form. -/
theorem Mem.writeBytes_wf (bs : List Byte) (m : Mem) (a : Nat) (h : m.wf = true) : (m.writeBytes a bs).wf = true := by
  induction bs generalizing m a with
  | nil => exact h
  | cons b bs ih => exact ih (m.write a b) (a + 1) (Mem.write_wf m a b h)

/-- Posted writes keep the canonical form. -/
theorem applyPosts_wf (sp : Space) (ps : List Post) (m : Mem) (h : m.wf = true) : (applyPosts sp m ps).wf = true := by
  induction ps generalizing m with
  | nil => exact h
  | cons p ps ih =>
    simp only [applyPosts]
    split
    · exact ih _ (Mem.writeBytes_wf _ _ _ h)
    · exact ih _ h

/-- No posted write leaves a memory as it is. -/
@[simp] theorem applyPosts_nil (sp : Space) (m : Mem) : applyPosts sp m [] = m := rfl

/-- A read outside the bytes written. -/
theorem Mem.read_writeBytes_outside (bs : List Byte) (m : Mem) (a b : Nat) (h : m.wf = true) (hb : b < a ∨ a + bs.length ≤ b) :
    (m.writeBytes a bs).read b = m.read b := by
  induction bs generalizing m a with
  | nil => rfl
  | cons x bs ih =>
    simp only [List.length_cons] at hb
    simp only [Mem.writeBytes]
    rw [ih (m.write a x) (a + 1) (Mem.write_wf m a x h) (by omega), Mem.read_write m a b x h, if_neg (by omega)]

/-- Bytes written at an address read back. -/
theorem Mem.readBytes_writeBytes (bs : List Byte) (m : Mem) (a : Nat) (h : m.wf = true) : (m.writeBytes a bs).readBytes a bs.length = bs := by
  induction bs generalizing m a with
  | nil => rfl
  | cons b bs ih =>
    have hw := Mem.write_wf m a b h
    show (Mem.writeBytes (m.write a b) (a + 1) bs).read a :: (Mem.writeBytes (m.write a b) (a + 1) bs).readBytes (a + 1) bs.length = b :: bs
    rw [ih _ _ hw, Mem.read_writeBytes_outside bs _ _ _ hw (Or.inl (Nat.lt_succ_self a)), Mem.read_write _ _ _ _ h]
    simp

/-- A table entry after a write of one. -/
theorem Tbl.get_set {α : Type} [Inhabited α] (t : Tbl α) (k j : Nat) (a : α) :
    (t.set k a).get j = if j = k then a else t.get j := by
  induction t with
  | nil =>
    rcases Decidable.em (j = k) with rfl | hx
    · simp [Tbl.set, Tbl.get]
    · simp [Tbl.set, Tbl.get, hx, Ne.symm hx]
  | cons c t ih =>
    obtain ⟨i, b⟩ := c
    simp only [Tbl.set]
    split
    · simp only [Tbl.get]
      rcases Decidable.em (j = k) with rfl | hx
      · simp
      · simp [hx, Ne.symm hx]
    · split
      · rename_i _ hk
        subst hk
        simp only [Tbl.get]
        rcases Decidable.em (j = k) with rfl | hx
        · simp
        · simp [hx, Ne.symm hx]
      · rename_i _ hk
        simp only [Tbl.get, ih]
        by_cases hi : i = j
        · subst hi; simp [Ne.symm hk]
        · simp [hi]

/-- The entry just written, in any table. -/
@[simp] theorem Tbl.get_set_self {α : Type} [Inhabited α] (t : Tbl α) (k : Nat) (a : α) : (t.set k a).get k = a := by
  induction t with
  | nil => simp [Tbl.set, Tbl.get]
  | cons c t ih =>
    obtain ⟨i, b⟩ := c
    simp only [Tbl.set]
    split
    · simp [Tbl.get]
    · split
      · simp [Tbl.get]
      · rename_i hk
        simp [Tbl.get, Ne.symm hk, ih]

/-- The entry just changed. -/
@[simp] theorem Tbl.get_mod_self {α : Type} [Inhabited α] (t : Tbl α) (k : Nat) (f : α → α) : (t.mod k f).get k = f (t.get k) := by
  simp [Tbl.mod]

end Sys2Proof.Machine
end

