-- ==== Sys2Proof/Laws/State.lean ====
section
/-! SUPPORT. What each update of State does to each of its fields. -/
namespace Sys2Proof.Machine
variable (s : State)

@[simp] theorem modProb_pending (p : Nat) (f : Prob → Prob) : (modProb p f s).pending = s.pending := rfl
@[simp] theorem modProb_free (p : Nat) (f : Prob → Prob) : (modProb p f s).free = s.free := rfl
@[simp] theorem modProb_posts (p : Nat) (f : Prob → Prob) : (modProb p f s).posts = s.posts := rfl
@[simp] theorem modProb_out (p : Nat) (f : Prob → Prob) : (modProb p f s).out = s.out := rfl
@[simp] theorem modProb_lt (p : Nat) (f : Prob → Prob) : (modProb p f s).lt = s.lt := rfl
@[simp] theorem modProb_hostMem (p : Nat) (f : Prob → Prob) : (modProb p f s).hostMem = s.hostMem := rfl
@[simp] theorem modProb_xbuf (p : Nat) (f : Prob → Prob) : (modProb p f s).xbuf = s.xbuf := rfl
@[simp] theorem modProb_mbx (p : Nat) (f : Prob → Prob) : (modProb p f s).mbx = s.mbx := rfl
@[simp] theorem modProb_irq (p : Nat) (f : Prob → Prob) : (modProb p f s).irq = s.irq := rfl
@[simp] theorem modProb_log (p : Nat) (f : Prob → Prob) : (modProb p f s).log = s.log := rfl
@[simp] theorem modProb_rings (p : Nat) (f : Prob → Prob) : (modProb p f s).rings = s.rings := rfl
@[simp] theorem modProb_leases (p : Nat) (f : Prob → Prob) : (modProb p f s).leases = s.leases := rfl
@[simp] theorem modProb_clients (p : Nat) (f : Prob → Prob) : (modProb p f s).clients = s.clients := rfl
@[simp] theorem modProb_probs (p : Nat) (f : Prob → Prob) : (modProb p f s).probs = s.probs.mod p f := rfl
@[simp] theorem modProb_sets (p : Nat) (f : Prob → Prob) : (modProb p f s).sets = s.sets := rfl
@[simp] theorem modProb_query (p : Nat) (f : Prob → Prob) : (modProb p f s).query = s.query := rfl
@[simp] theorem modProb_jobs (p : Nat) (f : Prob → Prob) : (modProb p f s).jobs = s.jobs := rfl
@[simp] theorem modProb_trainPower (p : Nat) (f : Prob → Prob) : (modProb p f s).trainPower = s.trainPower := rfl
@[simp] theorem modProb_trainSuspended (p : Nat) (f : Prob → Prob) : (modProb p f s).trainSuspended = s.trainSuspended := rfl
@[simp] theorem modProb_trainHot (p : Nat) (f : Prob → Prob) : (modProb p f s).trainHot = s.trainHot := rfl
@[simp] theorem modProb_time (p : Nat) (f : Prob → Prob) : (modProb p f s).time = s.time := rfl
@[simp] theorem modProb_net (p : Nat) (f : Prob → Prob) : (modProb p f s).net = s.net := rfl
@[simp] theorem modProb_links (p : Nat) (f : Prob → Prob) : (modProb p f s).links = s.links := rfl
@[simp] theorem modProb_group (p : Nat) (f : Prob → Prob) : (modProb p f s).group = s.group := rfl
@[simp] theorem modProb_mem (p : Nat) (f : Prob → Prob) : (modProb p f s).mem = s.mem := rfl
@[simp] theorem modProb_arbs (p : Nat) (f : Prob → Prob) : (modProb p f s).arbs = s.arbs := rfl
@[simp] theorem modProb_faults (p : Nat) (f : Prob → Prob) : (modProb p f s).faults = s.faults := rfl
@[simp] theorem modProb_pwr (p : Nat) (f : Prob → Prob) : (modProb p f s).pwr = s.pwr := rfl
@[simp] theorem modProb_edge (p : Nat) (f : Prob → Prob) : (modProb p f s).edge = s.edge := rfl

@[simp] theorem modEdge_pending (f : Edge → Edge) : (modEdge f s).pending = s.pending := rfl
@[simp] theorem modEdge_free (f : Edge → Edge) : (modEdge f s).free = s.free := rfl
@[simp] theorem modEdge_posts (f : Edge → Edge) : (modEdge f s).posts = s.posts := rfl
@[simp] theorem modEdge_out (f : Edge → Edge) : (modEdge f s).out = s.out := rfl
@[simp] theorem modEdge_lt (f : Edge → Edge) : (modEdge f s).lt = s.lt := rfl
@[simp] theorem modEdge_hostMem (f : Edge → Edge) : (modEdge f s).hostMem = s.hostMem := rfl
@[simp] theorem modEdge_xbuf (f : Edge → Edge) : (modEdge f s).xbuf = s.xbuf := rfl
@[simp] theorem modEdge_mbx (f : Edge → Edge) : (modEdge f s).mbx = s.mbx := rfl
@[simp] theorem modEdge_irq (f : Edge → Edge) : (modEdge f s).irq = s.irq := rfl
@[simp] theorem modEdge_log (f : Edge → Edge) : (modEdge f s).log = s.log := rfl
@[simp] theorem modEdge_rings (f : Edge → Edge) : (modEdge f s).rings = s.rings := rfl
@[simp] theorem modEdge_leases (f : Edge → Edge) : (modEdge f s).leases = s.leases := rfl
@[simp] theorem modEdge_clients (f : Edge → Edge) : (modEdge f s).clients = s.clients := rfl
@[simp] theorem modEdge_probs (f : Edge → Edge) : (modEdge f s).probs = s.probs := rfl
@[simp] theorem modEdge_sets (f : Edge → Edge) : (modEdge f s).sets = s.sets := rfl
@[simp] theorem modEdge_query (f : Edge → Edge) : (modEdge f s).query = s.query := rfl
@[simp] theorem modEdge_jobs (f : Edge → Edge) : (modEdge f s).jobs = s.jobs := rfl
@[simp] theorem modEdge_trainPower (f : Edge → Edge) : (modEdge f s).trainPower = s.trainPower := rfl
@[simp] theorem modEdge_trainSuspended (f : Edge → Edge) : (modEdge f s).trainSuspended = s.trainSuspended := rfl
@[simp] theorem modEdge_trainHot (f : Edge → Edge) : (modEdge f s).trainHot = s.trainHot := rfl
@[simp] theorem modEdge_time (f : Edge → Edge) : (modEdge f s).time = s.time := rfl
@[simp] theorem modEdge_net (f : Edge → Edge) : (modEdge f s).net = s.net := rfl
@[simp] theorem modEdge_links (f : Edge → Edge) : (modEdge f s).links = s.links := rfl
@[simp] theorem modEdge_group (f : Edge → Edge) : (modEdge f s).group = s.group := rfl
@[simp] theorem modEdge_mem (f : Edge → Edge) : (modEdge f s).mem = s.mem := rfl
@[simp] theorem modEdge_arbs (f : Edge → Edge) : (modEdge f s).arbs = s.arbs := rfl
@[simp] theorem modEdge_faults (f : Edge → Edge) : (modEdge f s).faults = s.faults := rfl
@[simp] theorem modEdge_pwr (f : Edge → Edge) : (modEdge f s).pwr = s.pwr := rfl
@[simp] theorem modEdge_edge (f : Edge → Edge) : (modEdge f s).edge = f s.edge := rfl

@[simp] theorem modLoop_pending (n : Nat) (f : Loop → Loop) : (modLoop n f s).pending = s.pending := rfl
@[simp] theorem modLoop_free (n : Nat) (f : Loop → Loop) : (modLoop n f s).free = s.free := rfl
@[simp] theorem modLoop_posts (n : Nat) (f : Loop → Loop) : (modLoop n f s).posts = s.posts := rfl
@[simp] theorem modLoop_out (n : Nat) (f : Loop → Loop) : (modLoop n f s).out = s.out := rfl
@[simp] theorem modLoop_lt (n : Nat) (f : Loop → Loop) : (modLoop n f s).lt = s.lt := rfl
@[simp] theorem modLoop_hostMem (n : Nat) (f : Loop → Loop) : (modLoop n f s).hostMem = s.hostMem := rfl
@[simp] theorem modLoop_xbuf (n : Nat) (f : Loop → Loop) : (modLoop n f s).xbuf = s.xbuf := rfl
@[simp] theorem modLoop_mbx (n : Nat) (f : Loop → Loop) : (modLoop n f s).mbx = s.mbx := rfl
@[simp] theorem modLoop_irq (n : Nat) (f : Loop → Loop) : (modLoop n f s).irq = s.irq := rfl
@[simp] theorem modLoop_log (n : Nat) (f : Loop → Loop) : (modLoop n f s).log = s.log := rfl
@[simp] theorem modLoop_rings (n : Nat) (f : Loop → Loop) : (modLoop n f s).rings = s.rings := rfl
@[simp] theorem modLoop_leases (n : Nat) (f : Loop → Loop) : (modLoop n f s).leases = s.leases := rfl
@[simp] theorem modLoop_clients (n : Nat) (f : Loop → Loop) : (modLoop n f s).clients = s.clients := rfl
@[simp] theorem modLoop_probs (n : Nat) (f : Loop → Loop) : (modLoop n f s).probs = s.probs := rfl
@[simp] theorem modLoop_sets (n : Nat) (f : Loop → Loop) : (modLoop n f s).sets = s.sets := rfl
@[simp] theorem modLoop_query (n : Nat) (f : Loop → Loop) : (modLoop n f s).query = s.query := rfl
@[simp] theorem modLoop_jobs (n : Nat) (f : Loop → Loop) : (modLoop n f s).jobs = s.jobs := rfl
@[simp] theorem modLoop_trainPower (n : Nat) (f : Loop → Loop) : (modLoop n f s).trainPower = s.trainPower := rfl
@[simp] theorem modLoop_trainSuspended (n : Nat) (f : Loop → Loop) : (modLoop n f s).trainSuspended = s.trainSuspended := rfl
@[simp] theorem modLoop_trainHot (n : Nat) (f : Loop → Loop) : (modLoop n f s).trainHot = s.trainHot := rfl
@[simp] theorem modLoop_time (n : Nat) (f : Loop → Loop) : (modLoop n f s).time = s.time := rfl
@[simp] theorem modLoop_net (n : Nat) (f : Loop → Loop) : (modLoop n f s).net = s.net := rfl
@[simp] theorem modLoop_links (n : Nat) (f : Loop → Loop) : (modLoop n f s).links = s.links := rfl
@[simp] theorem modLoop_group (n : Nat) (f : Loop → Loop) : (modLoop n f s).group = s.group := rfl
@[simp] theorem modLoop_mem (n : Nat) (f : Loop → Loop) : (modLoop n f s).mem = s.mem := rfl
@[simp] theorem modLoop_arbs (n : Nat) (f : Loop → Loop) : (modLoop n f s).arbs = s.arbs := rfl
@[simp] theorem modLoop_faults (n : Nat) (f : Loop → Loop) : (modLoop n f s).faults = s.faults := rfl
@[simp] theorem modLoop_pwr (n : Nat) (f : Loop → Loop) : (modLoop n f s).pwr = s.pwr := rfl
@[simp] theorem modLoop_edge (n : Nat) (f : Loop → Loop) : (modLoop n f s).edge = { s.edge with loops := s.edge.loops.mod n f } := rfl

@[simp] theorem modPwr_pending (f : PowerSt → PowerSt) : (modPwr f s).pending = s.pending := rfl
@[simp] theorem modPwr_free (f : PowerSt → PowerSt) : (modPwr f s).free = s.free := rfl
@[simp] theorem modPwr_posts (f : PowerSt → PowerSt) : (modPwr f s).posts = s.posts := rfl
@[simp] theorem modPwr_out (f : PowerSt → PowerSt) : (modPwr f s).out = s.out := rfl
@[simp] theorem modPwr_lt (f : PowerSt → PowerSt) : (modPwr f s).lt = s.lt := rfl
@[simp] theorem modPwr_hostMem (f : PowerSt → PowerSt) : (modPwr f s).hostMem = s.hostMem := rfl
@[simp] theorem modPwr_xbuf (f : PowerSt → PowerSt) : (modPwr f s).xbuf = s.xbuf := rfl
@[simp] theorem modPwr_mbx (f : PowerSt → PowerSt) : (modPwr f s).mbx = s.mbx := rfl
@[simp] theorem modPwr_irq (f : PowerSt → PowerSt) : (modPwr f s).irq = s.irq := rfl
@[simp] theorem modPwr_log (f : PowerSt → PowerSt) : (modPwr f s).log = s.log := rfl
@[simp] theorem modPwr_rings (f : PowerSt → PowerSt) : (modPwr f s).rings = s.rings := rfl
@[simp] theorem modPwr_leases (f : PowerSt → PowerSt) : (modPwr f s).leases = s.leases := rfl
@[simp] theorem modPwr_clients (f : PowerSt → PowerSt) : (modPwr f s).clients = s.clients := rfl
@[simp] theorem modPwr_probs (f : PowerSt → PowerSt) : (modPwr f s).probs = s.probs := rfl
@[simp] theorem modPwr_sets (f : PowerSt → PowerSt) : (modPwr f s).sets = s.sets := rfl
@[simp] theorem modPwr_query (f : PowerSt → PowerSt) : (modPwr f s).query = s.query := rfl
@[simp] theorem modPwr_jobs (f : PowerSt → PowerSt) : (modPwr f s).jobs = s.jobs := rfl
@[simp] theorem modPwr_trainPower (f : PowerSt → PowerSt) : (modPwr f s).trainPower = s.trainPower := rfl
@[simp] theorem modPwr_trainSuspended (f : PowerSt → PowerSt) : (modPwr f s).trainSuspended = s.trainSuspended := rfl
@[simp] theorem modPwr_trainHot (f : PowerSt → PowerSt) : (modPwr f s).trainHot = s.trainHot := rfl
@[simp] theorem modPwr_time (f : PowerSt → PowerSt) : (modPwr f s).time = s.time := rfl
@[simp] theorem modPwr_net (f : PowerSt → PowerSt) : (modPwr f s).net = s.net := rfl
@[simp] theorem modPwr_links (f : PowerSt → PowerSt) : (modPwr f s).links = s.links := rfl
@[simp] theorem modPwr_group (f : PowerSt → PowerSt) : (modPwr f s).group = s.group := rfl
@[simp] theorem modPwr_mem (f : PowerSt → PowerSt) : (modPwr f s).mem = s.mem := rfl
@[simp] theorem modPwr_arbs (f : PowerSt → PowerSt) : (modPwr f s).arbs = s.arbs := rfl
@[simp] theorem modPwr_faults (f : PowerSt → PowerSt) : (modPwr f s).faults = s.faults := rfl
@[simp] theorem modPwr_pwr (f : PowerSt → PowerSt) : (modPwr f s).pwr = f s.pwr := rfl
@[simp] theorem modPwr_edge (f : PowerSt → PowerSt) : (modPwr f s).edge = s.edge := rfl

@[simp] theorem modNet_pending (f : Net → Net) : (modNet f s).pending = s.pending := rfl
@[simp] theorem modNet_free (f : Net → Net) : (modNet f s).free = s.free := rfl
@[simp] theorem modNet_posts (f : Net → Net) : (modNet f s).posts = s.posts := rfl
@[simp] theorem modNet_out (f : Net → Net) : (modNet f s).out = s.out := rfl
@[simp] theorem modNet_lt (f : Net → Net) : (modNet f s).lt = s.lt := rfl
@[simp] theorem modNet_hostMem (f : Net → Net) : (modNet f s).hostMem = s.hostMem := rfl
@[simp] theorem modNet_xbuf (f : Net → Net) : (modNet f s).xbuf = s.xbuf := rfl
@[simp] theorem modNet_mbx (f : Net → Net) : (modNet f s).mbx = s.mbx := rfl
@[simp] theorem modNet_irq (f : Net → Net) : (modNet f s).irq = s.irq := rfl
@[simp] theorem modNet_log (f : Net → Net) : (modNet f s).log = s.log := rfl
@[simp] theorem modNet_rings (f : Net → Net) : (modNet f s).rings = s.rings := rfl
@[simp] theorem modNet_leases (f : Net → Net) : (modNet f s).leases = s.leases := rfl
@[simp] theorem modNet_clients (f : Net → Net) : (modNet f s).clients = s.clients := rfl
@[simp] theorem modNet_probs (f : Net → Net) : (modNet f s).probs = s.probs := rfl
@[simp] theorem modNet_sets (f : Net → Net) : (modNet f s).sets = s.sets := rfl
@[simp] theorem modNet_query (f : Net → Net) : (modNet f s).query = s.query := rfl
@[simp] theorem modNet_jobs (f : Net → Net) : (modNet f s).jobs = s.jobs := rfl
@[simp] theorem modNet_trainPower (f : Net → Net) : (modNet f s).trainPower = s.trainPower := rfl
@[simp] theorem modNet_trainSuspended (f : Net → Net) : (modNet f s).trainSuspended = s.trainSuspended := rfl
@[simp] theorem modNet_trainHot (f : Net → Net) : (modNet f s).trainHot = s.trainHot := rfl
@[simp] theorem modNet_time (f : Net → Net) : (modNet f s).time = s.time := rfl
@[simp] theorem modNet_net (f : Net → Net) : (modNet f s).net = f s.net := rfl
@[simp] theorem modNet_links (f : Net → Net) : (modNet f s).links = s.links := rfl
@[simp] theorem modNet_group (f : Net → Net) : (modNet f s).group = s.group := rfl
@[simp] theorem modNet_mem (f : Net → Net) : (modNet f s).mem = s.mem := rfl
@[simp] theorem modNet_arbs (f : Net → Net) : (modNet f s).arbs = s.arbs := rfl
@[simp] theorem modNet_faults (f : Net → Net) : (modNet f s).faults = s.faults := rfl
@[simp] theorem modNet_pwr (f : Net → Net) : (modNet f s).pwr = s.pwr := rfl
@[simp] theorem modNet_edge (f : Net → Net) : (modNet f s).edge = s.edge := rfl

@[simp] theorem modPort_pending (p : Nat) (f : Port → Port) : (modPort p f s).pending = s.pending := rfl
@[simp] theorem modPort_free (p : Nat) (f : Port → Port) : (modPort p f s).free = s.free := rfl
@[simp] theorem modPort_posts (p : Nat) (f : Port → Port) : (modPort p f s).posts = s.posts := rfl
@[simp] theorem modPort_out (p : Nat) (f : Port → Port) : (modPort p f s).out = s.out := rfl
@[simp] theorem modPort_lt (p : Nat) (f : Port → Port) : (modPort p f s).lt = s.lt := rfl
@[simp] theorem modPort_hostMem (p : Nat) (f : Port → Port) : (modPort p f s).hostMem = s.hostMem := rfl
@[simp] theorem modPort_xbuf (p : Nat) (f : Port → Port) : (modPort p f s).xbuf = s.xbuf := rfl
@[simp] theorem modPort_mbx (p : Nat) (f : Port → Port) : (modPort p f s).mbx = s.mbx := rfl
@[simp] theorem modPort_irq (p : Nat) (f : Port → Port) : (modPort p f s).irq = s.irq := rfl
@[simp] theorem modPort_log (p : Nat) (f : Port → Port) : (modPort p f s).log = s.log := rfl
@[simp] theorem modPort_rings (p : Nat) (f : Port → Port) : (modPort p f s).rings = s.rings := rfl
@[simp] theorem modPort_leases (p : Nat) (f : Port → Port) : (modPort p f s).leases = s.leases := rfl
@[simp] theorem modPort_clients (p : Nat) (f : Port → Port) : (modPort p f s).clients = s.clients := rfl
@[simp] theorem modPort_probs (p : Nat) (f : Port → Port) : (modPort p f s).probs = s.probs := rfl
@[simp] theorem modPort_sets (p : Nat) (f : Port → Port) : (modPort p f s).sets = s.sets := rfl
@[simp] theorem modPort_query (p : Nat) (f : Port → Port) : (modPort p f s).query = s.query := rfl
@[simp] theorem modPort_jobs (p : Nat) (f : Port → Port) : (modPort p f s).jobs = s.jobs := rfl
@[simp] theorem modPort_trainPower (p : Nat) (f : Port → Port) : (modPort p f s).trainPower = s.trainPower := rfl
@[simp] theorem modPort_trainSuspended (p : Nat) (f : Port → Port) : (modPort p f s).trainSuspended = s.trainSuspended := rfl
@[simp] theorem modPort_trainHot (p : Nat) (f : Port → Port) : (modPort p f s).trainHot = s.trainHot := rfl
@[simp] theorem modPort_time (p : Nat) (f : Port → Port) : (modPort p f s).time = s.time := rfl
@[simp] theorem modPort_net (p : Nat) (f : Port → Port) : (modPort p f s).net = { s.net with ports := s.net.ports.mod p f } := rfl
@[simp] theorem modPort_links (p : Nat) (f : Port → Port) : (modPort p f s).links = s.links := rfl
@[simp] theorem modPort_group (p : Nat) (f : Port → Port) : (modPort p f s).group = s.group := rfl
@[simp] theorem modPort_mem (p : Nat) (f : Port → Port) : (modPort p f s).mem = s.mem := rfl
@[simp] theorem modPort_arbs (p : Nat) (f : Port → Port) : (modPort p f s).arbs = s.arbs := rfl
@[simp] theorem modPort_faults (p : Nat) (f : Port → Port) : (modPort p f s).faults = s.faults := rfl
@[simp] theorem modPort_pwr (p : Nat) (f : Port → Port) : (modPort p f s).pwr = s.pwr := rfl
@[simp] theorem modPort_edge (p : Nat) (f : Port → Port) : (modPort p f s).edge = s.edge := rfl

@[simp] theorem modLink_pending (l : Nat) (f : Link → Link) : (modLink l f s).pending = s.pending := rfl
@[simp] theorem modLink_free (l : Nat) (f : Link → Link) : (modLink l f s).free = s.free := rfl
@[simp] theorem modLink_posts (l : Nat) (f : Link → Link) : (modLink l f s).posts = s.posts := rfl
@[simp] theorem modLink_out (l : Nat) (f : Link → Link) : (modLink l f s).out = s.out := rfl
@[simp] theorem modLink_lt (l : Nat) (f : Link → Link) : (modLink l f s).lt = s.lt := rfl
@[simp] theorem modLink_hostMem (l : Nat) (f : Link → Link) : (modLink l f s).hostMem = s.hostMem := rfl
@[simp] theorem modLink_xbuf (l : Nat) (f : Link → Link) : (modLink l f s).xbuf = s.xbuf := rfl
@[simp] theorem modLink_mbx (l : Nat) (f : Link → Link) : (modLink l f s).mbx = s.mbx := rfl
@[simp] theorem modLink_irq (l : Nat) (f : Link → Link) : (modLink l f s).irq = s.irq := rfl
@[simp] theorem modLink_log (l : Nat) (f : Link → Link) : (modLink l f s).log = s.log := rfl
@[simp] theorem modLink_rings (l : Nat) (f : Link → Link) : (modLink l f s).rings = s.rings := rfl
@[simp] theorem modLink_leases (l : Nat) (f : Link → Link) : (modLink l f s).leases = s.leases := rfl
@[simp] theorem modLink_clients (l : Nat) (f : Link → Link) : (modLink l f s).clients = s.clients := rfl
@[simp] theorem modLink_probs (l : Nat) (f : Link → Link) : (modLink l f s).probs = s.probs := rfl
@[simp] theorem modLink_sets (l : Nat) (f : Link → Link) : (modLink l f s).sets = s.sets := rfl
@[simp] theorem modLink_query (l : Nat) (f : Link → Link) : (modLink l f s).query = s.query := rfl
@[simp] theorem modLink_jobs (l : Nat) (f : Link → Link) : (modLink l f s).jobs = s.jobs := rfl
@[simp] theorem modLink_trainPower (l : Nat) (f : Link → Link) : (modLink l f s).trainPower = s.trainPower := rfl
@[simp] theorem modLink_trainSuspended (l : Nat) (f : Link → Link) : (modLink l f s).trainSuspended = s.trainSuspended := rfl
@[simp] theorem modLink_trainHot (l : Nat) (f : Link → Link) : (modLink l f s).trainHot = s.trainHot := rfl
@[simp] theorem modLink_time (l : Nat) (f : Link → Link) : (modLink l f s).time = s.time := rfl
@[simp] theorem modLink_net (l : Nat) (f : Link → Link) : (modLink l f s).net = s.net := rfl
@[simp] theorem modLink_links (l : Nat) (f : Link → Link) : (modLink l f s).links = s.links.mod l f := rfl
@[simp] theorem modLink_group (l : Nat) (f : Link → Link) : (modLink l f s).group = s.group := rfl
@[simp] theorem modLink_mem (l : Nat) (f : Link → Link) : (modLink l f s).mem = s.mem := rfl
@[simp] theorem modLink_arbs (l : Nat) (f : Link → Link) : (modLink l f s).arbs = s.arbs := rfl
@[simp] theorem modLink_faults (l : Nat) (f : Link → Link) : (modLink l f s).faults = s.faults := rfl
@[simp] theorem modLink_pwr (l : Nat) (f : Link → Link) : (modLink l f s).pwr = s.pwr := rfl
@[simp] theorem modLink_edge (l : Nat) (f : Link → Link) : (modLink l f s).edge = s.edge := rfl

@[simp] theorem modTb_pending (t : Nat) (f : TBase → TBase) : (modTb t f s).pending = s.pending := rfl
@[simp] theorem modTb_free (t : Nat) (f : TBase → TBase) : (modTb t f s).free = s.free := rfl
@[simp] theorem modTb_posts (t : Nat) (f : TBase → TBase) : (modTb t f s).posts = s.posts := rfl
@[simp] theorem modTb_out (t : Nat) (f : TBase → TBase) : (modTb t f s).out = s.out := rfl
@[simp] theorem modTb_lt (t : Nat) (f : TBase → TBase) : (modTb t f s).lt = s.lt := rfl
@[simp] theorem modTb_hostMem (t : Nat) (f : TBase → TBase) : (modTb t f s).hostMem = s.hostMem := rfl
@[simp] theorem modTb_xbuf (t : Nat) (f : TBase → TBase) : (modTb t f s).xbuf = s.xbuf := rfl
@[simp] theorem modTb_mbx (t : Nat) (f : TBase → TBase) : (modTb t f s).mbx = s.mbx := rfl
@[simp] theorem modTb_irq (t : Nat) (f : TBase → TBase) : (modTb t f s).irq = s.irq := rfl
@[simp] theorem modTb_log (t : Nat) (f : TBase → TBase) : (modTb t f s).log = s.log := rfl
@[simp] theorem modTb_rings (t : Nat) (f : TBase → TBase) : (modTb t f s).rings = s.rings := rfl
@[simp] theorem modTb_leases (t : Nat) (f : TBase → TBase) : (modTb t f s).leases = s.leases := rfl
@[simp] theorem modTb_clients (t : Nat) (f : TBase → TBase) : (modTb t f s).clients = s.clients := rfl
@[simp] theorem modTb_probs (t : Nat) (f : TBase → TBase) : (modTb t f s).probs = s.probs := rfl
@[simp] theorem modTb_sets (t : Nat) (f : TBase → TBase) : (modTb t f s).sets = s.sets := rfl
@[simp] theorem modTb_query (t : Nat) (f : TBase → TBase) : (modTb t f s).query = s.query := rfl
@[simp] theorem modTb_jobs (t : Nat) (f : TBase → TBase) : (modTb t f s).jobs = s.jobs := rfl
@[simp] theorem modTb_trainPower (t : Nat) (f : TBase → TBase) : (modTb t f s).trainPower = s.trainPower := rfl
@[simp] theorem modTb_trainSuspended (t : Nat) (f : TBase → TBase) : (modTb t f s).trainSuspended = s.trainSuspended := rfl
@[simp] theorem modTb_trainHot (t : Nat) (f : TBase → TBase) : (modTb t f s).trainHot = s.trainHot := rfl
@[simp] theorem modTb_time (t : Nat) (f : TBase → TBase) : (modTb t f s).time = { s.time with tbs := s.time.tbs.mod t f } := rfl
@[simp] theorem modTb_net (t : Nat) (f : TBase → TBase) : (modTb t f s).net = s.net := rfl
@[simp] theorem modTb_links (t : Nat) (f : TBase → TBase) : (modTb t f s).links = s.links := rfl
@[simp] theorem modTb_group (t : Nat) (f : TBase → TBase) : (modTb t f s).group = s.group := rfl
@[simp] theorem modTb_mem (t : Nat) (f : TBase → TBase) : (modTb t f s).mem = s.mem := rfl
@[simp] theorem modTb_arbs (t : Nat) (f : TBase → TBase) : (modTb t f s).arbs = s.arbs := rfl
@[simp] theorem modTb_faults (t : Nat) (f : TBase → TBase) : (modTb t f s).faults = s.faults := rfl
@[simp] theorem modTb_pwr (t : Nat) (f : TBase → TBase) : (modTb t f s).pwr = s.pwr := rfl
@[simp] theorem modTb_edge (t : Nat) (f : TBase → TBase) : (modTb t f s).edge = s.edge := rfl

@[simp] theorem modFaults_pending (f : Faults → Faults) : (modFaults f s).pending = s.pending := rfl
@[simp] theorem modFaults_free (f : Faults → Faults) : (modFaults f s).free = s.free := rfl
@[simp] theorem modFaults_posts (f : Faults → Faults) : (modFaults f s).posts = s.posts := rfl
@[simp] theorem modFaults_out (f : Faults → Faults) : (modFaults f s).out = s.out := rfl
@[simp] theorem modFaults_lt (f : Faults → Faults) : (modFaults f s).lt = s.lt := rfl
@[simp] theorem modFaults_hostMem (f : Faults → Faults) : (modFaults f s).hostMem = s.hostMem := rfl
@[simp] theorem modFaults_xbuf (f : Faults → Faults) : (modFaults f s).xbuf = s.xbuf := rfl
@[simp] theorem modFaults_mbx (f : Faults → Faults) : (modFaults f s).mbx = s.mbx := rfl
@[simp] theorem modFaults_irq (f : Faults → Faults) : (modFaults f s).irq = s.irq := rfl
@[simp] theorem modFaults_log (f : Faults → Faults) : (modFaults f s).log = s.log := rfl
@[simp] theorem modFaults_rings (f : Faults → Faults) : (modFaults f s).rings = s.rings := rfl
@[simp] theorem modFaults_leases (f : Faults → Faults) : (modFaults f s).leases = s.leases := rfl
@[simp] theorem modFaults_clients (f : Faults → Faults) : (modFaults f s).clients = s.clients := rfl
@[simp] theorem modFaults_probs (f : Faults → Faults) : (modFaults f s).probs = s.probs := rfl
@[simp] theorem modFaults_sets (f : Faults → Faults) : (modFaults f s).sets = s.sets := rfl
@[simp] theorem modFaults_query (f : Faults → Faults) : (modFaults f s).query = s.query := rfl
@[simp] theorem modFaults_jobs (f : Faults → Faults) : (modFaults f s).jobs = s.jobs := rfl
@[simp] theorem modFaults_trainPower (f : Faults → Faults) : (modFaults f s).trainPower = s.trainPower := rfl
@[simp] theorem modFaults_trainSuspended (f : Faults → Faults) : (modFaults f s).trainSuspended = s.trainSuspended := rfl
@[simp] theorem modFaults_trainHot (f : Faults → Faults) : (modFaults f s).trainHot = s.trainHot := rfl
@[simp] theorem modFaults_time (f : Faults → Faults) : (modFaults f s).time = s.time := rfl
@[simp] theorem modFaults_net (f : Faults → Faults) : (modFaults f s).net = s.net := rfl
@[simp] theorem modFaults_links (f : Faults → Faults) : (modFaults f s).links = s.links := rfl
@[simp] theorem modFaults_group (f : Faults → Faults) : (modFaults f s).group = s.group := rfl
@[simp] theorem modFaults_mem (f : Faults → Faults) : (modFaults f s).mem = s.mem := rfl
@[simp] theorem modFaults_arbs (f : Faults → Faults) : (modFaults f s).arbs = s.arbs := rfl
@[simp] theorem modFaults_faults (f : Faults → Faults) : (modFaults f s).faults = f s.faults := rfl
@[simp] theorem modFaults_pwr (f : Faults → Faults) : (modFaults f s).pwr = s.pwr := rfl
@[simp] theorem modFaults_edge (f : Faults → Faults) : (modFaults f s).edge = s.edge := rfl

@[simp] theorem modMbx_pending (f : Mailbox → Mailbox) : (modMbx f s).pending = s.pending := rfl
@[simp] theorem modMbx_free (f : Mailbox → Mailbox) : (modMbx f s).free = s.free := rfl
@[simp] theorem modMbx_posts (f : Mailbox → Mailbox) : (modMbx f s).posts = s.posts := rfl
@[simp] theorem modMbx_out (f : Mailbox → Mailbox) : (modMbx f s).out = s.out := rfl
@[simp] theorem modMbx_lt (f : Mailbox → Mailbox) : (modMbx f s).lt = s.lt := rfl
@[simp] theorem modMbx_hostMem (f : Mailbox → Mailbox) : (modMbx f s).hostMem = s.hostMem := rfl
@[simp] theorem modMbx_xbuf (f : Mailbox → Mailbox) : (modMbx f s).xbuf = s.xbuf := rfl
@[simp] theorem modMbx_mbx (f : Mailbox → Mailbox) : (modMbx f s).mbx = f s.mbx := rfl
@[simp] theorem modMbx_irq (f : Mailbox → Mailbox) : (modMbx f s).irq = s.irq := rfl
@[simp] theorem modMbx_log (f : Mailbox → Mailbox) : (modMbx f s).log = s.log := rfl
@[simp] theorem modMbx_rings (f : Mailbox → Mailbox) : (modMbx f s).rings = s.rings := rfl
@[simp] theorem modMbx_leases (f : Mailbox → Mailbox) : (modMbx f s).leases = s.leases := rfl
@[simp] theorem modMbx_clients (f : Mailbox → Mailbox) : (modMbx f s).clients = s.clients := rfl
@[simp] theorem modMbx_probs (f : Mailbox → Mailbox) : (modMbx f s).probs = s.probs := rfl
@[simp] theorem modMbx_sets (f : Mailbox → Mailbox) : (modMbx f s).sets = s.sets := rfl
@[simp] theorem modMbx_query (f : Mailbox → Mailbox) : (modMbx f s).query = s.query := rfl
@[simp] theorem modMbx_jobs (f : Mailbox → Mailbox) : (modMbx f s).jobs = s.jobs := rfl
@[simp] theorem modMbx_trainPower (f : Mailbox → Mailbox) : (modMbx f s).trainPower = s.trainPower := rfl
@[simp] theorem modMbx_trainSuspended (f : Mailbox → Mailbox) : (modMbx f s).trainSuspended = s.trainSuspended := rfl
@[simp] theorem modMbx_trainHot (f : Mailbox → Mailbox) : (modMbx f s).trainHot = s.trainHot := rfl
@[simp] theorem modMbx_time (f : Mailbox → Mailbox) : (modMbx f s).time = s.time := rfl
@[simp] theorem modMbx_net (f : Mailbox → Mailbox) : (modMbx f s).net = s.net := rfl
@[simp] theorem modMbx_links (f : Mailbox → Mailbox) : (modMbx f s).links = s.links := rfl
@[simp] theorem modMbx_group (f : Mailbox → Mailbox) : (modMbx f s).group = s.group := rfl
@[simp] theorem modMbx_mem (f : Mailbox → Mailbox) : (modMbx f s).mem = s.mem := rfl
@[simp] theorem modMbx_arbs (f : Mailbox → Mailbox) : (modMbx f s).arbs = s.arbs := rfl
@[simp] theorem modMbx_faults (f : Mailbox → Mailbox) : (modMbx f s).faults = s.faults := rfl
@[simp] theorem modMbx_pwr (f : Mailbox → Mailbox) : (modMbx f s).pwr = s.pwr := rfl
@[simp] theorem modMbx_edge (f : Mailbox → Mailbox) : (modMbx f s).edge = s.edge := rfl

@[simp] theorem modLease_pending (l : Nat) (f : Lease → Lease) : (modLease l f s).pending = s.pending := rfl
@[simp] theorem modLease_free (l : Nat) (f : Lease → Lease) : (modLease l f s).free = s.free := rfl
@[simp] theorem modLease_posts (l : Nat) (f : Lease → Lease) : (modLease l f s).posts = s.posts := rfl
@[simp] theorem modLease_out (l : Nat) (f : Lease → Lease) : (modLease l f s).out = s.out := rfl
@[simp] theorem modLease_lt (l : Nat) (f : Lease → Lease) : (modLease l f s).lt = s.lt := rfl
@[simp] theorem modLease_hostMem (l : Nat) (f : Lease → Lease) : (modLease l f s).hostMem = s.hostMem := rfl
@[simp] theorem modLease_xbuf (l : Nat) (f : Lease → Lease) : (modLease l f s).xbuf = s.xbuf := rfl
@[simp] theorem modLease_mbx (l : Nat) (f : Lease → Lease) : (modLease l f s).mbx = s.mbx := rfl
@[simp] theorem modLease_irq (l : Nat) (f : Lease → Lease) : (modLease l f s).irq = s.irq := rfl
@[simp] theorem modLease_log (l : Nat) (f : Lease → Lease) : (modLease l f s).log = s.log := rfl
@[simp] theorem modLease_rings (l : Nat) (f : Lease → Lease) : (modLease l f s).rings = s.rings := rfl
@[simp] theorem modLease_leases (l : Nat) (f : Lease → Lease) : (modLease l f s).leases = s.leases.mod l f := rfl
@[simp] theorem modLease_clients (l : Nat) (f : Lease → Lease) : (modLease l f s).clients = s.clients := rfl
@[simp] theorem modLease_probs (l : Nat) (f : Lease → Lease) : (modLease l f s).probs = s.probs := rfl
@[simp] theorem modLease_sets (l : Nat) (f : Lease → Lease) : (modLease l f s).sets = s.sets := rfl
@[simp] theorem modLease_query (l : Nat) (f : Lease → Lease) : (modLease l f s).query = s.query := rfl
@[simp] theorem modLease_jobs (l : Nat) (f : Lease → Lease) : (modLease l f s).jobs = s.jobs := rfl
@[simp] theorem modLease_trainPower (l : Nat) (f : Lease → Lease) : (modLease l f s).trainPower = s.trainPower := rfl
@[simp] theorem modLease_trainSuspended (l : Nat) (f : Lease → Lease) : (modLease l f s).trainSuspended = s.trainSuspended := rfl
@[simp] theorem modLease_trainHot (l : Nat) (f : Lease → Lease) : (modLease l f s).trainHot = s.trainHot := rfl
@[simp] theorem modLease_time (l : Nat) (f : Lease → Lease) : (modLease l f s).time = s.time := rfl
@[simp] theorem modLease_net (l : Nat) (f : Lease → Lease) : (modLease l f s).net = s.net := rfl
@[simp] theorem modLease_links (l : Nat) (f : Lease → Lease) : (modLease l f s).links = s.links := rfl
@[simp] theorem modLease_group (l : Nat) (f : Lease → Lease) : (modLease l f s).group = s.group := rfl
@[simp] theorem modLease_mem (l : Nat) (f : Lease → Lease) : (modLease l f s).mem = s.mem := rfl
@[simp] theorem modLease_arbs (l : Nat) (f : Lease → Lease) : (modLease l f s).arbs = s.arbs := rfl
@[simp] theorem modLease_faults (l : Nat) (f : Lease → Lease) : (modLease l f s).faults = s.faults := rfl
@[simp] theorem modLease_pwr (l : Nat) (f : Lease → Lease) : (modLease l f s).pwr = s.pwr := rfl
@[simp] theorem modLease_edge (l : Nat) (f : Lease → Lease) : (modLease l f s).edge = s.edge := rfl

@[simp] theorem post_pending (sp : Space) (a : Nat) (bs : List Byte) : (post sp a bs s).pending = s.pending := rfl
@[simp] theorem post_free (sp : Space) (a : Nat) (bs : List Byte) : (post sp a bs s).free = s.free := rfl
@[simp] theorem post_posts (sp : Space) (a : Nat) (bs : List Byte) : (post sp a bs s).posts = s.posts ++ [⟨sp, a, bs⟩] := rfl
@[simp] theorem post_out (sp : Space) (a : Nat) (bs : List Byte) : (post sp a bs s).out = s.out := rfl
@[simp] theorem post_lt (sp : Space) (a : Nat) (bs : List Byte) : (post sp a bs s).lt = s.lt := rfl
@[simp] theorem post_hostMem (sp : Space) (a : Nat) (bs : List Byte) : (post sp a bs s).hostMem = s.hostMem := rfl
@[simp] theorem post_xbuf (sp : Space) (a : Nat) (bs : List Byte) : (post sp a bs s).xbuf = s.xbuf := rfl
@[simp] theorem post_mbx (sp : Space) (a : Nat) (bs : List Byte) : (post sp a bs s).mbx = s.mbx := rfl
@[simp] theorem post_irq (sp : Space) (a : Nat) (bs : List Byte) : (post sp a bs s).irq = s.irq := rfl
@[simp] theorem post_log (sp : Space) (a : Nat) (bs : List Byte) : (post sp a bs s).log = s.log := rfl
@[simp] theorem post_rings (sp : Space) (a : Nat) (bs : List Byte) : (post sp a bs s).rings = s.rings := rfl
@[simp] theorem post_leases (sp : Space) (a : Nat) (bs : List Byte) : (post sp a bs s).leases = s.leases := rfl
@[simp] theorem post_clients (sp : Space) (a : Nat) (bs : List Byte) : (post sp a bs s).clients = s.clients := rfl
@[simp] theorem post_probs (sp : Space) (a : Nat) (bs : List Byte) : (post sp a bs s).probs = s.probs := rfl
@[simp] theorem post_sets (sp : Space) (a : Nat) (bs : List Byte) : (post sp a bs s).sets = s.sets := rfl
@[simp] theorem post_query (sp : Space) (a : Nat) (bs : List Byte) : (post sp a bs s).query = s.query := rfl
@[simp] theorem post_jobs (sp : Space) (a : Nat) (bs : List Byte) : (post sp a bs s).jobs = s.jobs := rfl
@[simp] theorem post_trainPower (sp : Space) (a : Nat) (bs : List Byte) : (post sp a bs s).trainPower = s.trainPower := rfl
@[simp] theorem post_trainSuspended (sp : Space) (a : Nat) (bs : List Byte) : (post sp a bs s).trainSuspended = s.trainSuspended := rfl
@[simp] theorem post_trainHot (sp : Space) (a : Nat) (bs : List Byte) : (post sp a bs s).trainHot = s.trainHot := rfl
@[simp] theorem post_time (sp : Space) (a : Nat) (bs : List Byte) : (post sp a bs s).time = s.time := rfl
@[simp] theorem post_net (sp : Space) (a : Nat) (bs : List Byte) : (post sp a bs s).net = s.net := rfl
@[simp] theorem post_links (sp : Space) (a : Nat) (bs : List Byte) : (post sp a bs s).links = s.links := rfl
@[simp] theorem post_group (sp : Space) (a : Nat) (bs : List Byte) : (post sp a bs s).group = s.group := rfl
@[simp] theorem post_mem (sp : Space) (a : Nat) (bs : List Byte) : (post sp a bs s).mem = s.mem := rfl
@[simp] theorem post_arbs (sp : Space) (a : Nat) (bs : List Byte) : (post sp a bs s).arbs = s.arbs := rfl
@[simp] theorem post_faults (sp : Space) (a : Nat) (bs : List Byte) : (post sp a bs s).faults = s.faults := rfl
@[simp] theorem post_pwr (sp : Space) (a : Nat) (bs : List Byte) : (post sp a bs s).pwr = s.pwr := rfl
@[simp] theorem post_edge (sp : Space) (a : Nat) (bs : List Byte) : (post sp a bs s).edge = s.edge := rfl

@[simp] theorem emit_pending (o : Out) : (emit o s).pending = s.pending := rfl
@[simp] theorem emit_free (o : Out) : (emit o s).free = s.free := rfl
@[simp] theorem emit_posts (o : Out) : (emit o s).posts = s.posts := rfl
@[simp] theorem emit_out (o : Out) : (emit o s).out = o :: s.out := rfl
@[simp] theorem emit_lt (o : Out) : (emit o s).lt = s.lt := rfl
@[simp] theorem emit_hostMem (o : Out) : (emit o s).hostMem = s.hostMem := rfl
@[simp] theorem emit_xbuf (o : Out) : (emit o s).xbuf = s.xbuf := rfl
@[simp] theorem emit_mbx (o : Out) : (emit o s).mbx = s.mbx := rfl
@[simp] theorem emit_irq (o : Out) : (emit o s).irq = s.irq := rfl
@[simp] theorem emit_log (o : Out) : (emit o s).log = s.log := rfl
@[simp] theorem emit_rings (o : Out) : (emit o s).rings = s.rings := rfl
@[simp] theorem emit_leases (o : Out) : (emit o s).leases = s.leases := rfl
@[simp] theorem emit_clients (o : Out) : (emit o s).clients = s.clients := rfl
@[simp] theorem emit_probs (o : Out) : (emit o s).probs = s.probs := rfl
@[simp] theorem emit_sets (o : Out) : (emit o s).sets = s.sets := rfl
@[simp] theorem emit_query (o : Out) : (emit o s).query = s.query := rfl
@[simp] theorem emit_jobs (o : Out) : (emit o s).jobs = s.jobs := rfl
@[simp] theorem emit_trainPower (o : Out) : (emit o s).trainPower = s.trainPower := rfl
@[simp] theorem emit_trainSuspended (o : Out) : (emit o s).trainSuspended = s.trainSuspended := rfl
@[simp] theorem emit_trainHot (o : Out) : (emit o s).trainHot = s.trainHot := rfl
@[simp] theorem emit_time (o : Out) : (emit o s).time = s.time := rfl
@[simp] theorem emit_net (o : Out) : (emit o s).net = s.net := rfl
@[simp] theorem emit_links (o : Out) : (emit o s).links = s.links := rfl
@[simp] theorem emit_group (o : Out) : (emit o s).group = s.group := rfl
@[simp] theorem emit_mem (o : Out) : (emit o s).mem = s.mem := rfl
@[simp] theorem emit_arbs (o : Out) : (emit o s).arbs = s.arbs := rfl
@[simp] theorem emit_faults (o : Out) : (emit o s).faults = s.faults := rfl
@[simp] theorem emit_pwr (o : Out) : (emit o s).pwr = s.pwr := rfl
@[simp] theorem emit_edge (o : Out) : (emit o s).edge = s.edge := rfl

end Sys2Proof.Machine
end

