-- ==== Sys2Proof/Laws/Exec.lean ====
section
/-! SUPPORT. What every command does: the end of a step, and the course of a master command that can run at once. -/
namespace Sys2Proof.Machine

/-- Every meaning ends in `finish`. -/
theorem exec_finish (i : Instr) (s : State) : ∃ t, exec i s = finish s t := by
  cases i <;> exact ⟨_, rfl⟩

/-- What the end of a step does: the queue stays, the posts are carried out. -/
theorem finish_next (s t u : State) (h : finish s t = .next u) :
    u.pending = s.pending ∧ u.posts = [] ∧ u.hostMem = applyPosts .host s.hostMem t.posts ∧ u.xbuf = applyPosts .xbuf s.xbuf t.posts := by
  unfold finish at h
  cases h
  exact ⟨rfl, rfl, rfl, rfl⟩

/-- A step keeps the memories in their canonical form. -/
theorem finish_wf (s t u : State) (h : finish s t = .next u) (hh : s.hostMem.wf = true) (hx : s.xbuf.wf = true) :
    u.hostMem.wf = true ∧ u.xbuf.wf = true := by
  obtain ⟨_, _, h1, h2⟩ := finish_next s t u h
  rw [h1, h2]
  exact ⟨applyPosts_wf _ _ _ hh, applyPosts_wf _ _ _ hx⟩

/-- What `Runs` says. -/
theorem runs_iff (c : CmdIn) (s : State) (h : Runs c s = true) :
    pathOpen c.agent s = true ∧ full s = true ∧ s.mbx.waiting = [] ∧ s.mbx.running = [] ∧ s.mbx.arrived = []
    ∧ (s.mbx.cplHead - s.mbx.cplTail).toNat < 255 ∧ c.flags.toNat < 4 ∧ c.rsvd = 0 := by
  simpa [Runs, and_assoc] using h

/-- The course of a master command that runs at once: accepted, started, and what its effect answers. -/
theorem submit_runs (op : W16) (eff : Cmd → State → State × Reply) (c : CmdIn) (s : State) (h : Runs c s = true) :
    submit op eff c s =
      match (eff (cmdOf op c s) (taken c s)).2 with
      | .done st res => complete (cmdOf op c s) st res (eff (cmdOf op c s) (taken c s)).1
      | .held a k => modMbx (fun b => { b with running := b.running ++ [⟨cmdOf op c s, a, k⟩] }) (eff (cmdOf op c s) (taken c s)).1 := by
  obtain ⟨hp, hf, hw, hr, ha, hc, _, _⟩ := runs_iff c s h
  have hroom : hasRoom s = true := by
    simp only [hasRoom, inFlight, hw, hr, List.length_nil, decide_eq_true_eq]; omega
  have hm : stamped (cmdOf op c s) s = cmdOf op c s := rfl
  have hst : canStart (cmdOf op c s) (accept (cmdOf op c s) s) = true := by
    simp [canStart, accept, modMbx, hw, hr, stamped, cmdOf]
  have hg : gateStatus (cmdOf op c s) (accept (cmdOf op c s) s) = none := by
    have hf' : full (accept (cmdOf op c s) s) = true := hf
    have hb : (cmdOf op c s).phaseBad = false := rfl
    simp only [gateStatus, hf', hb]
    rfl
  have ht : modMbx (fun b => { b with waiting := b.waiting.filter (fun w => w.acceptNo != (cmdOf op c s).acceptNo) }) (accept (cmdOf op c s) s)
      = taken c s := by
    simp [accept, hm, modMbx, taken, hw]
    exact ⟨rfl, rfl⟩
  unfold submit
  simp only [hp, hroom, ha, List.isEmpty_nil, Bool.and_self, if_true]
  change (if canStart (cmdOf op c s) (accept (cmdOf op c s) s) = true then startCmd eff (cmdOf op c s) (accept (cmdOf op c s) s) else _) = _
  rw [if_pos hst]
  unfold startCmd
  simp only [hg, ht] <;> rfl

/-- A master command that runs at once and completes. -/
theorem submit_ends (op : W16) (eff : Cmd → State → State × Reply) (c : CmdIn) (s t : State) (st : Status) (res : List Byte)
    (h : Runs c s = true) (he : eff (cmdOf op c s) (taken c s) = (t, .done st res)) :
    finish s (submit op eff c s) = ends op c s st res t := by
  rw [submit_runs op eff c s h, he]; rfl

/-- A master command that runs at once and stays in flight. -/
theorem submit_begins (op : W16) (eff : Cmd → State → State × Reply) (c : CmdIn) (s t : State) (a : Await) (k : Bool)
    (h : Runs c s = true) (he : eff (cmdOf op c s) (taken c s) = (t, .held a k)) :
    finish s (submit op eff c s) = begins op c s a k t := by
  rw [submit_runs op eff c s h, he]; rfl

/-- An effect whose checks all pass. -/
theorem checked_pass (cs : List (Bool × Status)) (s : State) (ok : State × Reply) (h : firstFail cs = none) : checked cs s ok = ok := by
  simp [checked, h]

/-- An effect of which a check fails. -/
theorem checked_fail (cs : List (Bool × Status)) (s : State) (ok : State × Reply) (st : Status) (h : firstFail cs = some st) :
    checked cs s ok = (s, .done st []) := by
  simp [checked, h]

/-- The checks of a list pass when none of them holds. -/
@[simp] theorem firstFail_nil : firstFail [] = none := rfl
/-- One check after another. -/
@[simp] theorem firstFail_cons (b : Bool) (st : Status) (cs : List (Bool × Status)) :
    firstFail ((b, st) :: cs) = if b then some st else firstFail cs := rfl

/-- A descriptor without reserved bits that names no problem passes the descriptor checks (R422). -/
theorem desc_noProb (op : W16) (c : CmdIn) (s : State) (h : Runs c s = true) (hn : NoProb c = true) (b : List (Bool × Status)) :
    firstFail (descChecks false false (cmdOf op c s) ++ b) = firstFail b := by
  obtain ⟨_, _, _, _, _, _, hf, hr⟩ := runs_iff c s h
  have hp : c.problem = 0xFFFF ∧ c.addr2 = 0 := by simpa [NoProb] using hn
  have hz : c.flags.toNat / 4 = 0 := by omega
  simp [descChecks, cmdOf, hp.1, hp.2, pOf, hr, hz]

/-- A descriptor without reserved bits that names a problem passes the descriptor checks (R422). -/
theorem desc_named (op : W16) (c : CmdIn) (s : State) (h : Runs c s = true) (hn : Named c = true) (b : List (Bool × Status)) :
    firstFail (descChecks true false (cmdOf op c s) ++ b) = firstFail b := by
  obtain ⟨_, _, _, _, _, _, hf, hr⟩ := runs_iff c s h
  have hp : c.problem.toNat < 1024 ∧ c.addr2 = 0 := by simpa [Named] using hn
  have hz : c.flags.toNat / 4 = 0 := by omega
  have hq : ¬ 1023 < c.problem.toNat := by omega
  simp [descChecks, cmdOf, hp.2, pOf, hr, hz, hq]

/-- An output with room and a usable address passes its checks (R422). -/
theorem outChecks_ok (op : W16) (c : CmdIn) (s : State) (n : Nat) (h : OutOk c n = true) (b : List (Bool × Status)) :
    firstFail (outChecks (cmdOf op c s) n ++ b) = firstFail b := by
  simp only [OutOk, Bool.and_eq_true, decide_eq_true_eq, Bool.not_eq_true'] at h
  have h1 : ¬ c.length.toNat < n := by omega
  have h2 : addrBad (cmdOf op c s) c.addr n = false := h.2
  have h3 : decide (lenOf (cmdOf op c s) < n) = false := decide_eq_false h1
  have h4 : addrBad (cmdOf op c s) (cmdOf op c s).c.addr n = false := h2
  simp [outChecks, h3, h4]

/-- An input record of the right size at a usable address, whose own problem is the descriptor's, passes its checks (R422). -/
theorem inChecks_ok (op : W16) (c : CmdIn) (s : State) (own : Option Nat) (n : Nat) (h : InOk c n = true)
    (ho : ∀ q, own = some q → q = c.p) (b : List (Bool × Status)) :
    firstFail (inChecks (cmdOf op c s) own n ++ b) = firstFail b := by
  simp only [InOk, Bool.and_eq_true, beq_iff_eq, Bool.not_eq_true'] at h
  have h2 : (lenOf (cmdOf op c s) != n) = false := by simp [lenOf, cmdOf, h.1]
  have h3 : addrBad (cmdOf op c s) (cmdOf op c s).c.addr (lenOf (cmdOf op c s)) = false := by
    have : lenOf (cmdOf op c s) = n := h.1
    rw [this]; exact h.2
  simp only [inChecks, List.cons_append, List.nil_append, firstFail_cons, h2, h3]
  cases own with
  | none => simp
  | some q => simp [ho q rfl, pOf, cmdOf, CmdIn.p]

end Sys2Proof.Machine
end

