-- ==== Sys2Proof/Tests/Slice0.lean ====
section
/-! SUPPORT. Tests of the model: well-formedness smoke, one small step each, and for every statement with hypotheses a witness: a concrete
state and operands that meet them, clause by clause. -/
namespace Sys2Proof.Tests
set_option Elab.async false
open Sys2Proof Sys2Proof.Machine

/-! The helpers: a device in full service, descriptors by the management path, records in the exchange buffer. -/

/-- In full service, everything else as at reset. -/
def up : State := { State.reset with pwr := { State.reset.pwr with power := .idle, stage := .full, everFull := true }, edge := { State.reset.edge with on := true } }
/-- Powered, before READY, at a stage of the boot. -/
def at_ (g : Stage) : State := { up with pwr := { up.pwr with stage := g } }
/-- The first address of the exchange buffer. -/
def xb : W64 := 0x8000000000000000
/-- ARGS from bytes. -/
def ar (bs : List Nat) : BitVec 256 := BitVec.ofNat 256 (leNat (bs.map (BitVec.ofNat 8)))
/-- A descriptor that names no problem, with LENGTH and ARGS. -/
def nd (len : W32) (bs : List Nat := []) : CmdIn := { agent := .mgmt, length := len, addr := xb, args := ar bs }
/-- A descriptor that names problem 3. -/
def pd3 (len : W32) (bs : List Nat := []) : CmdIn := { nd len bs with problem := 3 }
/-- A state with problem 3. -/
def wp (q : Prob) (s : State := up) : State := { s with probs := [(3, q)] }
/-- A state with a record at the start of the exchange buffer. -/
def wr (bs : List Byte) (s : State := up) : State := { s with xbuf := Mem.writeBytes [] 0 bs }
/-- A small image: one stage's worth of nothing, eight parameters. -/
def im0 : Image := { nParams := 8 }
/-- A LOADED problem with it. -/
def lp : Prob := { st := .loaded, im := some im0, params := List.replicate 8 0 }
/-- The same ENABLED. -/
def ep : Prob := { lp with st := .enabled }
/-- A running command. -/
def running (op : W16) (a : Await) (s : State) (c : CmdIn := pd3 0) : State :=
  { s with mbx := { s.mbx with running := [{ cmd := { op := op, c := c }, await := a }] } }
/-! Well-formedness: one ill-formed command for each check. -/

theorem test_wf_index : Instr.wf (.nop { index := 256 }) = false := by decide
theorem test_wf_index_frame_path : Instr.wf (.nop { agent := .mgmt, index := 0xFFFF }) = true := by decide
theorem test_wf_payload : Instr.wf (.yspSolve { payload := List.replicate 65536 0 }) = false := by
  show decide ((List.replicate 65536 (0 : Byte)).length < 65536) = false
  rw [List.length_replicate]; rfl
theorem test_wf_fault_unit : Instr.wf (.faultDetected 1 8 0 true {}) = false := by decide
theorem test_wf_unresolved_unit : Instr.wf (.unresolvedTestDone 8 0 true) = false := by decide
theorem test_wf_self_test_unit : Instr.wf (.selfTestComplete [(0, 0), (4, 16)]) = false := by decide
theorem test_wf_boot_test_unit : Instr.wf (.bootSelfTestComplete [(2, 128)] false) = false := by decide
theorem test_wf_read_offset : Instr.wf (.registerReadClear .mailbox 2) = false := by decide
theorem test_wf_write_offset : Instr.wf (.registerWrite .direct 0x50006 0 15) = false := by decide
theorem test_wf_msix_offset : Instr.wf (.msixTableWrite 0x3 0) = false := by decide

/-! Witnesses of the general statements. -/

theorem witness_IdleStepCounts : State.reset.pending = []
    ∧ (∀ l ∈ List.range 8, (link State.reset l).state = .up → (link State.reset l).vc2Sent = [] ∧ (State.reset.arbs.get (194 + l)).queue = []) := by decide
theorem witness_StepKeepsMemory : State.memWf { up with pending := [.nop (nd 0)] } = true
    ∧ ∃ t, step { up with pending := [.nop (nd 0)] } = .next t := by exact ⟨by decide +kernel, _, rfl⟩
theorem witness_PostsFrame : up.memWf = true ∧ (∃ u, finish up { up with posts := [⟨.host, 8, [1]⟩] } = .next u)
    ∧ (∀ p ∈ [(⟨.host, 8, [1]⟩ : Post)], p.space = .host → 9 < p.addr ∨ p.addr + p.bytes.length ≤ 9) := by
  exact ⟨by decide +kernel, ⟨_, rfl⟩, by decide⟩
/-- A state with 64 commands in flight. -/
def busy : State := { up with mbx := { up.mbx with waiting := List.replicate 64 {} } }
/-- A state with one command waiting for the path. -/
def queued : State := { up with mbx := { up.mbx with arrived := [{}] } }
theorem witness_AcceptanceRules :
    (pathOpen .mgmt busy = true ∧ hasRoom busy = false) ∧ (pathOpen .mgmt queued = true ∧ queued.mbx.arrived ≠ [])
    ∧ (full (at_ .ready) = false ∧ (0x0201#16).toNat / 256 = 2 ∧ (0x0601#16).toNat / 256 = 6)
    ∧ (canStart { op := 0x0301, c := pd3 0, acceptNo := 1 } (running 0x0201 .imageLoad up { pd3 0 with problem := 4 }) = true) := by decide +kernel
theorem witness_FenceWaits : ({ c := { nd 0 with flags := 2 } : Cmd }).c.flags.getLsbD 1 = true
    ∧ canStart { c := { nd 0 with flags := 2 }, acceptNo := 0 } busy = true := by decide +kernel
theorem witness_ReservedOffsets : (0x44 % 4 = 0 ∧ 0x44 < 0x100) ∧ (0x1C8 % 4 = 0 ∧ 0x1C8 < 0x400) ∧ (0x600 % 4 = 0 ∧ 0x600 < 0xA00)
    ∧ (0xB08 % 4 = 0 ∧ 0xB08 < 0x2000) ∧ (0x3028 % 4 = 0 ∧ 0xFFFC % 4 = 0 ∧ 0xFFFC < 0x10000) := by decide
theorem witness_TailTaken : ((5 : W32) - 6).toInt < 0 ∧ ((16 : Nat) : Int) < ((17 : W32) - 0).toInt
    ∧ (0 ≤ ((16 : W32) - 0).toInt ∧ ((16 : W32) - 0).toInt ≤ ((16 : Nat) : Int)) := by decide
/-- A tail ahead is taken as HEAD, one more than the size behind as HEAD less the size (R517). -/
theorem test_take_tail : takeTail 5 6 16 = 5 ∧ takeTail 17 0 16 = 1 ∧ takeTail 16 0 16 = 0 := by decide

theorem witness_GeneralCommandsComplete : Runs (nd 16384) up = true ∧ NoProb (nd 16384) = true ∧ OutOk (nd 64) 64 = true ∧ OutOk (nd 96) 96 = true
    ∧ OutOk (nd 16384) 16384 = true ∧ Runs (nd 0 [0xFF, 1]) up = true ∧ argN (nd 0 [0xFF, 1]) 0 2 = 511 := by decide +kernel
theorem witness_ImageCommandsComplete : Named (pd3 64) = true ∧ Runs (pd3 64) up = true
    ∧ (addrBad { c := pd3 64 } (pd3 64).addr 64 = false ∧ (prob up 3).st = .empty)
    ∧ (Runs (pd3 64) (wp lp) = true ∧ (prob (wp lp) 3).st = .loaded ∧ (wp lp).probs.wf = true ∧ OutOk (pd3 64) 64 = true)
    ∧ (argN (pd3 0 [1, 0, 0xFF, 3]) 0 1 = 1 ∧ argN (pd3 0 [1, 0, 0xFF, 3]) 2 2 = 1023) := by decide +kernel

/-! Witnesses of the statements on master commands. -/

/-- A one-entry group for problem 3: its header and entry. -/
def grp (client lease epoch : Nat) (idx : Nat := 7) : List Byte :=
  leBytes 2 3 ++ leBytes 1 client ++ zeros 1 ++ leBytes 2 lease ++ leBytes 2 1 ++ leBytes 4 epoch ++ leBytes 2 1 ++ leBytes 2 0 ++ leBytes 2 1 ++ zeros 6
  ++ leBytes 4 idx ++ leBytes 1 0 ++ zeros 3 ++ wBytes 8 one64
theorem witness_LoadAndInfuse :
    ((running 0x0201 .imageLoad up).mbx.running.find? (fun y => y.await == .imageLoad)).isSome = true
    ∧ (let s := wr (grp 0 0 0) (wp lp)
       let bs := recOf (pd3 40) s
       Runs (pd3 40) s = true ∧ Named (pd3 40) = true ∧ (prob s 3).st ≠ .empty ∧ (parseHdr bs).problem = 3
       ∧ InOk (pd3 40) (24 + 16 * (parseHdr bs).count) = true ∧ firstFail (fragmentChecks bs) = none ∧ (parseHdr bs).first = 0
       ∧ (parseHdr bs).count = (parseHdr bs).total ∧ indexBad (prob s 3) ((entryRecs bs).map parseEntry) = false
       ∧ (completeGroup 3 ((entryRecs bs).map parseEntry) (taken (pd3 40) s)).2 = stOk) := by decide +kernel
theorem witness_ScheduleCommandsComplete : Runs (pd3 0) (wp lp) = true ∧ Named (pd3 0) = true ∧ (prob (wp lp) 3).st = .loaded
    ∧ Runs (pd3 0) (wp { ep with sched := { requested := true } }) = true ∧ (prob (wp { ep with sched := { requested := true } }) 3).st = .enabled := by decide +kernel
/-- A schedule block at the lower ends of Table 2-3. -/
def sb (phase period : Nat) : List Nat :=
  [phase, 0, 0, 0, 0, 0, 0, 0, period % 256, period / 256, 0, 0, 0x88, 0x13, 0, 0, 0xE8, 3, 0, 0, 100, 0, 0, 0, 1, 0, 0, 1, 1, 0]
theorem witness_EnableCompletes :
    Runs (pd3 0 (sb 0 20000)) (wp lp) = true ∧ Named (pd3 0 (sb 0 20000)) = true ∧ (prob (wp lp) 3).st = .loaded
    ∧ schedBad (argBytes (pd3 0 (sb 0 20000))) = false ∧ schedImageBad (prob (wp lp) 3) (parseSched (argBytes (pd3 0 (sb 0 20000)))) = false
    ∧ (let s := wp { lp with place := { clusters := 0 } }
       (admitRun (taken (pd3 0 (sb 0 20000)) s) 3 (parseSched (argBytes (pd3 0 (sb 0 20000))))).1 = none) := by decide +kernel
theorem witness_EnableOutOfRange :
    Runs (pd3 0 (sb 0 19999)) (wp lp) = true ∧ Named (pd3 0 (sb 0 19999)) = true ∧ schedBad (argBytes (pd3 0 (sb 0 19999))) = true
    ∧ schedImageBad { lp with im := some { im0 with method := 1 } } (parseSched (argBytes (pd3 0 (sb 0 20000)))) = true := by decide +kernel
/-- A problem that has poured and trapped. -/
def polled : Prob := { ep with poured := some { it := some {} }, trap := some {} }
theorem witness_ProblemReadsComplete :
    (let s := wp polled
     Runs (pd3 152) s = true ∧ Named (pd3 152) = true ∧ (prob s 3).st ≠ .empty ∧ OutOk (pd3 152) 152 = true
     ∧ ((iterateRecord (prob s 3)).map List.length = some 64 ∧ OutOk (pd3 64) 64 = true ∧ addrBad { c := pd3 64 } (pd3 64).addr 64 = false)
     ∧ ((prob s 3).trap.isSome = true ∧ OutOk (pd3 80) 80 = true) ∧ OutOk (pd3 72) 72 = true ∧ OutOk (pd3 56) 56 = true ∧ OutOk (pd3 96) 96 = true)
    ∧ (let s := wr ([3, 0, 3, 15, 0xFF, 0, 0, 0, 1] ++ zeros 23) (wp lp)
       let bs := recOf (pd3 32) s
       Runs (pd3 32) s = true ∧ (prob s 3).st = .loaded ∧ InOk (pd3 32) 32 = true ∧ u16 bs 0 = 3 ∧ u64 bs 8 ≠ 0 ∧ u8 bs 2 = 3 ∧ u8 bs 3 = 15
       ∧ zeroAt bs 5 3 = true ∧ zeroAt bs 16 16 = true) := by decide +kernel
/-- A CLASS 3 image without stages, and an estimator record for it with one channel. -/
def im3 : Image := { im0 with cls := 3 }
/-- The record. -/
def estRec : List Byte :=
  leBytes 2 3 ++ leBytes 2 1 ++ zeros 4 ++ leBytes 4 20000 ++ zeros 16 ++ leBytes 4 0xFFFF ++ leBytes 8 0 ++ wBytes 8 one64 ++ wBytes 8 (0x4000000000000000 : W64)
  ++ zeros 24 ++ zeros 16 ++ wBytes 8 one64 ++ zeros 8
theorem witness_EstimatorCommandsComplete :
    (let s := wr estRec (wp { lp with im := some im3 })
     let bs := recOf (pd3 112) s
     Runs (pd3 112) s = true ∧ Named (pd3 112) = true ∧ isEst (prob s 3) = true ∧ (prob s 3).st = .loaded ∧ u16 bs 0 = 3
     ∧ InOk (pd3 112) (80 + 32 * u16 bs 2) = true ∧ estBad im3 bs = false)
    ∧ (let s := wr [3] (wp { lp with im := some im3 })
       InOk (pd3 32) (32 * 1) = true ∧ (chunks 32 1 (recOf (pd3 32) s)).any (sampleBad 3) = false ∧ InOk (pd3 131072) (32 * 4096) = true
       ∧ (estRecord (prob s 3) im3).length = 88 ∧ OutOk (pd3 88) 88 = true ∧ addrBad { c := pd3 88 } (pd3 88).addr 88 = false) := by decide +kernel
theorem witness_OrderAndCheckpointCommands :
    (Runs (pd3 0 [1]) (wp { lp with im := some { im0 with flags := 1 } }) = true ∧ Named (pd3 0 [1]) = true ∧ argN (pd3 0 [1]) 0 1 = 1
      ∧ Image.fixedOrderBuilt { im0 with flags := 1 } = true) ∧ OutOk (pd3 64) 64 = true
    ∧ (Runs (pd3 0) (wp ep) = true ∧ (prob (wp ep) 3).st = .enabled ∧ (prob (wp ep) 3).nextSteep.toNat ≤ argN (pd3 0) 0 8 ∧ argN (pd3 0) 0 8 < 2 ^ 64)
    ∧ (addrBad { c := pd3 0 } (pd3 0).addr 0 = false ∧ (prob (wp ep) 3).im = some im0 ∧ (prob (wp ep) 3).ckpt = none) := by decide +kernel
/-- A problem that may pair: PERIODIC, fixed order, its twin link UP. -/
def pairable : State := { wp { ep with fixed := true, sched := { period := 20000 } } with links := [(0, { state := .up })] }
/-- A query of a one-body tree with a fixed joint, operation 1. -/
def imT : Image := { im0 with bodies := [⟨0, 0, 0, 0, 0⟩], joints := [⟨0, 0, 0xFFFF, 0, 0, 0, 0, 0, 0⟩] }
/-- Its input record. -/
def qry : List Byte := [3, 0, 0, 0, 1, 0, 0xFF, 0xFF] ++ zeros 400
theorem witness_TwinAndQueryCommands :
    (let c := pd3 0 [1, 0, 0, 0, 0xE8, 3, 0, 0]
     Runs c pairable = true ∧ Named c = true ∧ (prob pairable 3).st ≠ .empty ∧ pairable.faults.recovery = false ∧ argN c 0 1 = 1 ∧ argN c 4 4 = 1000
     ∧ zeroAt (argBytes c) 1 3 = true ∧ zeroAt (argBytes c) 16 16 = true ∧ (prob pairable 3).fixed = true ∧ (prob pairable 3).sched.requested = false
     ∧ (prob pairable 3).sched.period ≠ 0 ∧ (prob pairable 3).spans = false ∧ twinLink pairable = true ∧ argN c 8 8 < 2 ^ 64
     ∧ (prob pairable 3).nextSteep.toNat ≤ argN c 8 8)
    ∧ (Runs (pd3 0) pairable = true ∧ argN (pd3 0) 0 1 = 0 ∧ zeroAt (argBytes (pd3 0)) 1 3 = true ∧ zeroAt (argBytes (pd3 0)) 16 16 = true
      ∧ (prob pairable 3).atBarrier = none) ∧ argN (pd3 0 [1, 0, 0, 0, 0x50, 0xC3]) 4 4 = 50000 ∧ OutOk (pd3 48) 48 = true
    ∧ (let s := wr qry (wp { lp with im := some imT })
       let c : CmdIn := { pd3 4096 with addr2 := 0x8000000000001000 }
       let head := getRecord (taken c s) c.addr 0x90
       let k := imT.treeCoords (u16 head 2)
       let size := 0x90 + 8 * (k.1 + 2 * k.2)
       Runs c s = true ∧ (prob s 3).im = some imT ∧ u16 head 0 = 3 ∧ addrBad { c := c } c.addr 0x90 = false ∧ addrBad { c := c } c.addr size = false
       ∧ addrBad { c := c } c.addr2 c.length.toNat = false ∧ queryBad imT (getRecord (taken c s) c.addr size) c.length.toNat = false
       ∧ freePipe (taken c s) = true) := by decide +kernel
/-- An image with one model of one output, and a job record for it. -/
def imM : Image := { im0 with models := [⟨0, 0, 0, 0, 1, 1, 0, 0, 0, 0, 0, 0, 0⟩] }
/-- The record at the lower ends of Table 10-1. -/
def jobRec : List Byte :=
  leBytes 2 3 ++ [0, 0, 0, 2, 1, 0] ++ zeros 8 ++ leBytes 4 100 ++ leBytes 4 1 ++ leBytes 4 0 ++ leBytes 4 0 ++ leBytes 4 1024 ++ leBytes 4 1
  ++ leBytes 4 0x3F800000 ++ zeros 16 ++ leBytes 4 0x3F800000 ++ leBytes 4 0x3F800000 ++ zeros 4 ++ leBytes 4 1 ++ leBytes 4 1 ++ zeros 4
/-- A state with a job of problem 3, model 0. -/
def jobbed : State := { wp { ep with im := some imM, prev := [(0, {})] } with jobs := [{ problem := 3 }] }
theorem witness_TrainingCommandsComplete :
    (let s := wr jobRec (wp { ep with im := some imM })
     let c := pd3 84
     let bs := recOf c s
     Runs c s = true ∧ Named c = true ∧ (prob s 3).st ≠ .empty ∧ s.faults.recovery = false ∧ u16 bs 0 = 3 ∧ jobLengthBad (prob s 3) bs = false
     ∧ addrBad { c := c } c.addr c.length.toNat = false ∧ (prob s 3).st ≠ .retiring ∧ jobBad (prob s 3) bs = false
     ∧ (prob s 3).nextSteep.toNat ≤ (parseJob bs).start ∧ jobOf s 3 (u8 bs 2) = none ∧ s.jobs.length < 16
     ∧ (let s := { s with jobs := [{ problem := 3, stopping := true }] }
        Runs c s = true ∧ (jobOf s 3 (u8 bs 2)).map Job.stopping = some true))
    ∧ (Runs (pd3 128) jobbed = true ∧ (jobOf jobbed 3 (argN (pd3 128) 0 1)).map Job.stopping = some false ∧ OutOk (pd3 128) 128 = true)
    ∧ ((prob jobbed 3).nextSteep.toNat ≤ argN (pd3 0) 8 8 ∧ argN (pd3 0) 1 1 = 0 ∧ (prob jobbed 3).prev.get? (argN (pd3 0) 0 1) ≠ none
      ∧ argN (pd3 0 [0, 1]) 1 1 = 1) := by decide +kernel
/-- A time base at its own clock, and two that serve from different masters. -/
def tbs (a b : TBase) : State := { up with time := { up.time with tbs := [(0, a), (3, b)] } }
/-- A TB_ENABLE record of a FREE base at the lower ends of Table 14-2. -/
def tbRec : List Byte := [3, 0, 0, 0, 0, 0, 0, 0, 6, 0] ++ zeros 14 ++ leBytes 4 1000 ++ leBytes 4 1 ++ leBytes 4 1 ++ zeros 4
theorem witness_TimeCommandsComplete :
    (let s := wr tbRec (tbs {} {})
     Runs (nd 40) s = true ∧ NoProb (nd 40) = true ∧ InOk (nd 40) 40 = true ∧ tbRecordBad (recOf (nd 40) s) = false
     ∧ u8 (recOf (nd 40) s) 0 = 3 ∧ (tbase s 3).state = .disabled ∧ tbClash (taken (nd 40) s) 3 (parseTb (recOf (nd 40) s)) = false
     ∧ (tbase (tbs {} { state := .disabling }) 3).state = .disabling)
    ∧ (let s := tbs { state := .locked, source := 2, domain := 1 } { state := .free, source := 4 }
       argN (nd 0 [3]) 0 1 = 3 ∧ (tbase s 3).state = .free ∧ argN (nd 0 [0, 3]) 0 1 = 0 ∧ argN (nd 0 [0, 3]) 1 1 = 3
       ∧ (tbase s 0).state ≠ .disabled ∧ (tbase s 3).state ≠ .disabled ∧ (tbase s 0).source ≠ 0 ∧ (tbase s 3).source ≠ 0
       ∧ (tbase s 0).partner = none ∧ (tbase s 3).partner = none ∧ (tbase s 0).domain ≠ (tbase s 3).domain) := by decide +kernel

/-- A record written at the start of the exchange buffer reads back whole. -/
theorem recOf_wr (bs : List Byte) (c : CmdIn) (s : State) (ha : c.addr = xb) (hl : c.length.toNat = bs.length) (hs : s.posts = []) :
    recOf c (wr bs s) = bs := by
  have h := Mem.readBytes_writeBytes bs [] 0 rfl
  simp only [recOf, getRecord, memView, wr, ha, hl, hs, xb, spaceOf, applyPosts]
  exact h

/-- A PORT_SET record: sixteen entries of one mode. -/
def portRec (mode fec vlan : Nat) : List Byte :=
  zeros 28 ++ leBytes 2 vlan ++ zeros 34 ++ (List.replicate 16 ([BitVec.ofNat 8 mode, BitVec.ofNat 8 fec, 0, 0] ++ leBytes 2 1518 ++ leBytes 2 1 ++ zeros 24)).flatMap id
theorem witness_PortSetWhole :
    (∀ bs : List Byte, bs.length = 576 → recOf (nd 576) (wr bs) = bs) ∧ Runs (nd 576) (wr (portRec 0 0 1)) = true ∧ NoProb (nd 576) = true
    ∧ InOk (nd 576) 576 = true ∧ (portRec 5 2 1).length = 576
    ∧ portSetBad (portRec 0 0 0) = true ∧ (portSetBad (portRec 0 0 1) = false ∧ lanesBad ((portEntries (portRec 0 0 1)).map parsePort) = false)
    ∧ (portSetBad (portRec 5 2 1) = false ∧ lanesBad ((portEntries (portRec 5 2 1)).map parsePort) = true
      ∧ 32 < (((portEntries (portRec 5 2 1)).map parsePort).map (fun x => modeLanes x.mode)).foldl (· + ·) 0) := by
  refine ⟨fun bs h => recOf_wr bs _ _ rfl (by rw [h]; rfl) rfl, ?_⟩
  decide +kernel
theorem witness_PeerCommandsComplete : Runs (nd 0 [0xFF]) up = true ∧ NoProb (nd 0 [0xFF]) = true ∧ zeroAt (argBytes (nd 0 [0xFF])) 1 31 = true
    ∧ (up.faults.recovery = false ∧ argN (nd 0) 0 1 = 0 ∧ zeroAt (argBytes (nd 0)) 3 5 = true ∧ zeroAt (argBytes (nd 0)) 16 16 = true
      ∧ (up.probs.any (fun e => e.2.spans && e.2.st == .enabled)) = false)
    ∧ (let c := nd 0 [255, 7, 8, 0, 0, 0, 0, 0, 7, 6, 5, 4, 3, 2, 1, 255]
       Runs c up = true ∧ NoProb c = true ∧ argN c 0 1 ≠ 0 ∧ argN c 1 1 < argN c 2 1 ∧ argN c 2 1 = 8
       ∧ (∀ r ∈ List.range 8, r < argN c 2 1 → r ≠ argN c 1 1 → argN c (8 + r) 1 ≤ 7)
       ∧ zeroAt (argBytes c) 3 5 = true ∧ zeroAt (argBytes c) 16 16 = true) := by decide +kernel
theorem witness_PortAndTsnCommands :
    (argN (nd 0 [0xFF, 255, 0, 0, 0, 0, 0, 0, 0, 0, 0, 0, 7]) 1 1 = 255 ∧ argN (nd 0 [0xFF, 255, 0, 0, 0, 0, 0, 0, 0, 0, 0, 0, 7]) 12 1 = 7)
    ∧ argN (nd 0) 1 1 = 0 ∧ argN (nd 0 [0, 1]) 1 1 = 1 ∧ argN (nd 0 [0, 2]) 1 1 = 2 ∧ Runs (nd 0 [0xFF, 255]) up = true ∧ NoProb (nd 0) = true
    ∧ (let s := wr ([15, 0, 0, 1, 1, 0] ++ zeros 10 ++ leBytes 4 1000 ++ zeros 4 ++ [1, 0, 0, 0] ++ leBytes 4 1000)
       let bs := recOf (nd 32) s
       Runs (nd 32) s = true ∧ InOk (nd 32) (24 + 8 * u16 bs 4) = true ∧ gatesBad bs = false ∧ (byteAt bs 3).getLsbD 0 = true)
    ∧ (let s (flags ix0 ix1 : Byte) := wr ([4, flags, ix0, ix1] ++ zeros 4 ++ [0, 1, 1, 0, 0, 0, 0, 0, 0, 0, 1, 0])
       let put (flags ix0 ix1 : Byte) : Bool :=
         let bs := recOf (nd 24) (s flags ix0 ix1)
         Runs (nd 24) (s flags ix0 ix1) && u8 bs 0 == 4 && decide (u8 bs 1 ≤ 3) && InOk (nd 24) (streamSize bs) && zeroAt bs 4 4
         && !(byteAt bs 1).getLsbD 1 && !streamEntryBad (u8 bs 0) (bs.drop 8)
       put 0 0xFF 0 = true ∧ put 1 0xFF 0xFF = true ∧ u16 (recOf (nd 24) (s 0 0xFF 0)) 2 = 255 ∧ 255 < streamCount 4
       ∧ u16 (recOf (nd 24) (s 1 0xFF 0xFF)) 2 = 0xFFFF ∧ (List.range (streamCount 4)).find? (fun i => !(streamUsed up 4).contains i) = some 0
       ∧ (byteAt (recOf (nd 24) (s 3 0xFF 0)) 1).getLsbD 1 = true ∧ InOk (nd 8) (nd 8).length.toNat = true) := by decide +kernel
/-- Loop 31 with a target no loop may have. -/
def badLoop : State := { up with edge := { up.edge with loops := [(31, { force := [2] })] } }
/-- The same loop as it is at reset, with a legal period. -/
def goodLoop : State := { up with edge := { up.edge with loops := [(31, { force := [0x00200C00, 1000, 0] })] } }
theorem witness_LoopCommandsComplete : Runs (nd 0 [0, 0, 0, 0x80]) badLoop = true ∧ NoProb (nd 0 [0, 0, 0, 0x80]) = true
    ∧ (bitsOf (argN (nd 0 [0, 0, 0, 0x80]) 0 4) 32).filter (fun n => startBad badLoop.edge n (takenLoops badLoop.edge ++ [31])) ≠ []
    ∧ (bitsOf (argN (nd 0 [0, 0, 0, 0x80]) 0 4) 32).filter (fun n => startBad goodLoop.edge n (takenLoops goodLoop.edge ++ [31])) = [] := by decide +kernel
/-- A problem bound to ring 31. -/
def ringed : State := { wp lp with rings := [(31, { problem := some 3 })] }
theorem witness_PourDestinationsSet :
    (let c := pd3 64 [31, 4, 1]
     Runs c (wp lp) = true ∧ Named c = true ∧ (prob (wp lp) 3).im = some im0 ∧ argN c 0 1 = 31 ∧ argN c 2 1 = 1 ∧ argN c 1 1 = 4
     ∧ (0 : W64).toNat % 4096 = 0 ∧ (0 : W64).getLsbD 63 = false ∧ c.length.toNat % 64 = 0 ∧ 32 + im0.resultBytes ≤ c.length.toNat
     ∧ ((wp lp).rings.get 31).problem = none ∧ ringOf (wp lp) 3 = none)
    ∧ (let c : CmdIn := { agent := .pcie, problem := 3, length := 64, args := ar [31, 16, 1] }
       Runs c { wp lp with mbx := { up.mbx with enable := true } } = true ∧ argN c 1 1 = 16)
    ∧ (argN (pd3 0 [31]) 2 1 = 0 ∧ ringOf ringed 3 = some 31 ∧ (ringed.rings.get 31).problem = some 3 ∧ Runs (pd3 0 [31]) ringed = true)
    ∧ (let s := wr ([3, 0, 1, 0, 0, 0, 0, 0, 255, 7, 127, 0]) (wp lp)
       let bs := recOf (pd3 16) s
       let es := chunks 8 (u8 bs 2) (bs.drop 8)
       u16 bs 0 = 3 ∧ InOk (pd3 16) (8 + 8 * u8 bs 2) = true ∧ u8 bs 2 ≤ 8 ∧ zeroAt bs 3 5 = true
       ∧ (∀ e ∈ es, u8 e 1 ≤ 7 ∧ (u16 e 2 ≤ 127 ∨ u16 e 2 = 0xFFFF) ∧ zeroAt e 4 4 = true)
       ∧ ((es.map (fun e => (⟨byteAt e 0, u8 e 1, u16 e 2⟩ : Dest))).map Dest.client).Nodup) := by decide +kernel
theorem witness_PowerCommandsComplete :
    Runs (nd 0) up = true ∧ NoProb (nd 0) = true ∧ (argN (nd 0 [60]) 0 2 = 60 ∧ argN (nd 0 [60]) 2 1 = 0)
    ∧ (argN (nd 0 [0xD0, 2, 1]) 0 2 = 720 ∧ argN (nd 0 [0xD0, 2, 1]) 2 1 = 1) ∧ OutOk (nd 64) 64 = true
    ∧ (argN (nd 0 [4, 2, 0, 0, 50]) 0 1 = 4 ∧ argN (nd 0 [4, 2, 0, 0, 50]) 1 1 = 2 ∧ argN (nd 0 [4, 2, 0, 0, 50]) 4 4 = 50
      ∧ argN (nd 0 [0, 0, 0, 0, 0x80, 0x96, 0x98, 0]) 4 4 = 10000000)
    ∧ (argN (nd 0 [2, 7, 0, 0, 1]) 0 1 = 2 ∧ argN (nd 0 [2, 7, 0, 0, 1]) 1 1 = 7 ∧ ((argN (nd 0 [2, 7, 0, 0, 1]) 1 1).testBit 1 = true ↔ argN (nd 0 [2, 7, 0, 0, 1]) 4 4 ≠ 0)
      ∧ up.probs.any (fun e => e.2.st == .enabled || e.2.st == .retiring || e.2.ckpt.isSome) = false ∧ staging up = false ∧ up.faults.limp = none
      ∧ up.pwr.power ≠ .limp ∧ up.faults.recovery = false ∧ up.faults.testSession = false ∧ up.pwr.entering = none)
    ∧ (argN (nd 0 [3]) 0 1 ≠ 2 ∧ argN (nd 0 [3]) 0 1 ≠ 4) ∧ 7 < argN (nd 0 [2, 8]) 1 1 := by decide +kernel
/-- A stored form with its magic, size and FNV-1a over what follows. -/
def stored (magic size : Nat) (body : List Byte) : List Byte := leBytes 4 magic ++ leBytes 2 1 ++ leBytes 2 size ++ wBytes 8 (fnv fnvBasis body) ++ body
/-- An image that pours one value. -/
def imP : Image := { im0 with blocks := [⟨0, 1, true, 1, 0, 0, 0, 0⟩] }
/-- A field I/O configuration: the one in force at reset. -/
def fioRec : List Byte := fioInForce State.reset.edge
/-- A profile that starts no loop. -/
def profRec : List Byte := stored 0x4C584459 0x8C0 (zeros 2224)
theorem witness_EdgeTableCommands :
    (∀ bs : List Byte, bs.length = 272 → recOf (nd 272) (wr bs) = bs) ∧ (∀ bs : List Byte, bs.length = 2240 → recOf (nd 2240 [7]) (wr bs) = bs)
    ∧ (InOk (nd 272) 272 = true ∧ fioRec.length = 272 ∧ fioGood fioRec = true ∧ fioInUse (wr fioRec).edge fioRec = false ∧ Runs (nd 272) (wr []) = true)
    ∧ OutOk (nd 272) 272 = true
    ∧ (let s := wr ([3, 0, 1, 0, 1, 0, 0, 0, 10, 0, 0, 0, 0, 0, 0, 0, 63] ++ zeros 23) (wp { lp with im := some imP })
       let bs := recOf (pd3 40) s
       Runs (pd3 40) s = true ∧ u16 bs 0 = 3 ∧ InOk (pd3 40) (16 + 24 * u16 bs 2) = true
       ∧ slotMapBad bs (imP.resultBytes / 8) = false
       ∧ (∀ r ∈ slotRecords bs, ∀ b ∈ s.edge.binds, b.1 ≠ 3 → u8 r 0 ∉ b.2.entries.map SlotEntry.slot))
    ∧ (argN (nd 2240 [7]) 0 1 = 7 ∧ InOk (nd 2240 [7]) 2240 = true ∧ profRec.length = 2240 ∧ profileBad profRec = false)
    ∧ (let e : Edge := { up.edge with profiles := [(7, profRec)] }
       let c := nd 0 [7, 0, 0, 0, 0, 0, 0, 0x80]
       argN c 0 1 < 8 ∧ e.profiles.get? (argN c 0 1) = some profRec ∧ profileForm profRec = true ∧ (argN (nd 0 [7, 1]) 1 1).testBit 0 = true
       ∧ (∀ n ∈ bitsOf (BitVec.ofNat 32 (argN c 4 4)).toNat 32, (loopN e n).state = .stopped))
    ∧ (argN (nd 0 [7]) 0 1 = 7 ∧ argN (nd 0 [0xFF]) 0 1 = 0xFF) := by
  refine ⟨fun bs h => recOf_wr bs _ _ rfl (by rw [h]; rfl) rfl, fun bs h => recOf_wr bs _ _ rfl (by rw [h]; rfl) rfl, ?_⟩
  decide +kernel
/-- The base point of P-384 as a key. -/
def keyRec : List Byte := beBytes 48 p384Gx ++ beBytes 48 p384Gy
/-- A device whose keys are locked. -/
def locked : State := { up with pwr := { up.pwr with nv := { up.pwr.nv with sign := 2 } } }
theorem witness_SecurityCommandsComplete :
    (Runs (nd 96 [7, 0]) (wr keyRec) = true ∧ NoProb (nd 96 [7, 0]) = true ∧ argN (nd 96 [7, 0]) 0 1 = 7 ∧ argN (nd 96 [7, 0]) 1 1 = 0
      ∧ InOk (nd 96 [7, 0]) 96 = true ∧ keyRec.length = 96 ∧ ecOn (beAt keyRec 0 48) (beAt keyRec 48 48) = true ∧ keysLocked (wr keyRec) = false)
    ∧ argN (nd 0 [7, 1]) 1 1 = 1 ∧ argN (nd 0 [2]) 0 1 = 2 ∧ (keysLocked locked = true ∧ Runs (nd 0 [2]) locked = true)
    ∧ (addrBad { c := nd 0x2000000 } xb 0x2000000 = false ∧ (nd 0x2000000).length.toNat = 32 * 2 ^ 20 ∧ staging up = false) := by decide +kernel
/-- A device with host core 15 fenced by command. -/
def fencedUp : State := { up with faults := { up.faults with units := [(unitKey 4 15, { state := 2 })] } }
theorem witness_FaultCommandsComplete :
    (let c := nd 0 [4, 15]
     Runs c fencedUp = true ∧ NoProb c = true ∧ argN c 0 1 = 4 ∧ argN c 1 1 = 15 ∧ zeroAt (argBytes c) 2 30 = true ∧ unitOk 4 15 = true
     ∧ fenced fencedUp 4 15 = true ∧ (unit fencedUp 4 15).state = 2 ∧ fenced up 4 15 = false ∧ Runs c up = true
     ∧ fencePends fencedUp (4, 15) = false
     ∧ (markFenced 4 15 2 1 0 (taken c up)).sets.any (fun e => usesUnit e.2 4 15 && occupied (taken c up) e.1) = false)
    ∧ (let s : State := { up with faults := { up.faults with testSession := true } }
       Runs (nd 0 [0xFF]) s = true ∧ argN (nd 0 [0xFF]) 0 1 = 0xFF ∧ s.faults.testSession = true ∧ Runs (nd 0 [4, 15]) s = true)
    ∧ OutOk (nd 10736) 10736 = true
    ∧ (quiescent (taken (nd 0) up) = true ∧ up.faults.recovery = false ∧ up.faults.testSession = false)
    ∧ (let s : State := { up with faults := { up.faults with recovery := true, recoveryCause := 2, staged := true, testSession := true } }
       Runs (nd 0) s = true ∧ quiescent (taken (nd 0) s) = true ∧ s.faults.recoveryCause = 2 ∧ s.faults.staged = true)
    ∧ (let s : State := { wp ep with faults := { up.faults with recovery := true, testSession := true } }
       Runs (nd 0) s = true ∧ quiescent (taken (nd 0) s) = false) := by decide +kernel
/-! Witnesses of the statements on events. -/

/-- The PCIe path open, with one descriptor at HEAD. -/
def ringUp : State := { up with mbx := { up.mbx with enable := true, cmdTail := 1 } }
/-- The ring disabling. -/
def ringDown : State := { up with mbx := { up.mbx with enable := true, disabling := true } }
/-- A command that waits with acceptance number 5. -/
def waits5 : State := { up with mbx := { up.mbx with waiting := [{ acceptNo := 5 }] } }
theorem witness_RingEventsComplete :
    ready up = true ∧ ready (at_ .ready) = true ∧ up.mbx.perst = false
    ∧ (ready ringUp = true ∧ pathOpen .pcie ringUp = true ∧ hasRoom ringUp = true ∧ ringUp.mbx.arrived = [] ∧ ringUp.mbx.cmdTail ≠ ringUp.mbx.cmdHead)
    ∧ (ready queued = true ∧ hasRoom queued = true ∧ (takeArrived .pcie queued.mbx.arrived).isSome = true)
    ∧ (ready waits5 = true ∧ ({ acceptNo := 5 } : Cmd) ∈ waits5.mbx.waiting
      ∧ waits5.mbx.waiting.find? (fun w => w.acceptNo == (5 : W64)) = some { acceptNo := 5 } ∧ canStart { acceptNo := 5 } waits5 = true)
    ∧ (up.mbx.disabling = false ∧ up.mbx.enable = false) ∧ (ready ringDown = true ∧ ringDown.mbx.disabling = true ∧ ringDown.mbx.enable = true)
    ∧ (ringDown.mbx.waiting = [] ∧ ringDown.mbx.running = [] ∧ ringDown.mbx.enableHeld = false
      ∧ { ringDown.mbx with enableHeld := true }.enableHeld = true)
    ∧ (mainOn ringUp = true ∧ ringUp.mbx.perst = false ∧ ringUp.mbx.enable = true) := by decide +kernel
theorem witness_RegisterEventsComplete : ready up = true ∧ up.mbx.perst = false ∧ (14#4) ≠ 15#4 ∧ (0x3FC#16).toNat < 1024 ∧ (0x3FC#16).toNat % 4 = 0 := by
  decide +kernel
/-- A device with port 15 UP, MGMT and YSP on. -/
def ported : State := { up with net := { up.net with ports := [(15, { state := .up, cfg := { flags := 0x1E, mode := 1, mtu := 1518, pvid := 1, express := 0 } })] } }
/-- A mailbox frame with a payload, from port 15. -/
def mf (pl : List Byte) : FrameIn := { src := { port := 15 }, magic := 0x4D59, length := BitVec.ofNat 16 pl.length, payload := pl }
theorem witness_MailboxFramesComplete :
    (switchOn ported = true ∧ (port ported 15).state = .up ∧ (mf []).size ≤ (port ported 15).cfg.mtu ∧ (mf []).src.rtag = none
      ∧ filterOf ported (frameEth ported (mf [])) (vidOf ported (frameEth ported (mf []))).toNat = none)
    ∧ (let ok (f : FrameIn) : Bool := match passed f ported with | some t => FrameOk f t | none => false
       let a := mf ([2, 0, 0, 0] ++ zeros 4 ++ [0, 1, 0, 0])
       let b := mf ([0, 0, 0, 0] ++ zeros 4 ++ [1, 0, 0, 0] ++ zeros 4)
       let c := mf (leBytes 8 (2 ^ 26 - 8) ++ zeros 8)
       let d := mf (leBytes 8 (2 ^ 26 - 8192) ++ leBytes 4 8192 ++ zeros 4)
       (ok a = true ∧ accessGood false a.payload = true) ∧ (ok b = true ∧ accessGood true b.payload = true)
       ∧ (ok (mf (zeros 64)) = true ∧ (mf (zeros 64)).payload.length = 64 * 1 ∧ ok (mf (zeros 1024)) = true ∧ (mf (zeros 1024)).payload.length = 64 * 16)
       ∧ (ok c = true ∧ spanGood (u64 c.payload 0) 8 = true ∧ c.payload.length = 8 + 8)
       ∧ (ok d = true ∧ d.payload.length = 16 ∧ spanGood (u64 d.payload 0) (u32 d.payload 8) = true ∧ zeroAt d.payload 12 4 = true)) := by decide +kernel
/-- Client 255 at port 15, and a lease for problem 3 in the state. -/
def leased (x : Lease) (s : State) : State := { s with clients := [(255, { used := true, portMask := 0x8000 })], leases := [(511, x)], net := ported.net }
/-- A lease of client 255 over problem 3, epoch 1, that expires at 1. -/
def mine : Lease := { client := some 255, epoch := 1, expiry := 1, first := 3, count := 1 }
/-- A YSP frame of client 255 from port 15. -/
def yf (pl : List Byte) : FrameIn := { src := { port := 15 }, client := 255, seq := 1, length := BitVec.ofNat 16 pl.length, payload := pl }
/-- The state in which a frame from port 15 has its effect. -/
def at15 (f : FrameIn) (s : State) : State := match passed f s with | some t => greeted f t | none => State.reset
/-- It passes the switch and the checks of its header. -/
def ok15 (f : FrameIn) (n : Nat) (s : State) : Bool := match passed f s with | some t => YspOk f n t | none => false
/-- A two-fragment group's first fragment for problem 3. -/
def frag : List Byte :=
  leBytes 2 3 ++ [255, 0] ++ leBytes 2 511 ++ leBytes 2 1 ++ leBytes 4 1 ++ leBytes 2 2 ++ leBytes 2 0 ++ leBytes 2 1 ++ zeros 6 ++ zeros 16
/-- A SOLVE for problem 3 under lease 511. -/
def slv : List Byte := leBytes 2 3 ++ zeros 2 ++ leBytes 2 511 ++ zeros 2 ++ leBytes 4 1 ++ zeros 4
theorem witness_YspFramesComplete :
    (let s := leased mine (wp lp)
     let ok (f : FrameIn) : Bool := let h := parseHdr f.payload
       let v := at15 f s
       ok15 f (24 + 16 * h.count) s && h.client == f.client.toNat && firstFail (fragmentChecks f.payload) == none
       && leaseValid v h.lease f.client (BitVec.ofNat 32 h.epoch) h.problem && (prob v h.problem).st != .empty
     let whole (f : FrameIn) := takeFragment f.payload (f.flags.getLsbD 0) (touchLease 511 (at15 f s))
     let g := yf (grp 255 511 1)
     ok (yf frag) = true ∧ (whole (yf frag)).2 = .held
     ∧ ok g = true ∧ (prob (whole g).1 3).twin.state ≠ .paired
     ∧ (match (whole g).2 with | .complete _ false => true | _ => false) = true
     ∧ ok { g with flags := 1 } = true ∧ (match (whole { g with flags := 1 }).2 with | .complete _ true => true | _ => false) = true)
    ∧ (let s := leased mine (wp { ep with sched := { requested := true } })
       let f := yf slv
       let v := at15 f s
       ok15 f 16 s = true ∧ f.flags = 0 ∧ u16 f.payload 0 = 3 ∧ zeroAt f.payload 2 2 = true ∧ zeroAt f.payload 6 2 = true ∧ zeroAt f.payload 12 4 = true
       ∧ leaseValid v (u16 f.payload 4) f.client (BitVec.ofNat 32 (u32 f.payload 8)) 3 = true ∧ (prob v 3).st = .enabled
       ∧ (prob v 3).staging = false ∧ (prob v 3).sched.requested = true)
    ∧ (let s := leased mine (wp ep)
       let f := yf (leBytes 2 511 ++ zeros 2 ++ leBytes 4 1 ++ [3] ++ zeros 31)
       let v := at15 f s
       f.payload.length = 8 + 32 * 1 ∧ ok15 f (8 + 32 * 1) s = true ∧ zeroAt f.payload 2 2 = true
       ∧ (measureRecs f.payload).any (fun r => !zeroAt r 4 4) = false ∧ u16 ((measureRecs f.payload).headD []) 0 = 3
       ∧ leaseValid v (u16 f.payload 0) f.client (BitVec.ofNat 32 (u32 f.payload 4)) 3 = true
       ∧ (measureRecs f.payload).any (sampleBad 3) = false ∧ (prob v 3).st ≠ .empty)
    ∧ (4 < (5 : Byte).toNat ∧ ok15 (yf []) 0 (leased mine up) = true) := by decide +kernel
/-- A LEASE payload. -/
def lpl (op epoch d : Nat) (first count : Nat := 0) : List Byte := leBytes 1 op ++ zeros 1 ++ leBytes 2 511 ++ leBytes 4 epoch ++ leBytes 4 d ++ leBytes 2 first ++ leBytes 2 count
/-- Two clients that wait for each other. -/
def circle : State := { up with leases := [(0, { client := some 0, waiters := [{ client := 1 }] }), (511, { client := some 1, waiters := [{ client := 0 }] })] }
theorem witness_LeaseEventsComplete :
    (let f := yf (lpl 0 0 50 1023 1)
     let ok (s : State) : Bool := ok15 f 16 s && zeroAt f.payload 1 1
     f.flags = 0 ∧ u8 f.payload 0 = 0 ∧ u32 f.payload 8 = 50 ∧ u16 f.payload 2 = 511 ∧ 1 ≤ u16 f.payload 14 ∧ u16 f.payload 12 + u16 f.payload 14 = 1024
     ∧ ok (leased {} up) = true ∧ (lease (at15 f (leased {} up)) 511).client = none ∧ (lease (at15 f (leased {} up)) 511).waiters = []
     ∧ lowestFree (at15 f (leased {} up)) = some 0
     ∧ (let s := leased { client := some 0 } up
        ok s = true ∧ (lease (at15 f s) 511).client ≠ some f.client ∧ (lease (at15 f s) 511).client ≠ none
        ∧ (at15 f s).leases.any (fun e => e.2.waiters.any (fun w => w.client == f.client)) = false)
     ∧ (let s := leased { waiters := [{}] } up
        ok s = true ∧ (lease (at15 f s) 511).client ≠ some f.client ∧ (lease (at15 f s) 511).waiters ≠ []
        ∧ (at15 f s).leases.any (fun e => e.2.waiters.any (fun w => w.client == f.client)) = false))
    ∧ u16 (lpl 0 0 50 1023 1 |>.set 3 0xFF) 2 = 0xFFFF
    ∧ (let s := leased mine up
       let ok (op : Nat) : Bool := let f := yf (lpl op 1 10000000 3 1)
         let v := at15 f s
         ok15 f 16 s && zeroAt f.payload 1 1 && u8 f.payload 0 == op && decide (u32 f.payload 8 ≤ 10000000) && (lease v 511).client == some f.client
         && (lease v 511).epoch == BitVec.ofNat 32 (u32 f.payload 4) && decide (v.lt < (lease v 511).expiry)
       ok 0 = true ∧ ok 1 = true ∧ ok 2 = true)
    ∧ (let s := leased { client := some 0, waiters := [{ client := 255 }] } up
       let f := yf (lpl 2 1 0)
       ok15 f 16 s = true ∧ zeroAt f.payload 1 1 = true ∧ u8 f.payload 0 = 2 ∧ (lease (at15 f s) 511).client ≠ some f.client
       ∧ (lease (at15 f s) 511).waiters.any (fun w => w.client == f.client) = true)
    ∧ ((lease { leased mine up with lt := 1 } 511).client = some 255 ∧ (lease { leased mine up with lt := 1 } 511).expiry ≤ 1)
    ∧ ((lease (leased { waiters := [{}] } up) 511).client = none ∧ (lease (leased { waiters := [{}] } up) 511).waiters = [{}])
    ∧ ((findCircle circle).bind (youngest circle) = some 511 ∧ (lease circle 511).client ≠ none) ∧ findCircle up = none := by decide +kernel
/-- A message of the master at port 15, and a time base that follows it. -/
def pm : PtpIn := { port := 15, clock := 7, seqId := 9 }
/-- The base. -/
def slave : TBase :=
  { state := .locked, source := 2, ports := 0x8000, slavePort := some 15, master := some { ann := { msg := pm } }, lastSync := some 0,
    twoStep := some (9, 0, 0), delayReq := some (9, 0), syncDiff := some 0, cfg := { cls := 255 } }
/-- Time base 3 in a state with port 15 UP. -/
def tb3 (b : TBase) : State := { ported with time := { up.time with tbs := [(3, b)], ports := [(15, { req := some (9, 0) })] } }
theorem witness_PtpMasterMessages :
    (let s := tb3 slave
     hearer s pm = some 3 ∧ fromMaster (tbase s 3) pm = true ∧ (tbase s 3).state ≠ .free ∧ ptpIgnored s true { pm with logInterval := -7 } = false
     ∧ pm.twoStep = false ∧ ptpIgnored s false pm = false ∧ (tbase s 3).twoStep = some (pm.seqId, 0, 0) ∧ (tbase s 3).delayReq = some (pm.seqId, 0)
     ∧ (tbase s 3).syncDiff = some 0 ∧ (tbase s 3).source = 2 ∧ pm.forUs = true ∧ (tbase s 3).partner = none ∧ (tbase s 3).cfg.cls = 255)
    ∧ (hearer (tb3 slave) { pm with twoStep := true } = some 3 ∧ fromMaster slave { pm with twoStep := true } = true)
    ∧ (let s := tb3 { slave with source := 4 }
       let m := { pm with gptp := true }
       hearer s m = some 3 ∧ fromMaster (tbase s 3) m = true ∧ ptpIgnored s false m = false ∧ (tbase s 3).source = 4) := by decide +kernel
theorem witness_PtpSendsAndEnds :
    (masterOn (tb3 { slave with state := .free, slavePort := none }) 3 15 = true)
    ∧ ((tbase (tb3 slave) 3).source = 2 ∧ (tbase (tb3 slave) 3).slavePort = some 15 ∧ (tbase (tb3 slave) 3).state = .locked ∧ (port (tb3 slave) 15).state = .up)
    ∧ (hearer (tb3 { slave with state := .free }) pm = some 3 ∧ ptpIgnored (tb3 { slave with state := .free }) false pm = false)
    ∧ (measuresNeighbour (tb3 { slave with source := 3 }) 15 = true ∧ ((tb3 slave).time.ports.get 15).req = some (pm.seqId, 0) ∧ pm.forUs = true ∧ pm.twoStep = false)
    ∧ ((tbase (tb3 { state := .disabling }) 3).state = .disabling ∧ (tbase (tb3 { state := .disabling }) 3).held = none)
    ∧ (let s := { tb3 slave with lt := 1250000000 }
       (tbase s 3).master.isSome = true ∧ (tbase s 3).lastSync = some 0 ∧ (tbase s 3).state = .locked ∧ (tbase s 3).partner = none
       ∧ 1250000000 ≤ (s.lt - 0) * 2 ^ (-(0 : Int)).toNat) := by decide +kernel
/-- Port 15 in a state. -/
def p15 (q : Port) (s : State := up) : State := { s with net := { s.net with ports := [(15, q)] } }
theorem witness_PortEventsComplete :
    (port (p15 { state := .training }) 15).state = .training ∧ (port ported 15).state = .up
    ∧ ((port (p15 { state := .downing }) 15).state = .downing ∧ (port (p15 { state := .downing }) 15).byPartner = false
      ∧ (port (p15 { state := .downing }) 15).enableHeld = false ∧ (port (p15 { state := .downing }) 15).restart = none)
    ∧ (port (p15 { state := .downing, byPartner := true, cfg := { mode := 1 } }) 15).cfg.mode ≠ 0
    ∧ (port (p15 { state := .downing, restart := some { mode := 0 } }) 15).restart.isSome = true
    ∧ (port (p15 { state := .downing, enableHeld := true }) 15).enableHeld = true
    ∧ (port ported 15).cfg.flags.getLsbD 3 = true ∧ (port ported 15).cfg.flags.getLsbD 4 = true := by decide +kernel
/-- A list of two entries of 500 ns, the second one opening gate 0. -/
def gl : GateList := { cycle := 1000, entries := [(0, 500), (1, 500)] }
/-- A frame on port 15. -/
def eth : EthIn := { port := 15, size := 1518 }
theorem witness_GateAndSwitchEvents :
    (let s : State := { p15 { gateNext := some (gl, 0) } with lt := 1000 }
     gateClock s gl.tb = true ∧ (port s 15).gateNext = some (gl, 0) ∧ (gl.base : Int) ≤ clockNow s gl.tb
     ∧ cyclePos gl (clockNow s gl.tb) < (gl.entries.getD 0 (0, 0)).2 ∧ 0 + 1000 + cyclePos gl (clockNow s gl.tb) ≤ s.lt)
    ∧ (let s : State := { p15 { gate := some gl } with lt := 1000 }
       gateClock s gl.tb = true ∧ (port s 15).gateNext = none ∧ (port s 15).gate = some gl ∧ (gl.base : Int) ≤ clockNow s gl.tb
       ∧ cyclePos gl (clockNow s gl.tb) < (gl.entries.getD 0 (0, 0)).2 ∧ cyclePos gl (clockNow s gl.tb) ≤ s.lt)
    ∧ (let s : State := { p15 { state := .up, preemptActive := true, gate := some gl, gatePos := some 0, cfg := { express := 1, hold := 500 } } with lt := 500 }
       gateClock s gl.tb = true ∧ (port s 15).gate = some gl ∧ (port s 15).gatePos = some 0 ∧ entryAt gl.entries (cyclePos gl (clockNow s gl.tb)) ≠ 0)
    ∧ (let s : State := p15 { state := .up, preemptActive := true, gate := some gl, gatePos := some 0, cfg := { express := 1, hold := 500 } }
       gateClock s gl.tb = true ∧ (port s 15).state = .up ∧ (port s 15).preemptActive = true ∧ (port s 15).holding = false
       ∧ ((gl.entries.take 1).map Prod.snd).foldl (· + ·) 0 ≤ cyclePos gl (clockNow s gl.tb) + (port s 15).cfg.hold
       ∧ ((gl.entries.getD (1 % gl.entries.length) (0, 0)).1 &&& ~~~(gatesNow (port s 15)) &&& (port s 15).cfg.express) ≠ 0)
    ∧ (switchOn ported = true ∧ (port ported eth.port.val).state = .up ∧ eth.fcsBad = false ∧ eth.size ≤ (port ported 15).cfg.mtu ∧ eth.toDevice = false
      ∧ (port ported 15).cfg.mtu < { eth with size := 1519 }.size ∧ filterOf ported eth (vidOf ported eth).toNat = none
      ∧ (qci eth (vidOf ported eth).toNat (countFec eth ported)).1 = some eth)
    ∧ (let s : State := { ported with net := { ported.net with filters := [(511, { ports := 0x8000, vlan := 1, pcp := 255, closed := true })] } }
       (qci eth (vidOf s eth).toNat (countFec eth s)).1 = none)
    ∧ (let s : State := { ported with net := { ported.net with recs := [(255, { id := ⟨0, 0, 1⟩, newest := some 7, seen := [7], history := 1, resetMs := 1 })] } }
       let e := { eth with toDevice := true, rtag := some 7 }
       (qci e (vidOf s e).toNat (countFec e s)).1 = some e ∧ (recover e (vidOf s e).toNat s).1 = false
       ∧ (recover { e with rtag := some 8 } (vidOf s e).toNat s).1 = true)
    ∧ ({ up.net with recs := [(255, {})] }.recs.get? 255).isSome = true ∧ (at_ .mainOn).pwr.stage = .mainOn ∧ (at_ .mainOn).net.store.ports = none := by decide +kernel
/-- Link 7 and problem 3 in a state. -/
def l7 (k : Link) : State := { up with links := [(7, k)] }
theorem witness_LinkAndTwinEvents :
    (mainOn (l7 { state := .training }) = true ∧ (link (l7 { state := .training }) 7).state = .training
      ∧ laneCount ((0xC : BitVec 4) &&& goodLanes (l7 { state := .training }) 7) = 2)
    ∧ ((link (l7 { state := .up, lanes := 0xF }) 7).state = .up ∧ (link (l7 { state := .up, lanes := 0xF }) 7).lanes.getLsbD 3 = true
      ∧ fenced (l7 { state := .up, lanes := 0xF }) 7 (4 * 7 + 3) = false)
    ∧ (link (l7 { state := .draining }) 7).state = .draining
    ∧ (full up = true ∧ (prob (wp { ep with twin := { state := .forming } }) 3).twin.state = .forming)
    ∧ (let s : State := { wp { ep with twin := { state := .paired, wait := 1000, own := [(0, 0, 0, 0)] }, steep := some { barrier := true } } with lt := 100000 }
       (prob s 3).twin.state = .paired ∧ (prob s 3).atBarrier = some { barrier := true } ∧ 0 + (prob s 3).twin.wait ≤ s.lt
       ∧ (prob s 3).twin.own.find? (fun x => x.1 == (1 : W64)) = none ∧ (prob s 3).twin.own = [(0, 0, 0, 0)] ∧ 0 + 100000 ≤ s.lt
       ∧ (prob s 3).twin.own.find? (fun x => x.1 == (0 : W64)) = some (0, 0, 0, 0)
       ∧ crossed (prob s 3) { steep := 1 } = some { barrier := true } ∧ crossed (prob s 3) { steep := 0 } = none)
    ∧ (let s : State := { wp { ep with twin := { state := .forming, wait := 1000 }, steep := some {}, after := [{ number := 1, barrier := true }] } with lt := 1000 }
       (prob s 3).twin.state ≠ .paired ∧ (prob s 3).atBarrier = some { number := 1, barrier := true } ∧ 0 + (prob s 3).twin.wait ≤ s.lt) := by decide +kernel
/-- An ENABLED PERIODIC problem of 20 µs on LT, with a set. -/
def per (q : Prob := ep) : Prob := { q with set := some 0, sched := { period := 20000, deadline := 5000, budget := 1000, iterTime := 100, limit := 1, clusters := 1 } }
theorem witness_ReleaseEventsComplete :
    ((prob (wp (per)) 3).steep = none ∧ dueInstant (wp (per)) (prob (wp (per)) 3) = some (0, 0))
    ∧ (let s := wp { per with steep := some { deadline := 0 } }
       dueInstant s (prob s 3) = some (0, 0) ∧ (prob s 3).steep = some { deadline := 0 } ∧ 0 ≤ s.lt)
    ∧ (let s := { wp { per with held := some { instant := 7 }, lastRelease := some 0 } with lt := 20000 }
       (prob s 3).held = some { instant := 7 } ∧ heldDue (prob s 3) s.lt = true ∧ (prob s 3).sched.policy ≠ 2)
    ∧ (let q : Prob := { per with held := some {} }
       let s := { wp { q with sched := { q.sched with policy := 2 } } with lt := 20000 }
       (prob s 3).held = some {} ∧ heldDue (prob s 3) s.lt = true ∧ (prob s 3).sched.policy = 2 ∧ (prob s 3).lastRelease = none)
    ∧ (let s := { wp (per) with lt := 18000 }
       (prob s 3).set = some 0 ∧ (prob s 3).st = .enabled ∧ (prob s 3).sched.requested = false ∧ (prob s 3).staging = false ∧ (prob s 3).prewarm = false
       ∧ 0 < (prob s 3).sched.period ∧ clockRuns s (prob s 3).sched.tb = true
       ∧ predictLt s (prob s 3).sched.tb (nextInstant s (prob s 3)) = s.lt + 2000) := by decide +kernel
/-- One stage whose node divides parameter 0 by itself, every trap enabled. -/
def imTrap : Image := { im0 with trapMask := 31, stages := [⟨0, true, 0, 1, noneRef⟩], nodes := [⟨0x14, 1, 0x20000000, 0x20000000, noneRef, 0, 0, 0⟩] }
/-- One free variable x with the cost -x². -/
def imBreak : Image := { im0 with
  stages := [⟨0, true, 0, 2, noneRef⟩], blocks := [⟨0, 1, true, 1, 0, noneRef, noneRef, 0⟩], pool := [0]
  nodes := [⟨3, 0, 0x10000000, noneRef, noneRef, 0, 0, 0⟩, ⟨0x12, 3, 0x10000000, 0, noneRef, 0, 0, 0⟩] }
/-- One free variable x with the cost -16 x². -/
def imSteepCurve : Image := { imBreak with
  stages := [⟨0, true, 0, 3, noneRef⟩]
  nodes := [⟨1, 0, noneRef, noneRef, noneRef, 0xC030000000000000, 0, 0⟩, ⟨0x12, 0, 0x10000000, 0, noneRef, 0, 0, 0⟩, ⟨0x12, 3, 0x10000000, 1, noneRef, 0, 0, 0⟩] }
/-- Problem 3 with a steep, at a time. -/
def st3 (t : Steep) (im : Image := im0) (lt : Nat := 0) : State := { wp { per with im := some im, steep := some t } with lt := lt }
theorem witness_SteepRowsComplete :
    (let t : Steep := { phase := .commit, commitEntries := 2, deadline := 6, budget := 6 }
     let s := st3 t im0 5
     (prob s 3).steep = some t ∧ (prob s 3).im = some im0 ∧ 5 * t.commitEntries = 2 * (s.lt - t.since) ∧ t.late = false ∧ s.lt < t.deadline ∧ t.spent s.lt < t.budget
     ∧ t.deadline ≤ 6 ∧ { t with late := true }.late = true ∧ { t with budget := 5 }.budget ≤ { t with budget := 5 }.spent s.lt)
    ∧ (let t : Steep := { phase := .running, deadline := 5, budget := 5 }
       let s := st3 t im0 5
       (prob s 3).steep = some t ∧ t.phase ≠ .commit ∧ t.deadline ≤ s.lt ∧ t.budget ≤ t.spent s.lt ∧ t.late = false)
    ∧ (let t : Steep := { phase := .running, iterating := true, evaluated := true, deadline := 1, budget := 1, params := List.replicate 8 0 }
       let s := st3 t im0 1
       { t with jduLeft := List.replicate 7 [] ++ [[1]] }.jduLeft.getD 7 [] ≠ [] ∧ (15, 3) ∈ { t with modelLeft := [(15, 3)] }.modelLeft
       ∧ t.modelWaits im0 15 = false ∧ t.inTime 1 = true ∧ t.sharesIn = true ∧ t.passes = [] ∧ (solveIn s 3 im0 t).runIter.1.isSome = true
       ∧ (solveIn s 3 im0 t).runIter.2.traps = []
       ∧ (let t := { t with lc := { t.lc with primal := [0] } }
          (solveIn (st3 t imBreak 1) 3 imBreak t).runIter.2.traps = [] ∧ 3 < (solveIn (st3 t imBreak 1) 3 imBreak t).runIter.2.breaks ∧ 3 < 4)) := by
  decide +kernel
/-- A trap at the graph's division 0/0, in the first evaluation and in an iteration. -/
theorem witness_SteepRowsComplete_trap :
    (let t : Steep := { phase := .running, iterating := true, deadline := 1, budget := 1, params := List.replicate 8 0 }
     t.inTime 1 = true ∧ (solveIn (st3 t imTrap 1) 3 imTrap t).runFirst.2.traps ≠ [])
    ∧ (let t : Steep := { phase := .running, iterating := true, evaluated := true, deadline := 1, budget := 1, params := List.replicate 8 0 }
       t.inTime 1 = true ∧ (solveIn (st3 t imTrap 1) 3 imTrap t).runIter.2.traps ≠ []) := by decide +kernel
/-- A fifth breakdown: a cost whose curvature no correction of four makes positive. -/
theorem witness_SteepRowsComplete_numeric :
    (let t : Steep := { phase := .running, iterating := true, evaluated := true, deadline := 1, budget := 1, params := List.replicate 8 0, lc := { primal := [0] }
                        breakdowns := 4 }
     (solveIn (st3 t imSteepCurve 1) 3 imSteepCurve t).runIter.2.traps = [] ∧ t.breakdowns < (solveIn (st3 t imSteepCurve 1) 3 imSteepCurve t).runIter.2.breaks) := by
  decide +kernel
theorem witness_SchedulerEventsComplete :
    (let s := wp { ep with im := some im3, est := { updating := [{}] } }
     (prob s 3).im = some im3 ∧ (prob s 3).est.updating = [{}])
    ∧ (let s := wp { lp with st := .retiring }
       (prob s 3).st = .retiring ∧ (prob s 3).steep = none ∧ (prob s 3).after = [] ∧ (prob s 3).est.updating = [])
    ∧ (let s := fun len : W32 => running 0x030D .checkpoint (wp { ep with ckpt := some { captured := some [1] } }) (pd3 len)
       (prob (s 1) 3).ckpt = some { captured := some [1] } ∧ (runsOf (s 1) .checkpoint 3).map (fun r => r.cmd.c.length.toNat) = [1]
       ∧ (runsOf (s 0) .checkpoint 3).map (fun r => r.cmd.c.length.toNat) = [0]
       ∧ runsOf (wp { ep with ckpt := some { captured := some [1] } }) .checkpoint 3 = [])
    ∧ (let s := { running 0x0306 .jduQuery up with query := some [1] }
       s.query = some [1] ∧ (s.mbx.running.find? (fun x => x.await == .jduQuery)).isSome = true)
    ∧ (let s := { up with sets := [(63, { quads := [3], toStage := [3] })] }
       63 < 64 ∧ (rset s 63).running = none ∧ (3 : Fin 4).val ∈ (rset s 63).toStage)
    ∧ (let s := { wp { per with level := 1, levelAt := some 0 } with lt := 10000000, sets := [(0, { clusters := [0] })] }
       lowerNext s 0 = some 3 ∧ levelsRest s 0 = true ∧ lowerPasses s 0 (fun q => (prob s q).level - (if q = 3 then 1 else 0)) = true)
    ∧ (let s := { up with lt := 1007, mbx := { up.mbx with shedChanged := true, shedInterval := 1, shedStart := 7 } }
       ready s = true ∧ s.mbx.shedChanged = true ∧ s.mbx.shedInterval ≠ 0 ∧ s.mbx.shedStart + 1000 * s.mbx.shedInterval.toNat = s.lt)
    ∧ (127 : Fin 128).val < 128 := by decide +kernel
theorem witness_TrainingEventsComplete :
    (let s : State := { wp { ep with final := some (99, 0) } with jobs := [{ problem := 3, model := 15 }] }
     jobOf s 3 15 = some { problem := 3, model := 15 } ∧ (prob s 3).final = some (99, 0) ∧ cutoff { problem := 3, model := 15 } 1 = (99 : W64).toNat + 1)
    ∧ (let j : Job := { problem := 3, model := 0, state := .training, stepsDone := some 0 }
       let s : State := { jobbed with jobs := [j] }
       jobOf s 3 0 = some j ∧ (prob s 3).im = some imM ∧ (imM.findModel 0).isSome = true ∧ j.stepsDone = some 0 ∧ 0 < j.cfg.steps
       ∧ { j with state := .validating }.state = .validating ∧ j.val = [] ∧ { j with val := [{}] }.val ≠ []
       ∧ { j with stopping := true }.stopping = true ∧ j.held = none ∧ { j with held := some ({}, 0) }.held = some ({}, 0)) := by decide +kernel
/-- Loop 31 in a state of the edge die. -/
def lo (l : Loop) : State := { up with edge := { up.edge with loops := [(31, l)] } }
/-- Loop 31 with a state, its configuration legal. -/
def legal (l : Loop) : State := lo { l with force := [0x00200C00, 1000, 0] }
theorem witness_LoopRowsComplete :
    (ready up = true ∧ up.edge.on = true)
    ∧ (startBad goodLoop.edge 31 (takenLoops goodLoop.edge) = false ∧ (loopN goodLoop.edge 31).busy = false)
    ∧ (let s := legal { state := .stopping }
       startBad s.edge 31 (takenLoops s.edge) = false ∧ (loopN s.edge 31).state = .stopping)
    ∧ (let s := legal { state := .running }
       startBad s.edge 31 (takenLoops s.edge) = false ∧ (loopN s.edge 31).state = .running)
    ∧ (let s := legal { starting := some 0 }
       startBad s.edge 31 (takenLoops s.edge) = false ∧ (loopN s.edge 31).state = .stopped ∧ (loopN s.edge 31).busy = true)
    ∧ startBad badLoop.edge 31 (takenLoops badLoop.edge) = true
    ∧ (∀ k ∈ bitsOf ((up.edge.sels.get 7).members ||| 0xFFFFFFFF#32).toNat 32, (loopN up.edge k).state = .stopped)
    ∧ (let e := { (lo { state := .running }).edge with sels := [(7, { members := 0x80000000 })] }
       ∃ k ∈ bitsOf ((e.sels.get 7).members ||| 0).toNat 32, (loopN e k).state ≠ .stopped) := by decide +kernel
theorem witness_LoopEventsComplete :
    (let s := lo { force := [0, 1000, 0] }
     s.edge.on = true ∧ onGrid (loopN s.edge 31) s.edge.tick = true ∧ (loopN s.edge 31).last ≠ some s.edge.tick)
    ∧ (let o : OutDue := ⟨31, 0, 1, 7, 5, 0x80000000, false⟩
       let e : Edge := { up.edge with tick := 800, outs := [o], binds := [(3, { pours := [[(63, 1)]] })] }
       e.on = true ∧ e.outs = [o] ∧ o.tick + 800 = e.tick ∧ o.members.getLsbD 31 = true ∧ o.dest = 1 ∧ { o with dest := 2 }.dest = 2
       ∧ o.members.getLsbD 30 = false ∧ (e.binds.get? 3).map Binding.pours = some [[(63, 1)]])
    ∧ (at_ .edge).pwr.stage = .edge := by decide +kernel
theorem witness_FieldChannelsComplete :
    up.edge.on = true ∧ ready up = true ∧ loopDriven up.edge 1 7 = false ∧ loopDriven up.edge 2 7 = false
    ∧ (let e : Edge := { up.edge with ains := [(7, { live := 0xF, seen := 0xF })], aouts := [(7, { live := 1 })], douts := [(7, { latchAct := true, pwm := true, shortOff := some 0 })], tick := 20000000 }
       (e.ains.get 7).live.getLsbD 2 = true ∧ (e.ains.get 7).seen.getLsbD 1 = true ∧ (e.aouts.get 7).live.getLsbD 2 = false ∧ (e.douts.get 7).latchAct = true
       ∧ (e.douts.get 7).shortOff = some 0 ∧ 0 + 20000000 = e.tick ∧ (e.douts.get 7).pwm = true)
    ∧ (Aout.live { live := 4 }).getLsbD 2 = true
    ∧ loopDriven { up.edge with outs := [⟨31, 0, 1, 7, 5, 0x80000000, false⟩] } 1 7 = true
    ∧ loopDriven { up.edge with outs := [⟨31, 0, 2, 7, 5, 0x80000000, false⟩] } 2 7 = true := by decide +kernel
theorem witness_BootAndPowerEvents :
    (State.reset.pwr.power = .unpowered ∧ State.reset.edge.on = false)
    ∧ (let s : State := { up with pwr := { up.pwr with power := .unpowered, stage := .down } }
       s.pwr.power = .unpowered ∧ s.edge.on = true)
    ∧ (at_ .good).pwr.stage = .good ∧ (at_ .warden).pwr.stage = .warden
    ∧ ((at_ .profile).pwr.stage = .profile ∧ (at_ .profile).faults.restart = false ∧ (at_ .profile).pwr.power ≠ .unpowered ∧ (at_ .profile).pwr.entering = none
      ∧ (at_ .profile).faults.mainDead = false)
    ∧ ((at_ .switchOn).pwr.stage = .switchOn ∧ ((4, 0) : Nat × Nat) ∉ [(4, 15), (0, 63)] ∧ ((4, 0) : Nat × Nat) ∈ [(4, 0)])
    ∧ ((at_ .tested).pwr.stage = .tested ∧ bankOk (at_ .tested).pwr.nv (at_ .tested).pwr.bank = true)
    ∧ ((at_ .hbm).pwr.stage = .hbm ∧ fromSleep (at_ .hbm) = false)
    ∧ (let s := { at_ .ready with pwr := { (at_ .ready).pwr with since := 1000000000 } }
       s.pwr.stage = .ready ∧ 1000000000 = s.pwr.since ∧ s.faults.recovery = false)
    ∧ (let s := { at_ .ready with faults := { up.faults with recovery := true } }
       s.pwr.stage = .ready ∧ s.faults.recovery = true) := by decide +kernel
theorem witness_PowerAndStoreEvents :
    (let s := { at_ .hbm with pwr := { (at_ .hbm).pwr with since := 300000000 } }
     mainOn s = true ∧ ready s = false ∧ fromSleep s = false ∧ s.faults.recovery = false ∧ s.pwr.fallback = false ∧ 300000000 = s.pwr.since
     ∧ bankOk s.pwr.nv (1 - s.pwr.bank) = true ∧ bankOk { s.pwr.nv with banks := [] } (1 - s.pwr.bank) = false)
    ∧ (let s := { at_ .hbm with pwr := { (at_ .hbm).pwr with since := 700000000, fallback := true } }
       mainOn s = true ∧ ready s = false ∧ fromSleep s = false ∧ s.faults.recovery = false ∧ s.pwr.fallback = true ∧ 700000000 = s.pwr.since)
    ∧ { up.pwr with ref25 := true }.ref25 = true ∧ mainOn up = true ∧ mainOn (at_ .down) = false ∧ up.pwr.power ≠ .unpowered
    ∧ (let s : State := { up with pwr := { up.pwr with power := .unpowered, stage := .down } }
       s.pwr.power = .unpowered ∧ s.edge.on = true)
    ∧ { up.pwr.nv with pendingWrites := [(4, 0, [1, 0])] }.pendingWrites ≠ [] ∧ { up.pwr with staging := some (1, []) }.staging = some (1, []) := by decide +kernel
theorem witness_DomainAndRestEvents :
    (let s : State := { up with lt := 1000000, pwr := { up.pwr with cap := 60, pds := [(57, { waking := true }), (56, { state := .on }), (3, { state := .goingOff })] } }
     mainOn s = true ∧ (pd s 57).waking = true
     ∧ (pdClass 56 = some 3 ∧ pdWorks s 56 = false ∧ (pd s 56).waking = false ∧ (pd s 56).state = .on ∧ (s.pwr.kettle.get 3).policy = 0
       ∧ (pd s 56).lastUse + (s.pwr.kettle.get 3).holdUs * 1000 = s.lt ∧ predictedSoon s 56 ((s.pwr.kettle.get 3).holdUs * 1000) = false)
     ∧ (pd s 3).state = .goingOff ∧ limitMw s < 60001 ∧ nextStep s = some (1, 0) ∧ rateOk s.pwr.govAt s.lt 100000 = true
     ∧ 57000 ≤ limitMw s ∧ 95 * limitMw s ≤ 100 * 57000 ∧ 100 * 56999 < 95 * limitMw s ∧ rateOk s.pwr.govAt s.lt 1000000 = true
     ∧ { s.pwr with gov := [(1, 0)] }.gov = [(1, 0)] ∧ rateOk s.pwr.thermalAt s.lt 1000000 = true)
    ∧ (let s : State := { up with lt := 10000000, pwr := { up.pwr with throttling := true, thermalAt := some 0 } }
       mainOn s = true ∧ s.pwr.throttling = true ∧ rateOk s.pwr.thermalAt s.lt 10000000 = true ∧ (92 : Int) ≤ 92) := by decide +kernel
theorem witness_RestAndWakeEvents :
    (let s : State := { up with pwr := { up.pwr with entering := some 2 } }
     s.pwr.entering = some 2 ∧ mainOn s = true ∧ restDone s = true ∧ s.pwr.heldWake = none)
    ∧ (let s : State := { up with pwr := { up.pwr with entering := some 4 } }
       s.pwr.entering = some 4 ∧ mainOn s = true ∧ restDone s = true ∧ (∀ n ∈ List.range 32, (loopN s.edge n).state = .stopped ∧ (loopN s.edge n).starting = none)
       ∧ s.pwr.heldWake = none)
    ∧ (let s : State := { lo { state := .running } with pwr := { up.pwr with entering := some 4 } }
       s.pwr.entering = some 4 ∧ mainOn s = true ∧ restDone s = true ∧ 31 < 32 ∧ (loopN s.edge 31).state = .running)
    ∧ (let s : State := { at_ .down with pwr := { (at_ .down).pwr with entering := some 4 } }
       s.pwr.entering = some 4 ∧ mainOn s = false ∧ (∀ n ∈ List.range 32, (loopN s.edge n).state = .stopped) ∧ s.pwr.heldWake = none)
    ∧ (let s : State := { at_ .down with pwr := { (at_ .down).pwr with power := .sleep, wakeMask := 4 } }
       wakeEnabled s .fieldIo = true ∧ s.pwr.entering = none ∧ s.pwr.power = .sleep)
    ∧ (let s : State := { at_ .down with pwr := { (at_ .down).pwr with power := .off, wakeMask := 0xFFFF } }
       wakeEnabled s .wakeIn = true ∧ s.pwr.entering = none ∧ s.pwr.power = .off)
    ∧ (let s : State := { up with pwr := { up.pwr with entering := some 2, wakeMask := 0xFFFF } }
       wakeEnabled s .wakeIn = true ∧ s.pwr.entering ≠ none)
    ∧ (let s : State := { at_ .hbm with pwr := { (at_ .hbm).pwr with waking := some (.wakeIn, false) } }
       s.pwr.stage = .hbm ∧ fromSleep s = true)
    ∧ (up.faults.limp = none ∧ coolantCause (takeCoolant { flow := 1200, inlet := 65, junction := 104 } up).faults 104 = none)
    ∧ (let s : State := { up with faults := { up.faults with limp := some 0 } }
       s.faults.limp ≠ none ∧ s.pwr.power ≠ .limp ∧ s.probs.any (fun e => e.2.st == .retiring) = false) := by decide +kernel
theorem witness_FaultEventsComplete :
    (mainOn up = true ∧ unitExists 4 15 = true ∧ fenced up 4 15 = false ∧ unitExists 4 0 = true ∧ fenced up 4 0 = false)
    ∧ (unitExists 3 3 = true ∧ fenced up 3 3 = false ∧ workOn up 3 3 = none ∧ workOn up 2 7 = none ∧ up.jobs = [])
    ∧ (let s : State := { wp { per with steep := some { phase := .running } } with sets := [(0, { clusters := [63], running := some 3 })] }
       workOn s 0 63 = some 3 ∧ (prob s 3).steep = some { phase := .running } ∧ unitExists 0 63 = true ∧ fenced s 0 63 = false)
    ∧ (unitExists 5 3 = true ∧ fenced up 5 3 = false ∧ unitExists 6 0 = true ∧ fenced up 6 0 = false ∧ unitExists 7 31 = true ∧ fenced up 7 31 = false
      ∧ 31 = 4 * (7 : Fin 8).val + (3 : Fin 4).val)
    ∧ (unit { up with faults := { up.faults with units := [(unitKey 3 3, { unresolved := true })] } } 3 3).unresolved = true ∧ (15 : Fin 16) ≠ 0 ∧ ready up = true
    ∧ (let s := running 0x0801 .selfTest up (nd 0)
       (s.mbx.running.find? (fun x => x.await == .selfTest)).map (fun r => r.cmd.op) = some 0x0801)
    ∧ (let s := running 0x0803 .selfTest up (nd 0)
       (s.mbx.running.find? (fun x => x.await == .selfTest)).map (fun r => r.cmd.op) = some 0x0803) := by decide +kernel
theorem witness_ArbiterAndDebugEvents :
    (let s : State := { l7 { state := .up } with arbs := [(201, { irqEn := false })] }
     resourceOn s 201 = true ∧ emergency s 201 = false ∧ vc2First s 201 = false ∧ (arb s 201).irqEn = false)
    ∧ (let s : State := { up with arbs := [(127, { irqEn := true })] }
       let r := (Arb.arrive [(7, 3)] (arb s 127)).cycle false
       resourceOn s 127 = true ∧ emergency s 127 = false ∧ vc2First s 127 = false ∧ (arb s 127).irqEn = true ∧ r.2 = [])
    ∧ (let s : State := { up with arbs := [(127, { emergencyAt := some 0 })], lt := 3900 }
       resourceOn s 127 = true ∧ hasEmergency s 127 = true ∧ gapOver s 127 (gapOf 127) = true ∧ gapOver s 127 3900 = true
       ∧ (127 : Fin 202).val = 32 * 3 + 2 * 15 + 1 ∧ gapOver { s with lt := 1950 } 127 1950 = true)
    ∧ up.pwr.power ≠ .unpowered ∧ { up.pwr with challenge := some [] }.challenge ≠ none
    ∧ (let s : State := { up with pwr := { up.pwr with lockout := true, lockoutAt := 7, since := 60000000007 } }
       s.pwr.lockout = true ∧ s.pwr.lockoutAt + 60000000000 = s.pwr.since)
    ∧ (JtagIr.extest ≠ .relock ∧ mainOn up = true ∧ tapRefuses up.edge .extest = false ∧ tapRefuses (lo { state := .running }).edge .extest = true)
    ∧ { up.pwr with unlocked := true }.unlocked = true ∧ [true] ≠ [] := by decide +kernel
/-- Problems 3 and 4 with steeps of one deadline and priority. -/
def two : State := { up with probs := [(3, { per with steep := some {} }), (4, { per with steep := some {} }), (5, { per with steep := some { deadline := 1 } })] }
theorem witness_SteepOrderTotal : (prob two 3).steep = some {} ∧ (prob two 4).steep = some {} ∧ precedes two 3 4 = true ∧ precedes two 4 5 = true
    ∧ (∀ q ∈ [5, 4, 3], (prob two q).steep ≠ none) ∧ firstOf two [5, 4, 3] = some 3 := by decide +kernel
theorem witness_SolveRefused :
    ((prob (wp lp) 3).st ≠ .enabled ∧ Runs (pd3 0) (wp lp) = true ∧ Named (pd3 0) = true)
    ∧ ((prob (wp ep) 3).st = .enabled ∧ (prob (wp ep) 3).staging = false ∧ (prob (wp ep) 3).sched.requested = false ∧ Runs (pd3 0) (wp ep) = true)
    ∧ (let s := leased mine (wp lp)
       let f := yf slv
       let v := at15 f s
       u16 f.payload 0 = 3 ∧ ok15 f 16 s = true ∧ f.flags = 0 ∧ zeroAt slv 2 2 = true ∧ zeroAt slv 6 2 = true ∧ zeroAt slv 12 4 = true
       ∧ leaseValid v (u16 slv 4) f.client (BitVec.ofNat 32 (u32 slv 8)) 3 = true ∧ (prob v 3).st ≠ .enabled)
    ∧ (let s := leased mine (wp ep)
       let v := at15 (yf slv) s
       ok15 (yf slv) 16 s = true ∧ leaseValid v (u16 slv 4) 255 (BitVec.ofNat 32 (u32 slv 8)) 3 = true
       ∧ (prob v 3).st = .enabled ∧ (prob v 3).staging = false ∧ (prob v 3).sched.requested = false) := by decide +kernel
theorem witness_TapRefusal :
    (31 < 32 ∧ (loopN (lo { state := .running }).edge 31).state = .running) ∧ (7 < 8 ∧ loopDriven { up.edge with outs := [⟨31, 0, 2, 7, 5, 0x80000000, false⟩] } 2 7 = true)
    ∧ (∀ n ∈ List.range 32, (loopN up.edge n).state ≠ .running) ∧ (∀ i ∈ List.range 8, loopDriven up.edge 1 i = false ∧ loopDriven up.edge 2 i = false) := by decide +kernel
/-- A log with one entry of 48 DATA bytes at its end. -/
def logged : State := { up with log := { up.log with entries := [(4095, { lt := 0x0102030405060708, seq := 9, code := 0xABCD, arg := 7, data := List.replicate 47 0 ++ [0xEE] })] } }
theorem witness_LogEntryLayout : 4095 < 4096 ∧ (logged.log.entries.get 4095).data.length = 48 := by decide +kernel
/-- The log window's last entry reads as R523 lays it out. -/
theorem test_log_entry : (readReg .direct (0x60000 + 64 * 4095) logged).1 = 0x05060708 ∧ (readReg .direct (0x60000 + 64 * 4095 + 12) logged).1 = 0x0007ABCD
    ∧ (readReg .direct (0x60000 + 64 * 4095 + 60) logged).1 = 0xEE000000 := by decide +kernel
theorem witness_PourFlagsLegal : ({} : Prob).resume.warm = none ∧ ({} : Steep).warmMapped = false ∧ ({} : Steep).warmCold = false := by decide +kernel

/-! The witness of CHECKPOINT_RESUME: its record holds PLAN_VERSION, a free value, so its CHECK is proved and not computed. -/

/-- Little-endian bytes read back. -/
theorem leNat_leBytes (k n : Nat) (h : n < 256 ^ k) : leNat (leBytes k n) = n := by
  induction k generalizing n with
  | zero => simp only [Nat.pow_zero] at h; simp only [leBytes, leNat]; omega
  | succ k ih =>
    rw [Nat.pow_succ] at h
    have h2 := ih (n / 256) (by omega)
    simp only [leBytes, leNat, h2, BitVec.toNat_ofNat]
    omega
/-- A little-endian field between two parts reads back. -/
theorem field_put (a b : List Byte) (k n x : Nat) (ha : a.length = n) (hx : x < 256 ^ k) (hk : (leBytes k x).length = k) :
    fieldN (a ++ (leBytes k x ++ b)) n k = x := by
  subst ha
  rw [fieldN, List.drop_left, List.take_left' hk, leNat_leBytes k x hx]
/-- A checkpoint of a problem without parameters and variables: the bytes before PLAN_VERSION, those after it, and the warm-start section. -/
def ck0 : List Byte := leBytes 4 0x43584459 ++ leBytes 2 1 ++ leBytes 2 0x80 ++ leBytes 4 192 ++ leBytes 2 3 ++ [0, 1] ++ zeros 24
/-- From PARAM_COUNT to CHECK. -/
def ck1 : List Byte := zeros 8 ++ leBytes 4 128 ++ leBytes 4 64 ++ zeros 52
/-- The header before CHECK. -/
def ckHead : List Byte := ck0 ++ (leBytes 4 Config.planVersion.toNat ++ ck1)
/-- Its FNV-1a. -/
def ckSum : W64 := fnv (fnv fnvBasis ckHead) (zeros 64)
/-- The record. -/
def ckRec : List Byte := ckHead ++ (leBytes 8 ckSum.toNat ++ (zeros 8 ++ zeros 64))
/-- The image and state it fits. -/
def ckIm : Image := { nParams := 0 }
/-- The state. -/
def ckSt : State := wr ckRec (wp { lp with im := some ckIm, params := [] })
/-- The descriptor. -/
def ckCmd : CmdIn := pd3 192 (sb 0 20000)
theorem ck_rec : recOf ckCmd ckSt = ckRec := recOf_wr _ _ _ (by decide +kernel) (by decide +kernel) rfl
theorem ck_check : w64At ckRec 0x70 = fnv (fnv fnvBasis (ckRec.take 0x70)) (ckRec.drop 0x80) := by
  have h : u64 ckRec 0x70 = ckSum.toNat :=
    field_put ckHead (zeros 8 ++ zeros 64) 8 0x70 ckSum.toNat (by decide +kernel) (Nat.lt_of_lt_of_le ckSum.isLt (by decide)) (by decide +kernel)
  have ht : ckRec.take 0x70 = ckHead := rfl
  have hd : ckRec.drop 0x80 = zeros 64 := rfl
  rw [w64At, h, ht, hd, BitVec.ofNat_toNat, BitVec.setWidth_eq]
  rfl
theorem ck_plan : u32 ckRec 0x28 = Config.planVersion.toNat := by
  have e : ckRec = ck0 ++ (leBytes 4 Config.planVersion.toNat ++ (ck1 ++ (leBytes 8 ckSum.toNat ++ (zeros 8 ++ zeros 64)))) := by
    simp only [ckRec, ckHead, List.append_assoc]
  rw [e]
  exact field_put ck0 _ 4 0x28 _ (by decide +kernel) (Nat.lt_of_lt_of_le Config.planVersion.isLt (by decide)) (by decide +kernel)
theorem witness_OrderAndCheckpointCommands_resume :
    (Runs ckCmd ckSt = true ∧ Named ckCmd = true ∧ (prob ckSt 3).im = some ckIm ∧ addrBad { c := ckCmd } ckCmd.addr ckCmd.length.toNat = false
      ∧ (prob ckSt 3).st = .loaded ∧ ckCmd.length.toNat = u32 ckRec 8 ∧ ckptSizesBad ckIm ckRec = false ∧ schedBad (argBytes ckCmd) = false
      ∧ schedImageBad (prob ckSt 3) (parseSched (argBytes ckCmd)) = false)
    ∧ recOf ckCmd ckSt = ckRec ∧ ckptFormatBad ckRec = false ∧ ckptMismatch (prob ckSt 3) ckIm (parseSched (argBytes ckCmd)) ckRec = false := by
  refine ⟨by decide +kernel, ck_rec, ?_, ?_⟩
  · have h : (decide (u32 ckRec 0 ≠ 0x43584459 ∨ u16 ckRec 4 ≠ 1 ∨ u16 ckRec 6 ≠ 0x80 ∨ 3 < u8 ckRec 0xE) || !zeroAt ckRec 0x60 16 || !zeroAt ckRec 0x78 8) = false := by
      decide +kernel
    have hl : ckptLayout ckRec = true := by decide +kernel
    have hw : ckptWarmBad ckRec = false := by decide +kernel
    have hc : ¬u32 ckRec 84 = 0 → u32 ckRec (u32 ckRec 80 + 4) = 0 := by decide +kernel
    rw [ckptFormatBad, h, ck_check, hl]
    simp [hw]
    exact hc
  · have h : (w64At ckRec 0x20 != ckIm.contentSig || w64At ckRec 0x18 != ckIm.structSig) = false := by decide +kernel
    have h2 : (u32 ckRec 0x2C != ckIm.nParams) = false := by decide +kernel
    have h3 : ((u8 ckRec 0xE).testBit 0 != (prob ckSt 3).fixed) = false := by decide +kernel
    have h4 : ((u8 ckRec 0xE).testBit 0 && byClusters ckIm && u8 ckRec 0xF != (parseSched (argBytes ckCmd)).clusters) = false := by decide +kernel
    rw [ckptMismatch, h, h2, h3, h4, ck_plan]
    simp

end Sys2Proof.Tests
end

namespace Sys2Proof.Machine

/-! PORT_SET (R17, R334): its checks, the taken configuration, and what the lane bound says of the 400 Gb/s ports. -/

/-- Waiting for ports changes no state: it only decides how the command is answered (R334, R335). -/
@[simp] theorem afterPorts_fst (mask : Nat) (s : State) : (afterPorts mask s).1 = s := by
  unfold afterPorts
  split <;> rfl

/-- The configuration that a PORT_SET record brings about in a state: the addresses, the 16 entries, and the stored copy (R334, R336). -/
def portSetTaken (bs : List Byte) (s : State) : State :=
  let t := forAll ((portEntries bs).map parsePort).zipIdx (fun e t => applyEntry e.2 e.1 t) (modNet (fun n => { n with cfg := parseNet bs }) s)
  if (byteAt bs 30).getLsbD 0 then storeLater 5 0 bs t else t

/-- PORT_SET with a usable descriptor and record turns on its own two checks, in their order (R334, R524). -/
theorem effPortSet_eq (c : CmdIn) (s : State) (h : Runs c s = true) (hn : NoProb c = true) (hi : InOk c 576 = true) :
    effPortSet (cmdOf 0x0510 c s) (taken c s) =
      checked [(portSetBad (recOf c s), stPortRange), (lanesBad ((portEntries (recOf c s)).map parsePort), stPortLanes)] (taken c s)
        (afterPorts (changedPorts ((portEntries (recOf c s)).map parsePort) s) (portSetTaken (recOf c s) (taken c s))) := by
  have hrec : inRec (taken c s) (cmdOf 0x0510 c s) = recOf c s := rfl
  have hchanged (cs : List PortCfg) : changedPorts cs (taken c s) = changedPorts cs s := rfl
  have hown : ∀ q, (none : Option Nat) = some q → q = c.p := fun _ hq => nomatch hq
  simp only [effPortSet, hrec, hchanged, checked, List.append_assoc, desc_noProb _ c s h hn, inChecks_ok _ c s none 576 hi hown]
  rfl

/-- R334: a PORT_SET with a field out of range is refused as a whole. -/
theorem exec_portSet_range (c : CmdIn) (s : State) (h : Runs c s = true) (hn : NoProb c = true) (hi : InOk c 576 = true)
    (hbad : portSetBad (recOf c s) = true) : exec (.portSet c) s = ends 0x0510 c s stPortRange [] (taken c s) := by
  refine submit_ends _ effPortSet c s _ _ _ h ?_
  rw [effPortSet_eq c s h hn hi, checked_fail _ _ _ stPortRange (by simp [hbad])]

/-- R17: a PORT_SET whose modes do not fit the lanes is refused as a whole. -/
theorem exec_portSet_lanes (c : CmdIn) (s : State) (h : Runs c s = true) (hn : NoProb c = true) (hi : InOk c 576 = true)
    (hok : portSetBad (recOf c s) = false) (hbad : lanesBad ((portEntries (recOf c s)).map parsePort) = true) :
    exec (.portSet c) s = ends 0x0510 c s stPortLanes [] (taken c s) := by
  refine submit_ends _ effPortSet c s _ _ _ h ?_
  rw [effPortSet_eq c s h hn hi, checked_fail _ _ _ stPortLanes (by simp [hok, hbad])]

/-- A PORT_SET that passes both checks takes the whole record and then waits as `afterPorts` says. -/
theorem effPortSet_taken (c : CmdIn) (s : State) (h : Runs c s = true) (hn : NoProb c = true) (hi : InOk c 576 = true)
    (hok : portSetBad (recOf c s) = false) (hlanes : lanesBad ((portEntries (recOf c s)).map parsePort) = false) :
    effPortSet (cmdOf 0x0510 c s) (taken c s)
      = afterPorts (changedPorts ((portEntries (recOf c s)).map parsePort) s) (portSetTaken (recOf c s) (taken c s)) := by
  rw [effPortSet_eq c s h hn hi, checked_pass _ _ _ (by simp [hok, hlanes])]

/-- A configuration whose modes together need more than 32 lanes does not fit (R17). -/
theorem lanesBad_of_sum (cs : List PortCfg) (h : 32 < (cs.map (fun x => modeLanes x.mode)).foldl (· + ·) 0) : lanesBad cs = true := by
  simp [lanesBad, h]

/-- A configuration that fits needs at most 32 lanes (R17). -/
theorem sum_modeLanes_le (cs : List PortCfg) (h : lanesBad cs = false) : (cs.map (fun x => modeLanes x.mode)).sum ≤ 32 := by
  rw [List.sum_eq_foldl]
  refine Nat.not_lt.mp fun hlt => ?_
  rw [lanesBad_of_sum cs hlt] at h
  exact Bool.noConfusion h

/-- Every port at 400 Gb/s takes four of the lanes (Table 15-1). -/
theorem four_mul_count400_le (cs : List PortCfg) :
    4 * (cs.filter (fun x => x.mode == 8)).length ≤ (cs.map (fun x => modeLanes x.mode)).sum := by
  induction cs with
  | nil => simp
  | cons x cs ih =>
    by_cases hx : x.mode = 8
    · have h4 : modeLanes 8 = 4 := rfl
      simp only [List.filter_cons, List.map_cons, List.sum_cons, List.length_cons, hx, h4, beq_self_eq_true, if_true]
      omega
    · simp only [List.filter_cons, List.map_cons, List.sum_cons, beq_iff_eq, hx, if_false]
      omega

/-- At most eight ports of a configuration that fits run at 400 Gb/s (R17). -/
theorem count400_le_eight (cs : List PortCfg) (h : lanesBad cs = false) : (cs.filter (fun x => x.mode == 8)).length ≤ 8 := by
  have h4 := four_mul_count400_le cs
  have h32 := sum_modeLanes_le cs h
  omega

/-- A PORT_SET that is taken and need not wait completes (R334). -/
theorem exec_portSet_done (c : CmdIn) (s : State) (st : Status) (res : List Byte) (h : Runs c s = true) (hn : NoProb c = true)
    (hi : InOk c 576 = true) (hok : portSetBad (recOf c s) = false) (hlanes : lanesBad ((portEntries (recOf c s)).map parsePort) = false)
    (hr : (afterPorts (changedPorts ((portEntries (recOf c s)).map parsePort) s) (portSetTaken (recOf c s) (taken c s))).2 = .done st res) :
    exec (.portSet c) s = ends 0x0510 c s st res (portSetTaken (recOf c s) (taken c s)) :=
  submit_ends _ effPortSet c s _ st res h ((effPortSet_taken c s h hn hi hok hlanes).trans (Prod.ext (afterPorts_fst ..) hr))

/-- A PORT_SET that is taken stays in flight while a port with a changed entry shuts down (R334). -/
theorem exec_portSet_held (c : CmdIn) (s : State) (a : Await) (k : Bool) (h : Runs c s = true) (hn : NoProb c = true)
    (hi : InOk c 576 = true) (hok : portSetBad (recOf c s) = false) (hlanes : lanesBad ((portEntries (recOf c s)).map parsePort) = false)
    (hr : (afterPorts (changedPorts ((portEntries (recOf c s)).map parsePort) s) (portSetTaken (recOf c s) (taken c s))).2 = .held a k) :
    exec (.portSet c) s = begins 0x0510 c s a k (portSetTaken (recOf c s) (taken c s)) :=
  submit_begins _ effPortSet c s _ a k h ((effPortSet_taken c s h hn hi hok hlanes).trans (Prod.ext (afterPorts_fst ..) hr))

/-- Settles O24: the record's two checks decide between refusal and the taken configuration, and the shut-downs it begins
decide whether the command completes at once. -/
theorem portSetWhole : Obligations.PortSetWhole := by
  unfold Obligations.PortSetWhole
  intro c s h hn hi
  refine ⟨exec_portSet_range c s h hn hi, exec_portSet_lanes c s h hn hi, lanesBad_of_sum _, count400_le_eight _, ?_⟩
  intro hok hlanes t u
  split
  next st res hr => exact exec_portSet_done c s st res h hn hi hok hlanes hr
  next a k hr => exact exec_portSet_held c s a k h hn hi hok hlanes hr

end Sys2Proof.Machine

namespace Sys2Proof.Machine

/-! The order of the steeps that wait for a set (R35): a strict order, total on problems with a steep, and what `firstOf` finds in it. -/

section
variable {s : State}

/-- R35 in words of the two steeps: the earlier deadline, then the higher PRIORITY, then the lower problem ID. -/
theorem precedes_iff_of_steeps {a b : Nat} {x y : Steep} (hx : (prob s a).steep = some x) (hy : (prob s b).steep = some y) :
    precedes s a b = true ↔ x.deadline < y.deadline ∨ (x.deadline = y.deadline ∧ ((prob s b).sched.priority < (prob s a).sched.priority
      ∨ ((prob s a).sched.priority = (prob s b).sched.priority ∧ a < b))) := by
  simp only [precedes, hx, hy, decide_eq_true_eq]

/-- Only problems with a steep are in the order. -/
theorem steeps_of_precedes {a b : Nat} (h : precedes s a b = true) :
    ∃ x y, (prob s a).steep = some x ∧ (prob s b).steep = some y := by
  unfold precedes at h
  split at h
  next x y hx hy => exact ⟨x, y, hx, hy⟩
  next => exact Bool.noConfusion h

theorem precedes_trans {a b c : Nat} (hab : precedes s a b = true) (hbc : precedes s b c = true) : precedes s a c = true := by
  obtain ⟨x, y, hx, hy⟩ := steeps_of_precedes hab
  obtain ⟨_, z, _, hz⟩ := steeps_of_precedes hbc
  rw [precedes_iff_of_steeps hx hy] at hab
  rw [precedes_iff_of_steeps hy hz] at hbc
  rw [precedes_iff_of_steeps hx hz]
  omega

theorem precedes_asymm {a b : Nat} (hab : precedes s a b = true) : ¬ precedes s b a = true := by
  obtain ⟨x, y, hx, hy⟩ := steeps_of_precedes hab
  rw [precedes_iff_of_steeps hx hy] at hab
  rw [precedes_iff_of_steeps hy hx]
  omega

/-- No two steeps are equal in the order: the problem ID decides last (R35). -/
theorem precedes_or_precedes_of_ne {a b : Nat} (ha : (prob s a).steep ≠ none) (hb : (prob s b).steep ≠ none) (hne : a ≠ b) :
    precedes s a b = true ∨ precedes s b a = true := by
  obtain ⟨x, hx⟩ := Option.ne_none_iff_exists'.mp ha
  obtain ⟨y, hy⟩ := Option.ne_none_iff_exists'.mp hb
  rw [precedes_iff_of_steeps hx hy, precedes_iff_of_steeps hy hx]
  omega

/-- The first two problems of a list count as the one that comes first of them. -/
theorem firstOf_cons_cons (a b : Nat) (l : List Nat) :
    firstOf s (a :: b :: l) = firstOf s ((if precedes s b a then b else a) :: l) := by
  simp only [firstOf, List.foldl_cons]
  split <;> rfl

/-- What `firstOf` finds is of the list and precedes every other problem of it, where all of them have a steep. -/
theorem firstOf_precedes (l : List Nat) (p : Nat) (hl : ∀ q ∈ l, (prob s q).steep ≠ none) (hp : firstOf s l = some p) :
    p ∈ l ∧ ∀ q ∈ l, q ≠ p → precedes s p q = true := by
  cases l with
  | nil => exact nomatch hp
  | cons a l =>
    induction l generalizing a with
    | nil =>
      obtain rfl : a = p := Option.some.inj hp
      exact ⟨List.mem_singleton_self a, fun q hq hne => absurd (List.mem_singleton.mp hq) hne⟩
    | cons b l ih =>
      rw [firstOf_cons_cons] at hp
      obtain ⟨ha, hb, hrest⟩ : (prob s a).steep ≠ none ∧ (prob s b).steep ≠ none ∧ ∀ q ∈ l, (prob s q).steep ≠ none := by
        simpa only [List.forall_mem_cons] using hl
      by_cases hba : precedes s b a = true
      · rw [if_pos hba] at hp
        obtain ⟨hmem, hfirst⟩ := ih b (List.forall_mem_cons.mpr ⟨hb, hrest⟩) hp
        have hpa : precedes s p a = true := by
          by_cases hbp : b = p
          · rwa [← hbp]
          · exact precedes_trans (hfirst b List.mem_cons_self hbp) hba
        exact ⟨List.mem_cons_of_mem _ hmem, List.forall_mem_cons.mpr ⟨fun _ => hpa, hfirst⟩⟩
      · rw [if_neg hba] at hp
        obtain ⟨hmem, hfirst⟩ := ih a (List.forall_mem_cons.mpr ⟨ha, hrest⟩) hp
        obtain ⟨hfirsta, hfirstl⟩ := List.forall_mem_cons.mp hfirst
        have hpb : b ≠ p → precedes s p b = true := by
          intro hbp
          by_cases hap : a = p
          · exact hap ▸ (precedes_or_precedes_of_ne ha hb (fun hab => hbp (hab ▸ hap))).resolve_right hba
          · by_cases hab : a = b
            · exact hab ▸ hfirsta hap
            · exact precedes_trans (hfirsta hap) ((precedes_or_precedes_of_ne ha hb hab).resolve_right hba)
        have hmem' : p ∈ a :: b :: l := by
          obtain hpa | hpl := List.mem_cons.mp hmem
          · exact hpa ▸ List.mem_cons_self
          · exact List.mem_cons_of_mem _ (List.mem_cons_of_mem _ hpl)
        exact ⟨hmem', List.forall_mem_cons.mpr ⟨hfirsta, List.forall_mem_cons.mpr ⟨hpb, hfirstl⟩⟩⟩

end

/-- Settles O56: the order is lexicographic in deadline, PRIORITY and problem ID, and `firstOf` keeps the first one it has seen. -/
theorem steepOrderTotal : Obligations.SteepOrderTotal := by
  unfold Obligations.SteepOrderTotal
  intro s
  refine ⟨fun a b x y hx hy => ⟨precedes_iff_of_steeps hx hy, fun hne => ⟨?_, fun h => precedes_asymm h.1 h.2⟩⟩,
    fun _ _ _ => precedes_trans, firstOf_precedes⟩
  exact precedes_or_precedes_of_ne (by simp [hx]) (by simp [hy]) hne

end Sys2Proof.Machine

namespace Sys2Proof.Machine

/-! YSP frames: how one that passes its checks reaches its effect (R338, R345 to R351), and that a refusal changes no problem. -/

section
variable (s : State)

@[simp] theorem toClient_probs (c type : Nat) (payload : List Byte) : (toClient c type payload s).probs = s.probs := by
  unfold toClient
  dsimp only
  split <;> rfl

@[simp] theorem drawN_probs (n : Nat) : (drawN n s).2.probs = s.probs := by
  induction n generalizing s with
  | zero => rfl
  | succ n ih => exact ih (draw s).2

/-- A refused frame changes no problem, whether its STATUS is sent, held back by the rate limit or has no client to go to (R351). -/
@[simp] theorem refuse_probs (c type : Nat) (st : Status) (seq : W32) (problem groupSeq : Option Nat) :
    (refuse c type st seq problem groupSeq s).probs = s.probs := by
  unfold refuse
  dsimp only
  split
  · rfl
  · split
    · rw [toClient_probs, drawN_probs]
    · rfl

@[simp] theorem prob_touchLease (l p : Nat) : prob (touchLease l s) p = prob s p := rfl

end

/-- Filtering of an ingress frame (R345) touches filters, meters and counts, not the ports. -/
theorem qci_ports (e : EthIn) (vid : Nat) (s : State) : (qci e vid s).2.net.ports = s.net.ports := by
  unfold qci
  dsimp only
  repeat' split
  all_goals rfl

/-- A frame that enters leaves the ports as they are; only a drop is counted at one (R338). -/
theorem ingress_ports_of_some {e e' : EthIn} {s t : State} (h : ingress e s = (some e', t)) : t.net.ports = s.net.ports := by
  unfold ingress at h
  dsimp only at h
  split at h
  · exact nomatch (Prod.mk.inj h).1
  · split at h
    next hq => exact nomatch hq.symm.trans (congrArg Prod.fst h)
    next =>
      rw [← (Prod.mk.inj h).2]
      exact qci_ports ..

/-- The VLAN of a frame is the same before and after it enters. -/
theorem vidOf_of_ingress {e e' x : EthIn} {s t : State} (h : ingress e s = (some e', t)) : vidOf t x = vidOf s x := by
  simp only [vidOf, port, ingress_ports_of_some h]

/-- A frame that has passed the switch has its effect in the state it passed in. -/
theorem arrive_of_passed {f : FrameIn} {s t : State} (body : State → State) (h : passed f s = some t) : arrive f body s = body t := by
  unfold passed at h
  split at h
  next hup =>
    rw [arrive, if_pos hup]
    split at h
    next e u hin =>
      split at h
      next hrec =>
        obtain rfl := Option.some.inj h
        rw [vidOf_of_ingress hin] at hrec ⊢
        simp only [hin, hrec, if_true]
      next => contradiction
    next => contradiction
  next => contradiction

/-- A YSP frame of a known type that passes the checks of its header has its effect once a SEQ of 0 has reset its client (R351, R432). -/
theorem yspFront_of_passed {type n : Nat} {rsvd : Bool} {f : FrameIn} {s t : State} (body : State → State) (hp : passed f s = some t)
    (hok : YspOk f n t = true) (hack : f.flags.getLsbD 0 = true → type = 1) (hr : rsvd = false) :
    yspFront type true n rsvd f body s = body (greeted f t) := by
  simp only [YspOk, Bool.and_eq_true, Bool.not_eq_true', beq_iff_eq, decide_eq_true_eq] at hok
  obtain ⟨⟨⟨⟨⟨⟨⟨⟨⟨hfull, hysp⟩, hrunt⟩, hmagic⟩, hversion⟩, hsource⟩, hlen⟩, hn⟩, hflags⟩, hrsvd⟩ := hok
  have hack' : (f.flags.getLsbD 0 && type != 1) = false := by
    cases hf : f.flags.getLsbD 0
    · rfl
    · simp [hack hf]
  have hflags' : ¬ 1 < f.flags.toNat := Nat.not_lt.mpr hflags
  rw [yspFront, arrive_of_passed _ hp]
  simp only [hfull, hysp, hrunt, hmagic, hversion, hsource, hlen.symm, hn, hrsvd, hack', hflags', hr, greeted, firstFail_cons, firstFail_nil,
    bne_self_eq_false, ne_eq, not_true_eq_false, decide_false, Bool.not_true, Bool.or_self, or_self, if_false, Bool.false_eq_true]

end Sys2Proof.Machine

namespace Sys2Proof.Machine

/-! Solve requests that are not accepted, by mailbox and by YSP (R33). -/

/-- The problem does not take solve requests, and this is the status that says so (R33). -/
def SolveBad (st : Status) (s : State) (p : Nat) : Prop :=
  ((prob s p).st ≠ .enabled ∧ st = stNotEnabled)
    ∨ ((prob s p).st = .enabled ∧ (prob s p).staging = false ∧ (prob s p).sched.requested = false ∧ st = stNotRequested)

/-- R33: the scheduler answers the status and leaves the whole state. -/
theorem solve_of_solveBad {st : Status} {s : State} {p : Nat} (h : SolveBad st s p) : solve p s = (s, st) := by
  obtain ⟨hst, rfl⟩ | ⟨hst, hstaging, hreq, rfl⟩ := h
  · simp [solve, hst]
  · simp [solve, hst, hstaging, hreq]

theorem ne_stOk_of_solveBad {st : Status} {s : State} {p : Nat} (h : SolveBad st s p) : st ≠ stOk := by
  obtain ⟨_, rfl⟩ | ⟨_, _, _, rfl⟩ := h <;> decide

/-- SOLVE_REQUEST with a usable descriptor answers what the scheduler does (R32). -/
theorem effSolve_eq (c : CmdIn) (s : State) (h : Runs c s = true) (hn : Named c = true) :
    effSolve (cmdOf 0x0303 c s) (taken c s) = ((solve c.p (taken c s)).1, .done (solve c.p (taken c s)).2 []) := by
  have hdesc := desc_named 0x0303 c s h hn []
  rw [List.append_nil] at hdesc
  rw [effSolve, checked_pass _ _ _ hdesc]
  rfl

/-- R33 by mailbox. -/
theorem exec_solveRequest_refused {st : Status} {c : CmdIn} {s : State} (h : Runs c s = true) (hn : Named c = true) (hbad : SolveBad st s c.p) :
    exec (.solveRequest c) s = ends 0x0303 c s st [] (taken c s) := by
  have hbad' : SolveBad st (taken c s) c.p := hbad
  refine submit_ends _ effSolve c s _ _ _ h ?_
  rw [effSolve_eq c s h hn, solve_of_solveBad hbad']

/-- A SOLVE under a valid lease renews the lease all the same, and its refusal names the problem (R33, R351, R429). -/
theorem takeSolve_refused {st : Status} {f : FrameIn} {s : State} (hbad : SolveBad st s (u16 f.payload 0))
    (hl : leaseValid s (u16 f.payload 4) f.client (BitVec.ofNat 32 (u32 f.payload 8)) (u16 f.payload 0) = true) :
    takeSolve f s = refuse f.client.toNat 2 st f.seq (some (u16 f.payload 0)) none (touchLease (u16 f.payload 4) s) := by
  have hbad' : SolveBad st (touchLease (u16 f.payload 4) s) (u16 f.payload 0) := hbad
  simp [takeSolve, hl, solve_of_solveBad hbad', ne_stOk_of_solveBad hbad]

/-- A SOLVE frame that passes the switch and its header's checks reaches the lease test (R350, R351). -/
theorem exec_yspSolve_of_passed {f : FrameIn} {s t : State} (hp : passed f s = some t) (hok : YspOk f 16 t = true) (hflags : f.flags = 0)
    (h2 : zeroAt f.payload 2 2 = true) (h6 : zeroAt f.payload 6 2 = true) (h12 : zeroAt f.payload 12 4 = true) :
    exec (.yspSolve f) s = finish s (takeSolve f (greeted f t)) :=
  congrArg (finish s) (yspFront_of_passed (takeSolve f) hp hok (by simp [hflags]) (by simp [h2, h6, h12]))

/-- Settles O57: by either path the scheduler answers the refusal and leaves the state, and a YSP refusal changes no problem. -/
theorem solveRefused : Obligations.SolveRefused := by
  unfold Obligations.SolveRefused
  intro st bad
  refine ⟨fun c s h hn hbad => exec_solveRequest_refused h hn hbad, ?_⟩
  intro f s t hp hok hflags h2 h6 h12 v p hbad hl
  have hexec : exec (.yspSolve f) s = finish s (refuse f.client.toNat 2 st f.seq (some p) none (touchLease (u16 f.payload 4) v)) := by
    rw [exec_yspSolve_of_passed hp hok hflags h2 h6 h12, takeSolve_refused hbad hl]
  exact ⟨hexec, _, hexec, refuse_probs (touchLease (u16 f.payload 4) v) ..⟩

end Sys2Proof.Machine

namespace Sys2Proof.Machine

/-! PROBLEM_ENABLE with a schedule block out of range (R26). -/

/-- The two checks of R26 on a schedule block fail exactly with SCHED_RANGE. -/
theorem firstFail_schedChecks (m : Cmd) (s : State)
    (h : schedBad (argBytes m.c) = true ∨ schedImageBad (prob s (pOf m)) (parseSched (argBytes m.c)) = true) :
    firstFail (schedChecks s m) = some stSchedRange := by
  obtain h | h := h <;> simp [schedChecks, h]

/-- Settles O17: PROBLEM_ENABLE of a LOADED problem passes every check before those of the schedule block, of which one fails. -/
theorem enableOutOfRange : Obligations.EnableOutOfRange := by
  unfold Obligations.EnableOutOfRange
  intro c s h hn hst hbad
  have hst' : (prob (taken c s) (pOf (cmdOf 0x0301 c s))).st = .loaded := hst
  refine submit_ends _ effEnable c s _ _ _ h (checked_fail _ _ _ stSchedRange ?_)
  rw [List.append_assoc, desc_named 0x0301 c s h hn, hst']
  exact firstFail_schedChecks (cmdOf 0x0301 c s) (taken c s) hbad

end Sys2Proof.Machine

namespace Sys2Proof.Machine

/-! The start condition of a command (R420, R421). -/

/-- A command may start exactly when no holder and no older waiting command shares a lock with it (R420), and, if it has FENCE, when no
command in flight is older than it (R421). -/
theorem canStart_iff (m : Cmd) (s : State) :
    canStart m s = true ↔
      (∀ r ∈ s.mbx.running, r.holds = true → conflict r.cmd m = false)
      ∧ (∀ w ∈ s.mbx.waiting, w.acceptNo.toNat < m.acceptNo.toNat → conflict w m = false)
      ∧ (m.c.flags.getLsbD 1 = true →
          (∀ r ∈ s.mbx.running, m.acceptNo.toNat ≤ r.cmd.acceptNo.toNat)
          ∧ (∀ w ∈ s.mbx.waiting, m.acceptNo.toNat ≤ w.acceptNo.toNat)) := by
  simp only [canStart, Bool.and_eq_true, Bool.or_eq_true, List.all_eq_true, Bool.not_eq_true', decide_eq_true_eq, and_assoc,
    ← Bool.not_eq_true, not_and, ← Decidable.imp_iff_not_or]

/-- Settles O9: the third part of the start condition, under the command's FENCE flag. -/
theorem fenceWaits : Obligations.FenceWaits := by
  unfold Obligations.FenceWaits
  intro m s hfence hstart
  obtain ⟨-, -, hnoOlder⟩ := (canStart_iff m s).mp hstart
  exact hnoOlder hfence

end Sys2Proof.Machine

namespace Sys2Proof.Machine

/-! The edge-die TAP and the instructions that drive the contacts (R509). -/

variable {s : State} {ir : JtagIr}

/-- What R509 asks of the loops: one of them is RUNNING, or one of the analog or digital outputs is LOOP_DRIVEN. -/
def LoopsDrive (e : Edge) : Prop :=
  (∃ n, n < 32 ∧ (loopN e n).state = .running) ∨ (∃ i, i < 8 ∧ (loopDriven e 1 i = true ∨ loopDriven e 2 i = true))

theorem not_loopsDrive_iff (e : Edge) :
    ¬ LoopsDrive e ↔
      (∀ n, n < 32 → (loopN e n).state ≠ .running) ∧ (∀ i, i < 8 → loopDriven e 1 i = false ∧ loopDriven e 2 i = false) := by
  simp only [LoopsDrive, not_or, not_exists, not_and, Bool.not_eq_true, ne_eq]

/-- The edge-die TAP refuses exactly the three instructions that drive the contacts, and exactly while the loops drive (R509). -/
theorem tapRefuses_iff (e : Edge) (ir : JtagIr) :
    tapRefuses e ir = true ↔ (ir = .extest ∨ ir = .clamp ∨ ir = .highz) ∧ LoopsDrive e := by
  simp only [tapRefuses, LoopsDrive, Bool.and_eq_true, Bool.or_eq_true, beq_iff_eq, List.any_eq_true, List.mem_range, or_assoc]

/-- A refused instruction leaves BYPASS in the edge die's TAP, and 0b10 is captured (R509). -/
theorem loadIr_edge_refused (h : tapRefuses s.edge ir = true) :
    loadIr true ir s = emit (.debug 2) (modPwr (fun w => { w with edgeIr := .bypass }) s) := by
  simp only [loadIr, if_true, if_pos h]

/-- An instruction that is not refused and is not the relock stands in the edge die's TAP, and 0b01 is captured (R507, R509). -/
theorem loadIr_edge_taken (hne : ir ≠ .relock) (h : tapRefuses s.edge ir = false) :
    loadIr true ir s = emit (.debug 1) (modPwr (fun w => { w with edgeIr := ir }) s) := by
  simp only [loadIr, if_true, h, hne, Bool.false_eq_true, false_and, if_false]

/-- With no bit at TDI a TAP's data register stays, powered or not, so JTAG_INSTRUCTION only loads the instruction. -/
theorem exec_jtagInstruction_nil (edge : Bool) (ir : JtagIr) (s : State) :
    exec (.jtagInstruction edge ⟨ir, []⟩) s = finish s (loadIr edge ir s) :=
  congrArg (finish s) (ite_self (loadIr edge ir s))

/-- Settles O58: the loops' part of R509 decides whether the TAP refuses, and no bit is shifted after the load. -/
theorem tapRefusal : Obligations.TapRefusal := by
  unfold Obligations.TapRefusal
  intro s ir hir
  rw [exec_jtagInstruction_nil]
  constructor
  · intro hdrive
    rw [loadIr_edge_refused ((tapRefuses_iff s.edge ir).mpr ⟨hir, hdrive⟩)]
    rfl
  · intro hrun hout
    have hfree : ¬ LoopsDrive s.edge := (not_loopsDrive_iff s.edge).mpr ⟨hrun, hout⟩
    have htaken : tapRefuses s.edge ir = false := Bool.eq_false_iff.mpr fun h => hfree ((tapRefuses_iff s.edge ir).mp h).2
    have hne : ir ≠ .relock := by rintro rfl; simp at hir
    rw [loadIr_edge_taken hne htaken]
    rfl

end Sys2Proof.Machine

namespace Sys2Proof.Machine

/-! The TAIL registers: what a written TAIL is taken as, and what the register then reads as (R437, R517). -/

section TakeTail
variable {head tail : W32} {size : Nat}

/-- A TAIL ahead of its HEAD is taken as HEAD. -/
theorem takeTail_of_ahead (h : (head - tail).toInt < 0) : takeTail head tail size = head := by
  simp only [takeTail, if_pos h]

/-- A TAIL more than the size behind its HEAD is taken as HEAD less the size: it is not ahead, since a size is not negative. -/
theorem takeTail_of_behind (h : (size : Int) < (head - tail).toInt) : takeTail head tail size = head - BitVec.ofNat 32 size := by
  have hahead : ¬ (head - tail).toInt < 0 := by omega
  simp only [takeTail, if_neg hahead, if_pos h]

/-- A TAIL from HEAD down to HEAD less the size is taken as written. -/
theorem takeTail_of_within (h0 : 0 ≤ (head - tail).toInt) (h : (head - tail).toInt ≤ (size : Int)) : takeTail head tail size = tail := by
  simp only [takeTail, if_neg (Int.not_lt.mpr h0), if_neg (Int.not_lt.mpr h)]

end TakeTail

/-- EVT_TAIL reads as the log's tail (Table 18-17). -/
theorem readReg_evtTail (s : State) : readReg .direct 0x50004 s = (s.log.tail, s) := by
  simp [readReg, readDirect, readLog, ro]

/-- A write of EVT_TAIL stores the value taken, over the 4,096 entries of the log (R517). -/
theorem writeReg_evtTail (v : W32) (s : State) :
    writeReg .direct 0x50004 v s = { s with log := { s.log with tail := takeTail s.log.head v 4096 } } := by
  simp [writeReg, writeDirect]

/-- MBX_POUR_TAIL of a ring reads as the ring's tail (Table 18-16). -/
theorem readReg_pourTail {r : Nat} (hr : r < 32) (s : State) : readReg .mailbox (0x404 + 16 * r) s = ((s.rings.get r).tail, s) := by
  have haligned : (0x404 + 16 * r) / 4 * 4 = 0x404 + 16 * r := by omega
  have hring : (0x404 + 16 * r - 0x400) / 16 = r := by omega
  have hoff : (0x404 + 16 * r) % 16 = 4 := by omega
  have hread : readMailbox (0x404 + 16 * r) s = readRing r 4 s := by
    rw [readMailbox, if_neg (by omega), if_neg (by omega), if_neg (by omega), if_neg (by omega), if_pos (by omega), hring, hoff]
  simp only [readReg, haligned, hread, readRing, ro, BitVec.ofNat_toNat, BitVec.setWidth_eq]

/-- A write of MBX_POUR_TAIL stores the value taken, over the ring's size (R517). -/
theorem writeReg_pourTail {r : Nat} (hr : r < 32) (v : W32) (s : State) :
    writeReg .mailbox (0x404 + 16 * r) v s
      = { s with rings := s.rings.mod r (fun q => { q with tail := takeTail q.head v (2 ^ q.log2) }) } := by
  have haligned : (0x404 + 16 * r) / 4 * 4 = 0x404 + 16 * r := by omega
  have hring : (0x404 + 16 * r - 0x400) / 16 = r := by omega
  have hoff : (0x404 + 16 * r) % 16 = 4 := by omega
  simp only [writeReg, haligned]
  rw [writeMailbox, if_neg (by omega), if_neg (by omega), if_neg (by omega), if_neg (by omega), if_pos (by omega), if_pos hoff, hring]
  simp only [BitVec.ofNat_toNat, BitVec.setWidth_eq]

/-- Settles O11: the three cases of R517 are those of `takeTail`, and both TAIL registers store what it gives. -/
theorem tailTaken : Obligations.TailTaken := by
  unfold Obligations.TailTaken
  refine ⟨fun head tail n _ => ⟨takeTail_of_ahead, takeTail_of_behind, takeTail_of_within⟩, fun s v => ?_, fun s v r hr => ?_⟩
  · rw [writeReg_evtTail, readReg_evtTail]
  · rw [writeReg_pourTail hr, readReg_pourTail hr, Tbl.get_mod_self]

end Sys2Proof.Machine

namespace Sys2Proof.Machine

/-! Little-endian fields (R4): where a field of a concatenation lies, what a field of a number's bytes is, and the bytes of a field. -/

@[simp] theorem length_leBytes (k n : Nat) : (leBytes k n).length = k := by
  induction k generalizing n with
  | zero => rfl
  | succ k ih => rw [leBytes, List.length_cons, ih]

@[simp] theorem length_wBytes {w : Nat} (k : Nat) (x : BitVec w) : (wBytes k x).length = k := length_leBytes k x.toNat

theorem leNat_leBytes_mod (k n : Nat) : leNat (leBytes k n) = n % 256 ^ k := by
  induction k generalizing n with
  | zero => rw [leBytes, leNat, Nat.pow_zero, Nat.mod_one]
  | succ k ih => rw [leBytes, leNat, ih, BitVec.toNat_ofNat, Nat.pow_succ' (n := k), Nat.mod_mul]

theorem leBytes_drop (o k n : Nat) : (leBytes k n).drop o = leBytes (k - o) (n / 256 ^ o) := by
  induction o generalizing k n with
  | zero => simp
  | succ o ih =>
    cases k with
    | zero => simp [leBytes]
    | succ k => rw [leBytes, List.drop_succ_cons, ih, Nat.add_sub_add_right, Nat.pow_succ', Nat.div_div_eq_div_mul]

theorem leBytes_take {m k : Nat} (h : m ≤ k) (n : Nat) : (leBytes k n).take m = leBytes m n := by
  induction m generalizing k n with
  | zero => rfl
  | succ m ih =>
    obtain ⟨k, rfl⟩ : ∃ j, k = j + 1 := ⟨k - 1, by omega⟩
    rw [leBytes, List.take_succ_cons, ih (by omega), leBytes]

/-- A field inside a number's little-endian bytes is that number shifted and cut. -/
theorem fieldN_leBytes {o n k : Nat} (h : o + n ≤ k) (x : Nat) : fieldN (leBytes k x) o n = x / 256 ^ o % 256 ^ n := by
  rw [fieldN, leBytes_drop, leBytes_take (by omega), leNat_leBytes_mod]

theorem fieldN_append_left {a : List Byte} {o n : Nat} (h : o + n ≤ a.length) (b : List Byte) : fieldN (a ++ b) o n = fieldN a o n := by
  rw [fieldN, fieldN, List.drop_append_of_le_length (by omega), List.take_append_of_le_length (by rw [List.length_drop]; omega)]

theorem fieldN_append_right {a : List Byte} {o : Nat} (h : a.length ≤ o) (b : List Byte) (n : Nat) :
    fieldN (a ++ b) o n = fieldN b (o - a.length) n := by
  rw [fieldN, fieldN, List.drop_append, List.drop_eq_nil_of_le h, List.nil_append]

theorem fieldN_whole (bs : List Byte) : fieldN bs 0 bs.length = leNat bs := by
  rw [fieldN, List.drop_zero, List.take_length]

theorem leNat_append (a b : List Byte) : leNat (a ++ b) = leNat a + 256 ^ a.length * leNat b := by
  induction a with
  | nil => simp [leNat]
  | cons x a ih => rw [List.cons_append, leNat, leNat, ih, List.length_cons, Nat.pow_succ', Nat.mul_add, Nat.mul_assoc, Nat.add_assoc]

/-- Two neighbouring numbers' bytes read as one field: the first is the low part. -/
theorem leNat_leBytes_append (j k x y : Nat) : leNat (leBytes j x ++ leBytes k y) = x % 256 ^ j + 256 ^ j * (y % 256 ^ k) := by
  rw [leNat_append, length_leBytes, leNat_leBytes_mod, leNat_leBytes_mod]

/-- Byte `j` of a little-endian number. -/
theorem leNat_div_mod (bs : List Byte) (j : Nat) : leNat bs / 256 ^ j % 256 = (byteAt bs j).toNat := by
  induction j generalizing bs with
  | zero =>
    cases bs with
    | nil => rfl
    | cons b bs =>
      have hb := b.isLt
      simp only [leNat, byteAt, List.getD_cons_zero, Nat.pow_zero, Nat.div_one]
      omega
  | succ j ih =>
    cases bs with
    | nil => simp [leNat, byteAt]
    | cons b bs =>
      have hb := b.isLt
      have htail : leNat (b :: bs) / 256 = leNat bs := by simp only [leNat]; omega
      rw [Nat.pow_succ', ← Nat.div_div_eq_div_mul, htail, ih]
      rfl

theorem byteAt_drop_take {j n : Nat} (h : j < n) (bs : List Byte) (o : Nat) : byteAt ((bs.drop o).take n) j = byteAt bs (o + j) := by
  simp only [byteAt, List.getD_eq_getElem?_getD, List.getElem?_take_of_lt h, List.getElem?_drop]

/-- Byte `j` of a word that a 32-bit field fills is byte `j` of the field (R4, R523). -/
theorem word_byte {j : Nat} (hj : j < 4) (bs : List Byte) (o : Nat) :
    (BitVec.ofNat 32 (u32 bs o) >>> (8 * j)).setWidth 8 = byteAt bs (o + j) := by
  have hbyte : u32 bs o / 256 ^ j % 256 = (byteAt bs (o + j)).toNat := by
    rw [u32, fieldN, leNat_div_mod, byteAt_drop_take hj]
  apply BitVec.eq_of_toNat_eq
  rw [BitVec.toNat_setWidth, BitVec.toNat_ushiftRight, BitVec.toNat_ofNat, Nat.shiftRight_eq_div_pow, ← hbyte, Nat.pow_mul]
  obtain rfl | rfl | rfl | rfl : j = 0 ∨ j = 1 ∨ j = 2 ∨ j = 3 := by omega
  all_goals omega

theorem padTo_of_length_eq {n : Nat} {bs : List Byte} (h : bs.length = n) : padTo n bs = bs := by
  subst h
  simp [padTo, zeros]

end Sys2Proof.Machine

namespace Sys2Proof.Machine

/-! The event log's window: a read returns a word of the entry's bytes, and the words of an entry are those of Table 22-5 (R523). -/

/-- An aligned read in the window of entry `n` returns the word at that offset of the entry, without side effects (Table 22-4). -/
theorem readReg_logEntry {n o : Nat} (hn : n < 4096) (ho : o < 64) (haligned : o % 4 = 0) (s : State) :
    readReg .direct (0x60000 + 64 * n + o) s = (BitVec.ofNat 32 (u32 (entryBytes' (s.log.entries.get n)) o), s) := by
  have hword : (0x60000 + 64 * n + o) / 4 * 4 = 0x60000 + 64 * n + o := by omega
  have hindex : (0x60000 + 64 * n + o - 0x60000) / 64 = n := by omega
  have hoff : (0x60000 + 64 * n + o) % 64 = o := by omega
  simp only [readReg, hword]
  rw [readDirect, if_neg (by omega), if_neg (by omega), if_neg (by omega), if_neg (by omega), if_neg (by omega), if_neg (by omega),
    if_pos (by omega), hindex, hoff]
  rfl

section EntryWords
variable (e : EvtEntry)

/-- LT fills the first eight bytes of an entry. -/
theorem u32_entryBytes'_lt {o : Nat} (h : o ≤ 4) : u32 (entryBytes' e) o = e.lt.toNat / 256 ^ o % 256 ^ 4 := by
  simp only [u32, entryBytes', List.append_assoc]
  rw [fieldN_append_left (by rw [length_wBytes]; omega), wBytes, fieldN_leBytes (by omega)]

/-- EVT_SEQ is the third word of an entry. -/
theorem u32_entryBytes'_seq : u32 (entryBytes' e) 8 = e.seq.toNat := by
  have hlt : (wBytes 8 e.lt).length = 8 := length_wBytes ..
  have hseq : (wBytes 4 e.seq).length = 4 := length_wBytes ..
  simp only [u32, entryBytes', List.append_assoc]
  rw [fieldN_append_right (by omega), hlt, fieldN_append_left (by omega), wBytes, fieldN_leBytes (by omega), Nat.sub_self,
    Nat.pow_zero, Nat.div_one]
  exact Nat.mod_eq_of_lt e.seq.isLt

/-- CODE is the low half and ARG the high half of an entry's fourth word. -/
theorem u32_entryBytes'_code_arg : u32 (entryBytes' e) 12 = e.code.toNat + 2 ^ 16 * e.arg.toNat := by
  have hseq : (wBytes 8 e.lt ++ wBytes 4 e.seq).length = 12 := by simp
  have hpair : (wBytes 2 e.code ++ wBytes 2 e.arg).length = 4 := by simp
  have hwhole : u32 (entryBytes' e) 12 = leNat (wBytes 2 e.code ++ wBytes 2 e.arg) := by
    rw [u32, entryBytes', List.append_assoc _ (wBytes 2 e.code), List.append_assoc, fieldN_append_right (by omega), hseq,
      fieldN_append_left (by omega), ← fieldN_whole, hpair]
  rw [hwhole, wBytes, wBytes, leNat_leBytes_append]
  have hcode := e.code.isLt
  have harg := e.arg.isLt
  omega

/-- The bytes from 0x10 on are those of DATA. -/
theorem byteAt_entryBytes'_data (k : Nat) : byteAt (entryBytes' e) (0x10 + k) = byteAt (padTo 48 e.data) k := by
  have hhead : (wBytes 8 e.lt ++ wBytes 4 e.seq ++ wBytes 2 e.code ++ wBytes 2 e.arg).length = 0x10 := by simp
  rw [byteAt, byteAt, entryBytes', List.getD_eq_getElem?_getD, List.getD_eq_getElem?_getD, List.getElem?_append_right (by omega), hhead,
    Nat.add_sub_cancel_left]

end EntryWords

/-- Settles O59: a read in the log's window is a word of the entry's bytes, and each of those words holds its fields' bytes. -/
theorem logEntryLayout : Obligations.LogEntryLayout := by
  unfold Obligations.LogEntryLayout
  intro s n hn hdata e word
  have hword {o : Nat} (ho : o < 64) (haligned : o % 4 = 0) : word o = BitVec.ofNat 32 (u32 (entryBytes' e) o) :=
    congrArg Prod.fst (readReg_logEntry hn ho haligned s)
  refine ⟨?lt_lo, ?lt_hi, ?seq, ?code, ?arg, ?data⟩
  case lt_lo =>
    rw [hword (by omega) rfl, u32_entryBytes'_lt e (by omega)]
    apply BitVec.eq_of_toNat_eq
    rw [BitVec.toNat_ofNat, BitVec.toNat_setWidth]
    omega
  case lt_hi =>
    rw [hword (by omega) rfl, u32_entryBytes'_lt e (by omega)]
    apply BitVec.eq_of_toNat_eq
    rw [BitVec.toNat_ofNat, BitVec.toNat_setWidth, BitVec.toNat_ushiftRight, Nat.shiftRight_eq_div_pow]
    omega
  case seq =>
    rw [hword (by omega) rfl, u32_entryBytes'_seq, BitVec.ofNat_toNat, BitVec.setWidth_eq]
  case code =>
    rw [hword (by omega) rfl, u32_entryBytes'_code_arg]
    bv_omega
  case arg =>
    rw [hword (by omega) rfl, u32_entryBytes'_code_arg]
    bv_omega
  case data =>
    intro k hk
    have hplace : 0x10 + 4 * (k / 4) + k % 4 = 0x10 + k := by omega
    rw [hword (by omega) (by omega), word_byte (by omega), hplace, byteAt_entryBytes'_data, padTo_of_length_eq hdata]
    rfl

end Sys2Proof.Machine

namespace Sys2Proof.Machine

/-! What the shared operations leave alone: the end of a step, interrupts, events, completions, frames to clients. -/

/-- The state after a step's end: the state that the meaning left, with the queue of before and the posts carried out. -/
def carried (s t : State) : State :=
  { t with pending := s.pending, posts := [], hostMem := applyPosts .host s.hostMem t.posts, xbuf := applyPosts .xbuf s.xbuf t.posts }

theorem finish_eq (s t : State) : finish s t = .next (carried s t) := rfl

/-- The device behind the mailbox: the state without what carries commands in and answers out, which is the queue, the memories and
posts, the mailbox, the interrupts, the log and the output. -/
def State.device (s : State) : State :=
  { s with pending := [], posts := [], out := [], hostMem := [], xbuf := [], mbx := {}, irq := {}, log := {} }

section
variable (s t : State)

@[simp] theorem carried_device : (carried s t).device = t.device := rfl
@[simp] theorem carried_mbx : (carried s t).mbx = t.mbx := rfl
@[simp] theorem carried_irq : (carried s t).irq = t.irq := rfl
@[simp] theorem carried_out : (carried s t).out = t.out := rfl
@[simp] theorem carried_lt : (carried s t).lt = t.lt := rfl
@[simp] theorem carried_probs : (carried s t).probs = t.probs := rfl
@[simp] theorem carried_sets : (carried s t).sets = t.sets := rfl
@[simp] theorem carried_leases : (carried s t).leases = t.leases := rfl
@[simp] theorem carried_clients : (carried s t).clients = t.clients := rfl
@[simp] theorem carried_rings : (carried s t).rings = t.rings := rfl
@[simp] theorem carried_log : (carried s t).log = t.log := rfl
@[simp] theorem carried_jobs : (carried s t).jobs = t.jobs := rfl
@[simp] theorem carried_time : (carried s t).time = t.time := rfl
@[simp] theorem carried_net : (carried s t).net = t.net := rfl
@[simp] theorem carried_links : (carried s t).links = t.links := rfl
@[simp] theorem carried_arbs : (carried s t).arbs = t.arbs := rfl
@[simp] theorem carried_faults : (carried s t).faults = t.faults := rfl
@[simp] theorem carried_pwr : (carried s t).pwr = t.pwr := rfl
@[simp] theorem carried_edge : (carried s t).edge = t.edge := rfl
@[simp] theorem carried_prob (p : Nat) : prob (carried s t) p = prob t p := rfl
@[simp] theorem carried_lease (l : Nat) : lease (carried s t) l = lease t l := rfl
@[simp] theorem carried_port (p : Nat) : port (carried s t) p = port t p := rfl
@[simp] theorem carried_link (l : Nat) : link (carried s t) l = link t l := rfl
@[simp] theorem carried_tbase (n : Nat) : tbase (carried s t) n = tbase t n := rfl

end

section
variable (s : State)

@[simp] theorem sendVector_device (v : Nat) : (sendVector v s).device = s.device := by
  unfold sendVector
  dsimp only
  split <;> rfl

@[simp] theorem irqNotice_device : (irqNotice s).device = s.device := by
  unfold irqNotice
  split
  · rfl
  · split <;> rfl

/-- An interrupt changes nothing of the device behind the mailbox (R436). -/
@[simp] theorem raise_device (k : Nat) : (raise k s).device = s.device := by
  unfold raise
  split
  · rfl
  · dsimp only
    rw [irqNotice_device]
    split
    · rw [sendVector_device]
      rfl
    · rfl

/-- An event changes nothing of the device behind the mailbox (R437). -/
@[simp] theorem event_device (code arg : Nat) (data : List Byte) : (event code arg data s).device = s.device := by
  have hlog : (logEntry code arg data s).device = s.device := raise_device _ 1
  unfold event
  split
  · rw [raise_device, hlog]
  · exact hlog

/-- A completion changes nothing of the device behind the mailbox (R417). -/
@[simp] theorem complete_device (m : Cmd) (st : Status) (res : List Byte) : (complete m st res s).device = s.device := by
  have hposted : (if s.mbx.enable then
      let t := post .host (s.mbx.cplBase.toNat + 32 * s.mbx.cplHead.toNat) (completionBytes m s.mbx.cplPhase st res) s
      let t := modMbx (fun b => { b with cplHead := b.cplHead + 1, cplPhase := b.cplPhase != (b.cplHead == 0xFF) }) t
      if m.c.flags.getLsbD 0 then raise 0 t else t
    else s).device = s.device := by
    dsimp only
    split
    · split
      · rw [raise_device]
        rfl
      · rfl
    · rfl
  unfold complete
  dsimp only
  split
  · exact hposted
  · exact hposted

/-- A frame to a client changes the client's own entry alone (R348). -/
theorem toClient_device (c type : Nat) (payload : List Byte) :
    (toClient c type payload s).device = { s with clients := (toClient c type payload s).clients }.device := by
  unfold toClient
  dsimp only
  split <;> rfl

end

section
variable {s t : State}

/-- States with the same device have the same problems, leases and the rest behind the mailbox. -/
theorem probs_of_device (h : s.device = t.device) : s.probs = t.probs :=
  show s.device.probs = t.device.probs from congrArg State.probs h
theorem sets_of_device (h : s.device = t.device) : s.sets = t.sets :=
  show s.device.sets = t.device.sets from congrArg State.sets h
theorem leases_of_device (h : s.device = t.device) : s.leases = t.leases :=
  show s.device.leases = t.device.leases from congrArg State.leases h

end

section
variable (s : State)

@[simp] theorem event_probs (code arg : Nat) (data : List Byte) : (event code arg data s).probs = s.probs :=
  probs_of_device (event_device s code arg data)
@[simp] theorem event_leases (code arg : Nat) (data : List Byte) : (event code arg data s).leases = s.leases :=
  leases_of_device (event_device s code arg data)
@[simp] theorem complete_probs (m : Cmd) (st : Status) (res : List Byte) : (complete m st res s).probs = s.probs :=
  probs_of_device (complete_device s m st res)
@[simp] theorem complete_leases (m : Cmd) (st : Status) (res : List Byte) : (complete m st res s).leases = s.leases :=
  leases_of_device (complete_device s m st res)
@[simp] theorem toClient_leases (c type : Nat) (payload : List Byte) : (toClient c type payload s).leases = s.leases :=
  (leases_of_device (toClient_device s c type payload) :)

end

end Sys2Proof.Machine

namespace Sys2Proof.Machine

/-! The block's step: the command at the front of the queue, and what every step keeps of the queue and of the memories (R407, R413). -/

/-- Settles O1: the step is the effect of the queue's front, with the queue's rest in the state. -/
theorem stepRunsFront : Obligations.StepRunsFront := by
  unfold Obligations.StepRunsFront
  intro c s q
  rfl

/-- What canonical memories with nothing posted are. -/
theorem State.memWf_iff (s : State) : s.memWf = true ↔ s.hostMem.wf = true ∧ s.xbuf.wf = true ∧ s.posts = [] := by
  simp only [State.memWf, Bool.and_eq_true, List.isEmpty_iff, and_assoc]

/-- Settles O3: both memories are empty at reset. -/
theorem resetMemory : Obligations.ResetMemory := by
  unfold Obligations.ResetMemory
  rfl

theorem forAll_cons {α : Type} (a : α) (l : List α) (f : α → State → State) (s : State) : forAll (a :: l) f s = forAll l f (f a s) := rfl

/-- A nanosecond of a link touches links, free values and what leaves the block, and nothing else (R357). -/
theorem tickLink_frame (l : Nat) (s : State) : ∃ n ks os, tickLink l s = { s with free := n, links := ks, out := os } := by
  unfold tickLink
  dsimp only
  split
  · exact ⟨_, _, _, rfl⟩
  · exact ⟨_, _, _, rfl⟩

/-- A nanosecond of several links touches links, free values and what leaves the block, and nothing else. -/
theorem forAll_tickLink_frame (ls : List Nat) (s : State) :
    ∃ n ks os, forAll ls tickLink s = { s with free := n, links := ks, out := os } := by
  induction ls generalizing s with
  | nil => exact ⟨_, _, _, rfl⟩
  | cons l ls ih =>
    obtain ⟨_, _, _, hl⟩ := tickLink_frame l s
    obtain ⟨n, ks, os, hls⟩ := ih (tickLink l s)
    exact ⟨n, ks, os, by rw [forAll_cons, hls, hl]⟩

/-- A link that owes no credit and has no request pending at its arbiter stays as it is in a nanosecond (R357). -/
theorem tickLink_idle {l : Nat} {s : State}
    (h : (link s l).state = .up → (link s l).vc2Sent = [] ∧ (s.arbs.get (194 + l)).queue = []) : tickLink l s = s := by
  have hidle : ¬ ((s.links.get l).state = .up ∧ ((s.links.get l).vc2Sent ≠ [] ∨ (!(s.arbs.get (194 + l)).queue.isEmpty) = true)) := by
    rintro ⟨hup, hbusy⟩
    obtain ⟨hsent, hqueue⟩ := h hup
    have hsent' : (s.links.get l).vc2Sent = [] := hsent
    simp [hsent', hqueue] at hbusy
  simp only [tickLink, if_neg hidle]

theorem forAll_tickLink_idle {ls : List Nat} {s : State}
    (h : ∀ l ∈ ls, (link s l).state = .up → (link s l).vc2Sent = [] ∧ (s.arbs.get (194 + l)).queue = []) : forAll ls tickLink s = s := by
  induction ls with
  | nil => rfl
  | cons l ls ih =>
    rw [forAll_cons, tickLink_idle (h l List.mem_cons_self)]
    exact ih fun k hk => h k (List.mem_cons_of_mem _ hk)

theorem tickEdge_loops (e : Edge) : (tickEdge e).loops = e.loops := by
  unfold tickEdge
  split
  · split <;> rfl
  · rfl

/-- Settles O2: a nanosecond counts the clocks; of the rest it touches only the links, and those only as far as they are busy. -/
theorem idleStepCounts : Obligations.IdleStepCounts := by
  unfold Obligations.IdleStepCounts
  intro s hpending
  have hstep : step s = .next (tick s) := by simp only [step, hpending]
  obtain ⟨n, ks, os, hlinks⟩ : ∃ n ks os, tickLinks s = { s with free := n, links := ks, out := os } := forAll_tickLink_frame _ s
  refine ⟨tick s, hstep, ?_⟩
  unfold tick
  rw [hlinks]
  refine ⟨rfl, rfl, tickEdge_loops s.edge, rfl, rfl, rfl, rfl, rfl, rfl, rfl, rfl, rfl, rfl, rfl, ?_⟩
  intro hidle
  have hstays : tickLinks s = s := forAll_tickLink_idle fun l hl => hidle l (List.mem_range.mp hl)
  rw [hstays] at hlinks
  exact ⟨(congrArg State.links hlinks).symm, (congrArg State.out hlinks).symm⟩

/-- A nanosecond writes no memory and posts nothing. -/
theorem tick_memory (s : State) : (tick s).hostMem = s.hostMem ∧ (tick s).xbuf = s.xbuf ∧ (tick s).posts = s.posts := by
  obtain ⟨n, ks, os, hlinks⟩ : ∃ n ks os, tickLinks s = { s with free := n, links := ks, out := os } := forAll_tickLink_frame _ s
  unfold tick
  rw [hlinks]
  exact ⟨rfl, rfl, rfl⟩

/-- Settles O4: a nanosecond writes no memory, and a command carries its posts out at its end. -/
theorem stepKeepsMemory : Obligations.StepKeepsMemory := by
  unfold Obligations.StepKeepsMemory
  intro s t hwf hstep
  obtain ⟨hhost, hxbuf, hposts⟩ := (State.memWf_iff s).mp hwf
  refine (State.memWf_iff t).mpr ?_
  unfold step at hstep
  split at hstep
  next =>
    obtain rfl : tick s = t := Host.Outcome.next.inj hstep
    obtain ⟨hhost', hxbuf', hposts'⟩ := tick_memory s
    rw [hhost', hxbuf', hposts']
    exact ⟨hhost, hxbuf, hposts⟩
  next c rest _ =>
    obtain ⟨u, hu⟩ := exec_finish c { s with pending := rest }
    rw [hu] at hstep
    obtain ⟨hhost', hxbuf'⟩ := finish_wf _ u t hstep hhost hxbuf
    obtain ⟨_, hposts', _, _⟩ := finish_next _ u t hstep
    exact ⟨hhost', hxbuf', hposts'⟩

/-- Settles O5: every command's meaning ends in `finish`, which restores the queue. -/
theorem commandsKeepQueue : Obligations.CommandsKeepQueue := by
  unfold Obligations.CommandsKeepQueue
  intro c s
  obtain ⟨u, hu⟩ := exec_finish c s
  exact ⟨_, hu, rfl, rfl⟩

/-- A byte outside every posted write of a space reads as before. -/
theorem read_applyPosts_outside {sp : Space} {a : Nat} {ps : List Post} {m : Mem} (hwf : m.wf = true)
    (hout : ∀ p ∈ ps, p.space = sp → a < p.addr ∨ p.addr + p.bytes.length ≤ a) : (applyPosts sp m ps).read a = m.read a := by
  induction ps generalizing m with
  | nil => rfl
  | cons p ps ih =>
    obtain ⟨hp, hps⟩ := List.forall_mem_cons.mp hout
    simp only [applyPosts]
    split
    next hsp => rw [ih (Mem.writeBytes_wf _ _ _ hwf) hps, Mem.read_writeBytes_outside _ _ _ _ hwf (hp hsp)]
    next => exact ih hwf hps

/-- Settles O6: the end of a step changes a memory by the posted writes of its space alone. -/
theorem postsFrame : Obligations.PostsFrame := by
  unfold Obligations.PostsFrame
  intro s t u sp a hwf hfin hout
  obtain ⟨hhost, hxbuf, _⟩ := (State.memWf_iff s).mp hwf
  obtain ⟨_, _, hhost', hxbuf'⟩ := finish_next s t u hfin
  cases sp with
  | host =>
    show u.hostMem.read a = s.hostMem.read a
    rw [hhost', read_applyPosts_outside hhost hout]
  | xbuf =>
    show u.xbuf.read a = s.xbuf.read a
    rw [hxbuf', read_applyPosts_outside hxbuf hout]

end Sys2Proof.Machine

namespace Sys2Proof.Machine

/-! Reserved offsets of the mailbox window (R513). -/

/-- The offsets between the blocks of the mailbox window, and those below 0x100 after the ring's registers (Table 22-3). -/
def MailboxGap (o : Nat) : Prop :=
  (0x44 ≤ o ∧ o < 0x100) ∨ (0x1C8 ≤ o ∧ o < 0x400) ∨ (0x600 ≤ o ∧ o < 0xA00) ∨ (0xB08 ≤ o ∧ o < 0x2000) ∨ (0x3028 ≤ o ∧ o < 0x10000)

/-- The ring's registers end at 0x44 (Table 18-16). -/
theorem readRingRegs_of_ge {o : Nat} (h : 0x44 ≤ o) (s : State) : readRingRegs o s = (0, s) := by
  unfold readRingRegs
  dsimp only
  split
  case h_17 => rfl
  all_goals omega

theorem writeRingRegs_of_ge {o : Nat} (h : 0x44 ≤ o) (v : Nat) (s : State) : writeRingRegs o v s = s := by
  unfold writeRingRegs
  dsimp only
  split
  case h_8 => rfl
  all_goals omega

theorem readMailbox_of_gap {o : Nat} (h : MailboxGap o) (s : State) : readMailbox o s = (0, s) := by
  by_cases hring : o < 0x100
  · obtain ⟨hlow, _⟩ : 0x44 ≤ o ∧ o < 0x100 := by unfold MailboxGap at h; omega
    rw [readMailbox, if_pos hring, readRingRegs_of_ge hlow]
  · unfold MailboxGap at h
    rw [readMailbox]
    repeat rw [if_neg (by omega)]
    rfl

theorem writeMailbox_of_gap {o : Nat} (h : MailboxGap o) (v : Nat) (s : State) : writeMailbox o v s = s := by
  by_cases hring : o < 0x100
  · obtain ⟨hlow, _⟩ : 0x44 ≤ o ∧ o < 0x100 := by unfold MailboxGap at h; omega
    rw [writeMailbox, if_pos hring, writeRingRegs_of_ge hlow]
  · unfold MailboxGap at h
    rw [writeMailbox]
    repeat rw [if_neg (by omega)]

/-- Settles O10: no register of the mailbox window has an offset in a gap. -/
theorem reservedOffsets : Obligations.ReservedOffsets := by
  unfold Obligations.ReservedOffsets
  intro s o v haligned hgap
  have hword : o / 4 * 4 = o := by omega
  simp only [readReg, writeReg, hword, readMailbox_of_gap hgap, writeMailbox_of_gap hgap]
  exact ⟨rfl, trivial⟩

end Sys2Proof.Machine

namespace Sys2Proof.Machine

/-! Status words and warm starts: the codes of R21, and the two warm flags of R23. -/

theorem Code.num_le (c : Code) : c.num ≤ 8 := by
  cases c <;> decide

/-- A status word is its code and multiples of 256 (R19). -/
theorem statusCode_statusWord (code : Code) (n : Nat) (f : PourFlags) : statusCode (statusWord code n f) = code.num := by
  have hcode := code.num_le
  simp only [statusCode, statusWord, BitVec.toNat_ofNat]
  omega

/-- A warm-start record with both warm flags is CKPT_FORMAT (R262). -/
theorem warmStatus_ne_of_ckptFormat {bs : List Byte} (h : ckptFormatBad bs = false) : u32 bs (u32 bs 0x34 + 8) ≠ 0x600 := by
  intro hboth
  have hwarm : ckptWarmBad bs = true := by simp [ckptWarmBad, hboth]
  simp [ckptFormatBad, hwarm] at h

/-- A point mapped from another image is mapped where a block matched and cold where none did, not both (R86, R87). -/
theorem not_mapped_and_cold_mapWarm (tgt src : Image) (it : Iterate) : ¬ ((mapWarm tgt src it).mapped = true ∧ (mapWarm tgt src it).cold = true) := by
  simp only [mapWarm, Bool.and_eq_true, decide_eq_true_eq, beq_iff_eq]
  omega

theorem not_mapped_and_cold_warmOf (s : State) (p : Nat) (q : Prob) (im : Image) :
    ¬ ((warmOf s p q im).1.mapped = true ∧ (warmOf s p q im).1.cold = true) := by
  unfold warmOf
  split
  next => exact not_mapped_and_cold_mapWarm _ _ _
  next => simp [coldPoint]

/-- A release leaves at most one warm flag, where the record it resumes from has at most one (R23, R263). -/
theorem not_mapped_and_cold_withWarm {s : State} {p : Nat} {q : Prob} {im : Image} {t : Steep} (hmapped : t.warmMapped = false)
    (hrec : ∀ r, q.resume.warm = some r → ¬ (r.flags.getLsbD 9 = true ∧ r.flags.getLsbD 10 = true)) :
    ¬ ((withWarm s p q im t).1.warmMapped = true ∧ (withWarm s p q im t).1.warmCold = true) := by
  unfold withWarm
  split
  next => simp [hmapped]
  next =>
    split
    next r hr => exact hrec r hr
    next => exact not_mapped_and_cold_warmOf s p q im

/-- Settles O60: the word's code is its lowest byte, and each source of a warm start raises at most one of the two flags. -/
theorem pourFlagsLegal : Obligations.PourFlagsLegal := by
  unfold Obligations.PourFlagsLegal
  refine ⟨fun code n f => ?_, fun bs => warmStatus_ne_of_ckptFormat, fun s p q im t hmapped _ hrec => not_mapped_and_cold_withWarm hmapped hrec⟩
  rw [statusCode_statusWord]
  exact code.num_le

end Sys2Proof.Machine

namespace Sys2Proof.Machine

/-! The state at reset (Tables 22-3 and 22-4). -/

/-- At reset every source has its own vector (R435). -/
theorem readReg_irqMap_reset {k : Nat} (hk : k < 48) : (readReg .mailbox (0x100 + 4 * k) State.reset).1 = BitVec.ofNat 32 k := by
  decide +revert +kernel

/-- Settles O7: every table is empty at reset, and the registers read their reset words. -/
theorem resetState : Obligations.ResetState := by
  unfold Obligations.ResetState
  refine ⟨rfl, rfl, rfl, fun _ => rfl, fun _ => rfl, fun _ => rfl, fun _ => rfl, fun _ => rfl, fun _ => rfl, fun _ => rfl, rfl, rfl, rfl,
    fun k hk => readReg_irqMap_reset hk, ?_⟩
  decide +kernel

end Sys2Proof.Machine


namespace Sys2Proof.Machine

/-! PROBLEM_ENABLE in range (R26, R38, R39, R182). -/

/-- The two checks of R26 pass on a schedule block in range. -/
theorem firstFail_schedChecks_pass {m : Cmd} {s : State} (hsched : schedBad (argBytes m.c) = false)
    (himage : schedImageBad (prob s (pOf m)) (parseSched (argBytes m.c)) = false) : firstFail (schedChecks s m) = none := by
  simp [schedChecks, hsched, himage]

/-- How an enable is answered: with its status, or by the end of staging (R182). -/
def enableReply (r : State × Option Status) : State × Reply :=
  match r.2 with
  | some st => (r.1, .done st [])
  | none => (r.1, .held .enable true)

/-- PROBLEM_ENABLE of a LOADED problem whose schedule block is in range runs the admission test. -/
theorem effEnable_loaded (c : CmdIn) (s : State) (h : Runs c s = true) (hn : Named c = true) (hst : (prob s c.p).st = .loaded)
    (hsched : schedBad (argBytes c) = false) (himage : schedImageBad (prob s c.p) (parseSched (argBytes c)) = false) :
    effEnable (cmdOf 0x0301 c s) (taken c s) = enableReply (enableWith c.p (parseSched (argBytes c)) id (taken c s)) := by
  have hst' : (prob (taken c s) (pOf (cmdOf 0x0301 c s))).st = .loaded := hst
  rw [effEnable, checked_pass]
  · rw [hst']
    rfl
  · rw [List.append_assoc, desc_named 0x0301 c s h hn, hst']
    exact firstFail_schedChecks_pass (m := cmdOf 0x0301 c s) (s := taken c s) hsched himage

/-- A command that runs at once and enables a problem completes, or stays in flight while weights are staged (R182). -/
theorem submit_enables {op : W16} {eff : Cmd → State → State × Reply} {c : CmdIn} {s : State} {r : State × Option Status} (h : Runs c s = true)
    (heff : eff (cmdOf op c s) (taken c s) = enableReply r) :
    finish s (submit op eff c s) = (match r.2 with
      | some st => ends op c s st [] r.1
      | none => begins op c s .enable true r.1) := by
  obtain ⟨t, _ | st⟩ := r
  · exact submit_begins op eff c s t .enable true h heff
  · exact submit_ends op eff c s t st [] h heff

/-- An enable that the admission test refuses leaves what the test left (R38). -/
theorem enableWith_refused {p : Nat} {k : Sched} {f : Prob → Prob} {s : State} (h : (admitRun s p k).1 = none) :
    enableWith p k f s = ((admitRun s p k).2, some stAdmitRefused) := by
  simp only [enableWith, h]

/-- The admission test draws at most one free value, the members' answer (R360). -/
theorem admitRun_snd (s : State) (p : Nat) (k : Sched) : (admitRun s p k).2 = s ∨ (admitRun s p k).2 = (draw s).2 := by
  unfold admitRun
  dsimp only
  split
  · exact .inl rfl
  · split
    · exact .inl rfl
    · split
      · split
        · exact .inl rfl
        · exact .inr rfl
      · exact .inl rfl

theorem admitRun_frame (s : State) (p : Nat) (k : Sched) : (admitRun s p k).2.probs = s.probs ∧ (admitRun s p k).2.sets = s.sets := by
  obtain hdrawn | hdrawn := admitRun_snd s p k
  · rw [hdrawn]
    exact ⟨rfl, rfl⟩
  · rw [hdrawn]
    exact ⟨rfl, rfl⟩

/-- Settles O16: after the checks the admission test answers, and a refusal has drawn at most a free value. -/
theorem enableCompletes : Obligations.EnableCompletes := by
  unfold Obligations.EnableCompletes
  intro c s h hn hst hsched himage r
  refine ⟨submit_enables h (effEnable_loaded c s h hn hst hsched himage), fun hrefused => ?_⟩
  have hr : r = _ := enableWith_refused hrefused
  obtain ⟨hprobs, hsets⟩ := admitRun_frame (taken c s) c.p (parseSched (argBytes c))
  rw [hr]
  exact ⟨rfl, hprobs, hsets⟩

end Sys2Proof.Machine

namespace Sys2Proof.Machine

/-! Leases: what each operation does to the leases (R428 to R434), and the frames and events that call it. -/

section
variable (s : State)

@[simp] theorem lease_leaseAck (c : Nat) (pl : List Byte) (st : Status) (l : Nat) : lease (leaseAck c pl st s) l = lease s l :=
  congrArg (fun t : Tbl Lease => t.get l) (toClient_leases s c 0x84 _)

@[simp] theorem lease_event (code arg : Nat) (data : List Byte) (l : Nat) : lease (event code arg data s) l = lease s l :=
  congrArg (fun t : Tbl Lease => t.get l) (event_leases s code arg data)

@[simp] theorem lease_modLease_self (l : Nat) (f : Lease → Lease) : lease (modLease l f s) l = f (lease s l) := Tbl.get_mod_self ..

@[simp] theorem lease_grant_self (l : Nat) (w : Waiter) :
    lease (grant l w s) l = { lease s l with
      client := some w.client, epoch := nextEpoch (lease s l).epoch, granted := s.lt, expiry := s.lt + w.duration * 1000
      duration := w.duration, first := w.first, count := w.count } := lease_modLease_self s l _

/-- A freed lease keeps its epoch and its waiters (R430, R434). -/
@[simp] theorem lease_freeLease_self (l : Nat) :
    lease (freeLease l s) l = { epoch := (lease s l).epoch, waiters := (lease s l).waiters } :=
  lease_modLease_self s l fun x => { epoch := x.epoch, waiters := x.waiters }

theorem lease_modLease_of_ne {l k : Nat} (h : k ≠ l) (f : Lease → Lease) : lease (modLease l f s) k = lease s k := by
  simp only [lease, modLease, Tbl.mod, Tbl.get_set, if_neg h]

theorem lease_freeLease_of_ne {l k : Nat} (h : k ≠ l) : lease (freeLease l s) k = lease s k :=
  lease_modLease_of_ne s h fun x => { epoch := x.epoch, waiters := x.waiters }

/-- Freeing a lease discards its open groups (R77). -/
theorem prob_dropLeaseGroups (l p : Nat) : prob (dropLeaseGroups l s) p = dropGroup l (prob s p) := by
  have hget (t : Tbl Prob) : Tbl.get (t.map fun e => (e.1, dropGroup l e.2)) p = dropGroup l (t.get p) := by
    induction t with
    | nil => rfl
    | cons e t ih =>
      simp only [List.map_cons, Tbl.get]
      split
      · rfl
      · exact ih
  exact hget s.probs

/-- An expired lease is FREE with its epoch and its waiters; one that is FREE already stays as it is (R430, R434). -/
theorem lease_expire_self (l : Nat) (st : Status) (code : Nat) (data : Byte → Lease → List Byte) (c : Byte) (h : (lease s l).client = some c) :
    lease (expire l st code data s) l = { epoch := (lease s l).epoch, waiters := (lease s l).waiters } := by
  simp only [expire, h, lease_leaseAck, lease_event, lease_freeLease_self]

theorem expire_of_free {l : Nat} (h : (lease s l).client = none) (st : Status) (code : Nat) (data : Byte → Lease → List Byte) :
    expire l st code data s = s := by
  simp only [expire, h]

/-- An expiry leaves its lease FREE. -/
theorem client_expire_self (l : Nat) (st : Status) (code : Nat) (data : Byte → Lease → List Byte) :
    (lease (expire l st code data s) l).client = none := by
  cases h : (lease s l).client with
  | none => rw [expire_of_free s h, h]
  | some c => rw [lease_expire_self s l st code data c h]

/-- No expiry gives a lease to a client. -/
theorem client_expire_of_free {l : Nat} (h : (lease s l).client = none) (k : Nat) (st : Status) (code : Nat) (data : Byte → Lease → List Byte) :
    (lease (expire k st code data s) l).client = none := by
  by_cases hk : l = k
  · subst hk
    exact client_expire_self s l st code data
  · cases hc : (lease s k).client with
    | none => rw [expire_of_free s hc, h]
    | some c => simp only [expire, hc, lease_leaseAck, lease_event, lease_freeLease_of_ne s hk, h]

end

/-- Breaking circles gives no lease to a client (R433). -/
theorem client_breakCircles_of_free {l : Nat} (n : Nat) {s : State} (h : (lease s l).client = none) : (lease (breakCircles n s) l).client = none := by
  induction n generalizing s with
  | zero => exact h
  | succ n ih =>
    rw [breakCircles]
    split
    · exact h
    · split
      · exact h
      · exact ih (client_expire_of_free s h ..)

/-- A snapshot with a circle frees the circle's youngest lease (R433). -/
theorem client_breakCircles_youngest {l n : Nat} {cs : List Nat} {s : State} (hcircle : findCircle s = some cs) (hl : youngest s cs = some l) :
    (lease (breakCircles (n + 1) s) l).client = none := by
  simp only [breakCircles, hcircle, hl]
  exact client_breakCircles_of_free n (client_expire_self s l ..)

/-- A snapshot without a circle changes nothing (R433). -/
theorem breakCircles_of_none {s : State} (h : findCircle s = none) (n : Nat) : breakCircles n s = s := by
  cases n with
  | zero => rfl
  | succ n => simp only [breakCircles, h]

/-! ### Lease operations of a client (Table 18-13) -/

/-- A DURATION in range (R428). -/
def DurationOk (pl : List Byte) : Prop := 50 ≤ u32 pl 8 ∧ u32 pl 8 ≤ 10000000

/-- A range of problems that a lease can cover (R428). -/
def RangeOk (pl : List Byte) : Prop := 1 ≤ u16 pl 14 ∧ u16 pl 12 + u16 pl 14 ≤ 1024

/-- The lease is the client's own: held by it with the payload's epoch, and not yet due to expire (R428). -/
def Mine (s : State) (c : Byte) (pl : List Byte) : Prop :=
  (lease s (u16 pl 2)).client = some c ∧ (lease s (u16 pl 2)).epoch = BitVec.ofNat 32 (u32 pl 4) ∧ s.lt < (lease s (u16 pl 2)).expiry

section
variable {s : State} {c : Byte} {pl : List Byte}

/-- ACQUIRE of a lease that the client does not hold, or holds with this epoch, passes its checks. -/
theorem leaseOp_acquire (hop : u8 pl 0 = 0) (hd : DurationOk pl) (hr : RangeOk pl)
    (hl : u16 pl 2 = 0xFFFF ∨ (u16 pl 2 < 512 ∧ ((lease s (u16 pl 2)).client ≠ some c ∨ Mine s c pl))) :
    leaseOp c pl s = acquire c (u16 pl 2) ⟨c, u32 pl 8, u16 pl 12, u16 pl 14⟩ pl s := by
  obtain ⟨hd1, hd2⟩ := hd
  obtain ⟨hr1, hr2⟩ := hr
  have hdur : ¬ (u32 pl 8 < 50 ∨ 10000000 < u32 pl 8) := by omega
  have hrange : ¬ (1024 < u16 pl 12 + u16 pl 14 ∨ u16 pl 14 < 1) := by omega
  have hid : ¬ (512 ≤ u16 pl 2 ∧ (u16 pl 2 ≠ 0xFFFF ∨ (0 : Nat) ≠ 0)) := by omega
  have hmine : ((decide (u16 pl 2 < 512) && (lease s (u16 pl 2)).client == some c) && !(decide (u16 pl 2 < 512) && (lease s (u16 pl 2)).client == some c
      && (lease s (u16 pl 2)).epoch == BitVec.ofNat 32 (u32 pl 4) && decide (s.lt < (lease s (u16 pl 2)).expiry))) = false := by
    obtain hall | ⟨hlow, hother | ⟨hclient, hepoch, hexpiry⟩⟩ := hl
    · simp [hall]
    · simp [hother]
    · simp [hlow, hclient, hepoch, hexpiry]
  simp only [leaseOp, hop, hmine, hdur, hrange, hid, firstFail_cons, firstFail_nil]
  simp

/-- RENEW of the client's own lease moves its expiry. -/
theorem leaseOp_renew (hop : u8 pl 0 = 1) (hl : u16 pl 2 < 512) (hd : DurationOk pl) (hmine : Mine s c pl) :
    ∃ ack, leaseOp c pl s = leaseAck c.toNat ack stOk
      (modLease (u16 pl 2) (fun x => { x with duration := u32 pl 8, expiry := s.lt + u32 pl 8 * 1000 }) s) := by
  obtain ⟨hd1, hd2⟩ := hd
  obtain ⟨hclient, hepoch, hexpiry⟩ := hmine
  have hdur : ¬ (u32 pl 8 < 50 ∨ 10000000 < u32 pl 8) := by omega
  have hid : ¬ 512 ≤ u16 pl 2 := by omega
  simp [leaseOp, hop, hl, hdur, hid, hclient, hepoch, hexpiry]
  exact ⟨_, rfl⟩

/-- RELEASE of the client's own lease frees it. -/
theorem leaseOp_release (hop : u8 pl 0 = 2) (hl : u16 pl 2 < 512) (hmine : Mine s c pl) :
    ∃ ack, leaseOp c pl s = leaseAck c.toNat ack stOk (freeLease (u16 pl 2) s) := by
  obtain ⟨hclient, hepoch, hexpiry⟩ := hmine
  have hid : ¬ 512 ≤ u16 pl 2 := by omega
  simp [leaseOp, hop, hl, hid, hclient, hepoch, hexpiry]
  exact ⟨_, rfl⟩

/-- RELEASE of a lease that the client awaits gives up waiting. -/
theorem leaseOp_giveUp (hop : u8 pl 0 = 2) (hl : u16 pl 2 < 512) (hother : (lease s (u16 pl 2)).client ≠ some c)
    (hwaits : (lease s (u16 pl 2)).waiters.any (fun w => w.client == c) = true) :
    leaseOp c pl s = leaseAck c.toNat pl stOk
      (modLease (u16 pl 2) (fun x => { x with waiters := x.waiters.filter (fun w => w.client != c) }) s) := by
  have hid : ¬ 512 ≤ u16 pl 2 := by omega
  simp only [leaseOp, hop, hid, hwaits]
  simp [hother]

/-- ACQUIRE of a lease that is FREE without waiters, or of any where the lowest such one is taken, grants it. -/
theorem acquire_grants {k : Nat} (w : Waiter)
    (h : (u16 pl 2 < 512 ∧ k = u16 pl 2 ∧ (lease s (u16 pl 2)).client = none ∧ (lease s (u16 pl 2)).waiters = [])
      ∨ (u16 pl 2 = 0xFFFF ∧ lowestFree s = some k)) :
    ∃ ack, acquire c (u16 pl 2) w pl s = leaseAck c.toNat ack stOk (grant k w s) := by
  obtain ⟨hlow, rfl, hfree, hnone⟩ | ⟨hall, hk⟩ := h
  · have hid : u16 pl 2 ≠ 0xFFFF := by omega
    simp [acquire, hid, hfree, hnone]
    exact ⟨_, rfl⟩
  · simp [acquire, hall, hk]
    exact ⟨_, rfl⟩

/-- ACQUIRE of the client's own lease renews it with the payload's range. -/
theorem acquire_renews (w : Waiter) (hl : u16 pl 2 < 512) (h : (lease s (u16 pl 2)).client = some c) :
    ∃ ack, acquire c (u16 pl 2) w pl s = leaseAck c.toNat ack stOk (modLease (u16 pl 2)
      (fun x => { x with duration := w.duration, expiry := s.lt + w.duration * 1000, first := w.first, count := w.count }) s) := by
  have hid : u16 pl 2 ≠ 0xFFFF := by omega
  simp [acquire, hid, h]
  exact ⟨_, rfl⟩

/-- ACQUIRE of a lease that another holds or awaits waits behind the others. -/
theorem acquire_waits (w : Waiter) (hl : u16 pl 2 < 512) (hother : (lease s (u16 pl 2)).client ≠ some c)
    (hbusy : (lease s (u16 pl 2)).client ≠ none ∨ (lease s (u16 pl 2)).waiters ≠ [])
    (hfirst : s.leases.any (fun e => e.2.waiters.any (fun v => v.client == c)) = false) :
    acquire c (u16 pl 2) w pl s = leaseAck c.toNat pl stLeaseWaiting (modLease (u16 pl 2) (fun x => { x with waiters := x.waiters ++ [w] }) s) := by
  have hid : u16 pl 2 ≠ 0xFFFF := by omega
  have hbusy' : ¬ ((lease s (u16 pl 2)).client = none ∧ (lease s (u16 pl 2)).waiters = []) :=
    fun h => hbusy.elim (fun hc => hc h.1) (fun hw => hw h.2)
  simp [acquire, hid, hother, hbusy', hfirst]

end

/-! ### The frames -/

/-- A payload whose OP is the row's reaches the operation as it is. -/
theorem set_zero_of_u8 {bs : List Byte} {n : Byte} (h : u8 bs 0 = n.toNat) : bs.set 0 n = bs := by
  cases bs with
  | nil => rfl
  | cons b bs =>
    have hb : b = n := BitVec.eq_of_toNat_eq (by simpa [u8, fieldN, leNat] using h)
    rw [hb, List.set_cons_zero]

/-- A LEASE frame that passes the switch and its header's checks has its operation's effect (R351, R428). -/
theorem doLeaseFrame_of_passed {f : FrameIn} {s u : State} {op : Byte} (hp : passed f s = some u) (hok : YspOk f 16 u = true)
    (hflags : f.flags = 0) (hz : zeroAt f.payload 1 1 = true) (hop : u8 f.payload 0 = op.toNat) (hle : u8 f.payload 0 ≤ 2) :
    doLeaseFrame op f s = leaseOp f.client f.payload (greeted f u) := by
  rw [doLeaseFrame, if_pos hle, set_zero_of_u8 hop]
  exact yspFront_of_passed _ hp hok (by simp [hflags]) (by simp [hz])

/-! ### The events -/

/-- A lease whose EXPIRY LT has reached expires (R430). -/
theorem exec_leaseExpiry_due {l : Fin 512} {c : Byte} {s : State} (hheld : (lease s l).client = some c) (hdue : (lease s l).expiry ≤ s.lt) :
    exec (.leaseExpiry l) s = finish s (expire l stLeaseExpired 0x60 (expiredData 0) s) := by
  have hcond : ((lease s l).client.isSome && decide ((lease s l).expiry ≤ s.lt)) = true := by simp [hheld, hdue]
  exact congrArg (finish s) (if_pos hcond)

/-- An expiry discards the lease's open groups (R430). -/
theorem groups_expire {l : Nat} {c : Byte} {s : State} (h : (lease s l).client = some c) (st : Status) (code : Nat)
    (data : Byte → Lease → List Byte) (p : Nat) :
    (prob (expire l st code data s) p).groups = (prob s p).groups.filter (fun g => g.lease != l) := by
  simp only [expire, h, prob, leaseAck, toClient_probs, event_probs]
  exact congrArg Prob.groups (prob_dropLeaseGroups _ l p)

/-- A FREE lease with waiters goes to its first one (R428). -/
theorem exec_leaseWaiterGrant {l : Fin 512} {w : Waiter} {ws : List Waiter} {s : State} (hfree : (lease s l).client = none)
    (hwaiters : (lease s l).waiters = w :: ws) :
    ∃ ack, exec (.leaseWaiterGrant l) s
      = finish s (leaseAck w.client.toNat ack stOk (grant l w (modLease l (fun x => { x with waiters := ws }) s))) := by
  have hdo : exec (.leaseWaiterGrant l) s = finish s (doWaiterGrant l s) := rfl
  rw [hdo, doWaiterGrant, hfree, hwaiters]
  exact ⟨_, rfl⟩

/-- Settles O37: each frame reaches its operation, which changes its lease as Table 18-13 says, and an expiry only ever frees a lease. -/
theorem leaseEventsComplete : Obligations.LeaseEventsComplete := by
  unfold Obligations.LeaseEventsComplete
  intro s
  refine ⟨?frames, ?expiry, ?waiter, ?circle, ?calm⟩
  case frames =>
    intro f u hp hok hflags hz v l d mine
    have hframe {op : Byte} (hop : u8 f.payload 0 = op.toNat) (hle : u8 f.payload 0 ≤ 2) :
        finish s (doLeaseFrame op f s) = .next (carried s (leaseOp f.client f.payload v)) :=
      congrArg (finish s) (doLeaseFrame_of_passed hp hok hflags hz hop hle)
    refine ⟨?acquire, ?renew, ?release⟩
    case acquire =>
      intro hop hd1 hd2 hcount hrange
      have hexec : exec (.leaseAcquire f) s = .next (carried s (leaseOp f.client f.payload v)) := hframe hop (by omega)
      rw [hexec]
      refine ⟨?free, ?own, ?busy⟩
      case free =>
        intro k hk
        have hl : u16 f.payload 2 = 0xFFFF ∨ (u16 f.payload 2 < 512 ∧ ((lease v (u16 f.payload 2)).client ≠ some f.client ∨ Mine v f.client f.payload)) := by
          obtain ⟨hlow, -, hfree, -⟩ | ⟨hall, -⟩ := hk
          · exact .inr ⟨hlow, .inl (by rw [show lease v (u16 f.payload 2) = lease v l from rfl, hfree]; exact nofun)⟩
          · exact .inl hall
        obtain ⟨ack, hgrant⟩ := acquire_grants (s := v) (c := f.client) ⟨f.client, u32 f.payload 8, u16 f.payload 12, u16 f.payload 14⟩ hk
        rw [leaseOp_acquire hop ⟨hd1, hd2⟩ ⟨hcount, hrange⟩ hl, hgrant]
        refine ⟨_, rfl, ?_⟩
        simp [d]
      case own =>
        intro hlow hmine
        obtain ⟨ack, hrenew⟩ := acquire_renews (s := v) ⟨f.client, u32 f.payload 8, u16 f.payload 12, u16 f.payload 14⟩ hlow hmine.1
        rw [leaseOp_acquire hop ⟨hd1, hd2⟩ ⟨hcount, hrange⟩ (.inr ⟨hlow, .inr hmine⟩), hrenew]
        refine ⟨_, rfl, ?_⟩
        simp [d, l, hmine.1]
      case busy =>
        intro hlow hother hbusy hfirst
        rw [leaseOp_acquire hop ⟨hd1, hd2⟩ ⟨hcount, hrange⟩ (.inr ⟨hlow, .inl hother⟩), acquire_waits _ hlow hother hbusy hfirst]
        refine ⟨_, rfl, ?_⟩
        simp [d, l]
    case renew =>
      intro hlow hop hd1 hd2 hmine
      have hexec : exec (.leaseRenew f) s = .next (carried s (leaseOp f.client f.payload v)) := hframe hop (by omega)
      obtain ⟨ack, hrenew⟩ := leaseOp_renew hop hlow ⟨hd1, hd2⟩ hmine
      rw [hexec, hrenew]
      refine ⟨_, rfl, ?_⟩
      simp [d, l, hmine.1]
    case release =>
      intro hlow hop
      have hexec : exec (.leaseRelease f) s = .next (carried s (leaseOp f.client f.payload v)) := hframe hop (by omega)
      rw [hexec]
      refine ⟨fun hmine => ?own, fun hother hwaits => ?waits⟩
      case own =>
        obtain ⟨ack, hfree⟩ := leaseOp_release hop hlow hmine
        rw [hfree]
        refine ⟨_, rfl, ?_⟩
        simp [l]
      case waits =>
        rw [leaseOp_giveUp hop hlow hother hwaits]
        refine ⟨_, rfl, ?_⟩
        simp [l]
  case expiry =>
    intro l c hheld hdue
    rw [exec_leaseExpiry_due hheld hdue, finish_eq]
    have hlease := lease_expire_self s l stLeaseExpired 0x60 (expiredData 0) c hheld
    refine ⟨_, rfl, ?_, ?_, ?_, fun p => groups_expire hheld ..⟩ <;> rw [carried_lease, hlease]
  case waiter =>
    intro l w ws hfree hwaiters
    obtain ⟨ack, hgrant⟩ := exec_leaseWaiterGrant hfree hwaiters
    rw [hgrant, finish_eq]
    refine ⟨_, rfl, ?_⟩
    simp
  case circle =>
    intro l cs hcircle hl _
    exact ⟨_, rfl, client_breakCircles_youngest hcircle hl⟩
  case calm =>
    intro hnone
    exact congrArg (finish s) (breakCircles_of_none hnone 512)

end Sys2Proof.Machine

namespace Sys2Proof.Machine

/-! Master commands that run at once: what a command and its state look like to the effect, and an effect whose checks all pass. -/

/-- An address that a descriptor's command cannot use, whatever its opcode (R413, R422). -/
def unusable (c : CmdIn) (a : W64) (n : Nat) : Bool := addrBad { c := c } a n

section
variable (op : W16) (c : CmdIn) (s : State)

@[simp] theorem cmdOf_c : (cmdOf op c s).c = c := rfl
@[simp] theorem cmdOf_op : (cmdOf op c s).op = op := rfl
@[simp] theorem cmdOf_acceptNo : (cmdOf op c s).acceptNo = s.mbx.accepted := rfl
@[simp] theorem cmdOf_nextAt : (cmdOf op c s).nextAt = (prob s c.p).nextSteep := rfl
@[simp] theorem pOf_cmdOf : pOf (cmdOf op c s) = c.p := rfl
@[simp] theorem lenOf_cmdOf : lenOf (cmdOf op c s) = c.length.toNat := rfl
@[simp] theorem addrBad_cmdOf (a : W64) (n : Nat) : addrBad (cmdOf op c s) a n = unusable c a n := rfl
@[simp] theorem inRec_cmdOf : inRec (taken c s) (cmdOf op c s) = recOf c s := rfl
@[simp] theorem prob_taken (p : Nat) : prob (taken c s) p = prob s p := rfl
@[simp] theorem taken_device : (taken c s).device = s.device := rfl
@[simp] theorem taken_probs : (taken c s).probs = s.probs := rfl
@[simp] theorem taken_leases : (taken c s).leases = s.leases := rfl
@[simp] theorem taken_clients : (taken c s).clients = s.clients := rfl
@[simp] theorem taken_rings : (taken c s).rings = s.rings := rfl
@[simp] theorem taken_jobs : (taken c s).jobs = s.jobs := rfl
@[simp] theorem taken_sets : (taken c s).sets = s.sets := rfl
@[simp] theorem taken_time : (taken c s).time = s.time := rfl
@[simp] theorem taken_net : (taken c s).net = s.net := rfl
@[simp] theorem taken_links : (taken c s).links = s.links := rfl
@[simp] theorem taken_faults : (taken c s).faults = s.faults := rfl
@[simp] theorem taken_pwr : (taken c s).pwr = s.pwr := rfl
@[simp] theorem taken_edge : (taken c s).edge = s.edge := rfl
@[simp] theorem taken_lt : (taken c s).lt = s.lt := rfl
@[simp] theorem taken_free : (taken c s).free = s.free := rfl
@[simp] theorem taken_accepted : (taken c s).mbx.accepted = s.mbx.accepted + 1 := rfl
@[simp] theorem lease_taken (l : Nat) : lease (taken c s) l = lease s l := rfl
@[simp] theorem tbase_taken (n : Nat) : tbase (taken c s) n = tbase s n := rfl
@[simp] theorem link_taken (l : Nat) : link (taken c s) l = link s l := rfl
@[simp] theorem port_taken (p : Nat) : port (taken c s) p = port s p := rfl

end

section
variable {op : W16} {eff : Cmd → State → State × Reply} {c : CmdIn} {s t : State} {cs : List (Bool × Status)} {ok : State × Reply}
  {st : Status} {res : List Byte} {a : Await} {k : Bool}

/-- A command whose checks pass and whose effect then answers a status completes with it (R422). -/
theorem submit_ends_of_checked (h : Runs c s = true) (heff : eff (cmdOf op c s) (taken c s) = checked cs (taken c s) ok)
    (hcs : firstFail cs = none) (hok : ok = (t, .done st res)) : finish s (submit op eff c s) = ends op c s st res t :=
  submit_ends op eff c s t st res h (by rw [heff, checked_pass _ _ _ hcs, hok])

/-- A command whose checks pass and whose effect then has to wait stays in flight (R420). -/
theorem submit_begins_of_checked (h : Runs c s = true) (heff : eff (cmdOf op c s) (taken c s) = checked cs (taken c s) ok)
    (hcs : firstFail cs = none) (hok : ok = (t, .held a k)) : finish s (submit op eff c s) = begins op c s a k t :=
  submit_begins op eff c s t a k h (by rw [heff, checked_pass _ _ _ hcs, hok])

/-- A command of which a check fails completes with that status and changes nothing (R422). -/
theorem submit_fails_of_checked (h : Runs c s = true) (heff : eff (cmdOf op c s) (taken c s) = checked cs (taken c s) ok)
    (hcs : firstFail cs = some st) : finish s (submit op eff c s) = ends op c s st [] (taken c s) :=
  submit_ends op eff c s _ st [] h (by rw [heff, checked_fail _ _ _ _ hcs])

end

section
variable {c : CmdIn} {s : State} (op : W16)

theorem firstFail_desc_noProb (h : Runs c s = true) (hn : NoProb c = true) : firstFail (descChecks false false (cmdOf op c s)) = none := by
  have hdesc := desc_noProb op c s h hn []
  rwa [List.append_nil] at hdesc

theorem firstFail_outChecks {n : Nat} (h : OutOk c n = true) : firstFail (outChecks (cmdOf op c s) n) = none := by
  have hout := outChecks_ok op c s n h []
  rwa [List.append_nil] at hout

/-- Checks after checks that all pass. -/
theorem firstFail_append_of_none {a : List (Bool × Status)} (h : firstFail a = none) (b : List (Bool × Status)) :
    firstFail (a ++ b) = firstFail b := by
  induction a with
  | nil => rfl
  | cons x a ih =>
    obtain ⟨bad, st⟩ := x
    rw [firstFail_cons] at h
    split at h
    · exact nomatch h
    · next hgood => rw [List.cons_append, firstFail_cons, if_neg hgood, ih h]

end

section
variable {s : State}

theorem sendVector_accepted (v : Nat) : (sendVector v s).mbx.accepted = s.mbx.accepted := by
  unfold sendVector
  dsimp only
  split <;> rfl

theorem irqNotice_accepted : (irqNotice s).mbx.accepted = s.mbx.accepted := by
  unfold irqNotice
  split
  · rfl
  · split <;> rfl

/-- An interrupt accepts no command. -/
@[simp] theorem raise_accepted (k : Nat) : (raise k s).mbx.accepted = s.mbx.accepted := by
  unfold raise
  split
  · rfl
  · dsimp only
    rw [irqNotice_accepted]
    split
    · rw [sendVector_accepted]
    · rfl

/-- An event accepts no command. -/
@[simp] theorem event_accepted (code arg : Nat) (data : List Byte) : (event code arg data s).mbx.accepted = s.mbx.accepted := by
  have hlog : (logEntry code arg data s).mbx.accepted = s.mbx.accepted := raise_accepted 1
  unfold event
  split
  · rw [raise_accepted, hlog]
  · exact hlog

/-- A completion accepts no command. -/
@[simp] theorem complete_accepted (m : Cmd) (st : Status) (res : List Byte) : (complete m st res s).mbx.accepted = s.mbx.accepted := by
  unfold complete
  dsimp only
  split <;> split
  · split
    · rw [raise_accepted]
      rfl
    · rfl
  · rfl
  · rw [emit_mbx]
    split
    · rw [raise_accepted]
      rfl
    · rfl
  · rfl

@[simp] theorem toClient_accepted (c type : Nat) (payload : List Byte) : (toClient c type payload s).mbx.accepted = s.mbx.accepted := by
  unfold toClient
  dsimp only
  split <;> rfl

end

/-! ### Group 0x01 (R422, R423, R432, R434) -/

section
variable {c : CmdIn} {s : State}

theorem exec_leaseRevoke (h : Runs c s = true) (hn : NoProb c = true) (hl : argN c 0 2 < 512) :
    exec (.leaseRevoke c) s = ends 0x0121 c s stOk [] (expire (argN c 0 2) stLeaseRevoked 0x60 (expiredData 1) (taken c s)) :=
  submit_ends_of_checked h rfl (by simp [desc_noProb _ c s h hn, Nat.not_le.mpr hl]) rfl

theorem expire_accepted (l : Nat) (st : Status) (code : Nat) (data : Byte → Lease → List Byte) :
    (expire l st code data s).mbx.accepted = s.mbx.accepted := by
  unfold expire
  dsimp only
  split
  · rfl
  · rw [leaseAck, toClient_accepted, event_accepted]
    rfl

/-- A revoked or expired lease keeps its epoch and waiters, whoever held it (R434). -/
theorem epoch_waiters_expire (l : Nat) (st : Status) (code : Nat) (data : Byte → Lease → List Byte) :
    (lease (expire l st code data s) l).epoch = (lease s l).epoch ∧ (lease (expire l st code data s) l).waiters = (lease s l).waiters := by
  cases hc : (lease s l).client with
  | none => rw [expire_of_free s hc]; exact ⟨rfl, rfl⟩
  | some c => rw [lease_expire_self s l st code data c hc]; exact ⟨rfl, rfl⟩

/-- Settles O12: each command of the group passes the descriptor's and its output's checks and has its effect. -/
theorem generalCommandsComplete : Obligations.GeneralCommandsComplete := by
  unfold Obligations.GeneralCommandsComplete
  refine ⟨fun c s h hn => ?_, fun c s l h hn hl hlow => ?_⟩
  · have hdesc (op : W16) : firstFail (descChecks false false (cmdOf op c s)) = none := firstFail_desc_noProb op h hn
    have hout {op : W16} {n : Nat} (ho : OutOk c n = true) : firstFail (descChecks false false (cmdOf op c s) ++ outChecks (cmdOf op c s) n) = none := by
      rw [firstFail_append_of_none (hdesc op), firstFail_outChecks op ho]
    refine ⟨?_, fun ho => ?_, fun ho => ?_, fun ho => ?_, exec_leaseRevoke h hn, ?_⟩
    · exact submit_ends_of_checked h rfl (hdesc _) rfl
    · exact submit_ends_of_checked h rfl (hout ho) rfl
    · exact ⟨_, submit_ends_of_checked h rfl (hout ho) rfl⟩
    · exact submit_ends_of_checked h rfl (hout ho) rfl
    · exact submit_ends_of_checked h rfl (hdesc _) rfl
  · subst hl
    obtain ⟨hepoch, hwaiters⟩ := epoch_waiters_expire (s := taken c s) (argN c 0 2) stLeaseRevoked 0x60 (expiredData 1)
    have hleases (l : Nat) (t : State) : lease (complete (cmdOf 0x0121 c s) stOk [] t) l = lease t l :=
      congrArg (fun x : Tbl Lease => x.get l) (complete_leases t ..)
    rw [exec_leaseRevoke h hn hlow, ends, finish_eq]
    refine ⟨_, rfl, ?_, ?_, ?_, ?_, fun hfree => ?_⟩
    · rw [carried_lease, hleases]
      exact client_expire_self ..
    · rw [carried_lease, hleases, hepoch, lease_taken]
    · rw [carried_lease, hleases, hwaiters, lease_taken]
    · rw [carried_mbx, complete_accepted, expire_accepted, taken_accepted]
    · rw [carried_leases, carried_probs, complete_leases, complete_probs, expire_of_free (taken c s) hfree]
      exact ⟨rfl, rfl⟩

end

end Sys2Proof.Machine

namespace Sys2Proof.Machine

/-! Images, loads, infusion and the schedule's commands (R70 to R84, R32, R51). -/

/-- What ends commands in flight changes nothing of the device behind the mailbox (R422). -/
@[simp] theorem endRuns_device (p : Run → Bool) (st : Status) (res : List Byte) (s : State) : (endRuns p st res s).device = s.device := by
  have hall (rs : List Run) (t : State) : (forAll rs (fun r t => complete r.cmd st res t) t).device = t.device := by
    induction rs generalizing t with
    | nil => rfl
    | cons r rs ih => rw [forAll_cons, ih, complete_device]
  unfold endRuns
  rw [hall]
  rfl

@[simp] theorem endAwaitP_device (a : Await) (p : Nat) (st : Status) (res : List Byte) (s : State) : (endAwaitP a p st res s).device = s.device :=
  endRuns_device ..

@[simp] theorem endAwait_device (a : Await) (st : Status) (res : List Byte) (s : State) : (endAwait a st res s).device = s.device :=
  endRuns_device ..

theorem forAll_endJob_device (js : List Job) (q : Prob) (s : State) : (forAll js (endJob q) s).device = s.device := by
  induction js generalizing s with
  | nil => rfl
  | cons j js ih => rw [forAll_cons, ih, endJob, endAwaitP_device, endAwaitP_device]

section
variable {α : Type} [Inhabited α]

/-- A removed entry reads as the default, any other as before. -/
theorem Tbl.get_del (t : Tbl α) (k j : Nat) : (t.del k).get j = if j = k then default else t.get j := by
  induction t with
  | nil => simp [Tbl.del, Tbl.get]
  | cons e t ih =>
    obtain ⟨i, a⟩ := e
    simp only [Tbl.del] at ih
    by_cases hi : i = k
    · subst hi
      simp only [Tbl.del, List.filter_cons, bne_self_eq_false, Bool.false_eq_true, if_false, ih, Tbl.get]
      split
      · rfl
      · next hj => rw [if_neg (Ne.symm hj)]
    · simp only [Tbl.del, List.filter_cons, bne_iff_ne, ne_eq, hi, not_false_eq_true, if_true, Tbl.get, ih]
      by_cases hj : i = j
      · subst hj
        simp [hi]
      · simp [hj]

end

/-- An unloaded problem reads as one that was never loaded, the others as before (R73). -/
theorem prob_unloadProb (s : State) (p q : Nat) : prob (unloadProb p s) q = if q = p then {} else prob s q := by
  have hprobs : (unloadProb p s).probs = s.probs.del p := probs_of_device (forAll_endJob_device ..)
  rw [prob, hprobs, Tbl.get_del]
  rfl

section
variable {c : CmdIn} {s : State}

theorem exec_imageUnload (h : Runs c s = true) (hn : Named c = true) (hst : (prob s c.p).st = .loaded) :
    exec (.imageUnload c) s = ends 0x0202 c s stOk (leBytes 4 (groupsHeld (prob s c.p)) ++ leBytes 4 (entriesHeld (prob s c.p)))
      (unloadProb c.p (taken c s)) :=
  submit_ends_of_checked h rfl (by simp [desc_named _ c s h hn, hst]) rfl

/-- Settles O13: each command passes its checks; an unload deletes the problem's entry. -/
theorem imageCommandsComplete : Obligations.ImageCommandsComplete := by
  unfold Obligations.ImageCommandsComplete
  refine ⟨fun c s h hn => ⟨fun haddr hst => ?load, exec_imageUnload h hn, fun hst ho => ?info, fun hst hmode hsrc => ?warm⟩, fun c s h hn hst => ?unload⟩
  case load =>
    obtain ⟨-, -, -, hrunning, -⟩ := runs_iff c s h
    have hruns : runsOf (taken c s) .imageLoad c.p = [] := by
      have hrun : (taken c s).mbx.running = [] := hrunning
      rw [runsOf, hrun, List.filter_nil]
    have haddr' : unusable c c.addr c.length.toNat = false := haddr
    exact submit_begins_of_checked h rfl (by simp [desc_named _ c s h hn, haddr', hst, hruns]) rfl
  case info =>
    exact submit_ends_of_checked h rfl (by simp [desc_named _ c s h hn, outChecks_ok _ c s 64 ho, hst]) rfl
  case warm =>
    have hrange : ¬ (2 < argN c 0 1 ∨ (argN c 0 1 = 1 ∧ 1023 < argN c 2 2)) := by omega
    exact submit_ends_of_checked h rfl (by simp [desc_named _ c s h hn, hst, hrange]) rfl
  case unload =>
    have hprob (q : Nat) (st : Status) (res : List Byte) :
        prob (complete (cmdOf 0x0202 c s) st res (unloadProb c.p (taken c s))) q = if q = c.p then {} else prob s q := by
      rw [prob, complete_probs, ← prob, prob_unloadProb, prob_taken]
    rw [exec_imageUnload h hn hst, ends, finish_eq]
    refine ⟨_, rfl, ?_⟩
    simp only [carried_prob, hprob, if_true, true_and]
    intro q hq
    simp only [if_neg hq, and_self]

end

end Sys2Proof.Machine

namespace Sys2Proof.Machine

/-! The end of a load, whole groups from the master, and the schedule's commands (R32, R51, R70 to R80). -/

/-- The oldest load in flight ends with its verdict (R70). -/
theorem exec_imageLoadComplete {s : State} {x : Run} (r : LoadIn) (hx : s.mbx.running.find? (fun y => y.await == .imageLoad) = some x) :
    exec (.imageLoadComplete r) s = finish s
      (endRuns (fun y => y.await == .imageLoad && y.cmd.acceptNo == x.cmd.acceptNo) (loadVerdict s x.cmd (inRec s x.cmd) r) []
        (if loadVerdict s x.cmd (inRec s x.cmd) r = stOk
          then { s with probs := s.probs.set (pOf x.cmd) (loadedProb s (parseImage (inRec s x.cmd)) r) } else s)) := by
  have hdo : exec (.imageLoadComplete r) s = finish s (doImageLoadComplete r s) := rfl
  rw [hdo, doImageLoadComplete, hx]

section
variable {c : CmdIn} {s : State}

/-- A whole group of the master that passes its checks is completed at once (R76, R80). -/
theorem exec_infuse_whole (h : Runs c s = true) (hn : Named c = true) (hst : (prob s c.p).st ≠ .empty)
    (hp : (parseHdr (recOf c s)).problem = c.p) (hin : InOk c (24 + 16 * (parseHdr (recOf c s)).count) = true)
    (hfrag : firstFail (fragmentChecks (recOf c s)) = none) (hfirst : (parseHdr (recOf c s)).first = 0)
    (hwhole : (parseHdr (recOf c s)).count = (parseHdr (recOf c s)).total)
    (hindex : indexBad (prob s c.p) ((entryRecs (recOf c s)).map parseEntry) = false)
    (hdone : (completeGroup c.p ((entryRecs (recOf c s)).map parseEntry) (taken c s)).2 = stOk) :
    exec (.infuse c) s = ends 0x0203 c s stOk
      (wBytes 8 (prob (completeGroup c.p ((entryRecs (recOf c s)).map parseEntry) (taken c s)).1 c.p).commitSeq)
      (completeGroup c.p ((entryRecs (recOf c s)).map parseEntry) (taken c s)).1 := by
  have hpos : ¬ ((parseHdr (recOf c s)).first ≠ 0 ∨ (parseHdr (recOf c s)).count ≠ (parseHdr (recOf c s)).total) := by
    simp [hfirst, hwhole]
  have hown : ∀ q, some (parseHdr (recOf c s)).problem = some q → q = c.p := fun q hq => (Option.some.inj hq).symm.trans hp
  refine submit_ends_of_checked h rfl ?_ ?_
  · simp only [inRec_cmdOf, List.append_assoc, desc_named _ c s h hn, inChecks_ok _ c s _ _ hin hown]
    simp [firstFail_append_of_none hfrag, hst, hpos, hindex]
  · simp only [pOf_cmdOf, inRec_cmdOf, hdone, if_true]

/-- Settles O14: the verdict ends the load, and a whole group of the master meets no check. -/
theorem loadAndInfuse : Obligations.LoadAndInfuse := by
  unfold Obligations.LoadAndInfuse
  refine ⟨fun s r x hx => exec_imageLoadComplete r hx, ?_⟩
  intro c s h hn hst bs es hp hin hfrag hfirst hwhole hindex hdone
  exact exec_infuse_whole h hn hst hp hin hfrag hfirst hwhole hindex hdone

/-- The scheduler takes a solve request of an ENABLED REQUESTED problem whose weights are in place (R32). -/
theorem solve_ok {p : Nat} (hst : (prob s p).st = .enabled) (hstaging : (prob s p).staging = false) (hreq : (prob s p).sched.requested = true) :
    (solve p s).2 = stOk := by
  simp [solve, hst, hstaging, hreq]

/-- Settles O15: the problem's state decides what a retirement does, and the scheduler takes the request. -/
theorem scheduleCommandsComplete : Obligations.ScheduleCommandsComplete := by
  unfold Obligations.ScheduleCommandsComplete
  intro c s h hn
  refine ⟨fun hst => ?_, fun hst => ?_, fun hst hreq hstaging => ?_⟩
  · exact submit_ends_of_checked h rfl (by simp [desc_named _ c s h hn, hst]) (by simp [hst])
  · exact submit_begins_of_checked h rfl (by simp [desc_named _ c s h hn, hst]) (by simp [hst])
  · refine submit_ends _ effSolve c s _ _ _ h ?_
    have hok : (solve c.p (taken c s)).2 = stOk := solve_ok hst hstaging hreq
    rw [effSolve_eq c s h hn, hok]

end

end Sys2Proof.Machine

namespace Sys2Proof.Machine

/-! Reads of a problem's records, its estimator, its mode of execution and its checkpoints (R46 to R388, R144 to R160, R250 to R265). -/

section
variable {c : CmdIn} {s : State}

/-- The checks of a read of a problem's record of fixed size. -/
theorem firstFail_problemRead {n : Nat} (op : W16) (h : Runs c s = true) (hn : Named c = true) (hst : (prob s c.p).st ≠ .empty)
    (ho : OutOk c n = true) (b : List (Bool × Status)) :
    firstFail (descChecks true false (cmdOf op c s) ++ outChecks (cmdOf op c s) n
      ++ ((prob (taken c s) (pOf (cmdOf op c s))).st == .empty, stNotLoaded) :: b) = firstFail b := by
  simp [desc_named _ c s h hn, outChecks_ok _ c s n ho, hst]

/-- ITERATE_READ of a problem with a poured iterate (R121). -/
theorem exec_iterateRead {bs : List Byte} (h : Runs c s = true) (hn : Named c = true) (hst : (prob s c.p).st ≠ .empty)
    (hrec : iterateRecord (prob s c.p) = some bs) (ho : OutOk c bs.length = true) (haddr : addrBad { c := c } c.addr c.length.toNat = false) :
    exec (.iterateRead c) s = ends 0x0305 c s stOk [] (putRecord c.addr bs (taken c s)) := by
  have haddr' : unusable c c.addr c.length.toNat = false := haddr
  have hroom : ¬ c.length.toNat < bs.length := by
    simp only [OutOk, Bool.and_eq_true, decide_eq_true_eq] at ho
    omega
  refine submit_ends_of_checked h rfl ?_ ?_
  · simp [desc_named _ c s h hn, haddr', hst, hrec, Nat.not_lt.mp hroom]
  · simp only [pOf_cmdOf, prob_taken, hrec]
    rfl

/-- TRAP_READ of a problem that has trapped (R220). -/
theorem exec_trapRead {r : TrapRec} (h : Runs c s = true) (hn : Named c = true) (hst : (prob s c.p).st ≠ .empty)
    (htrap : (prob s c.p).trap = some r) (ho : OutOk c 80 = true) :
    exec (.trapRead c) s = ends 0x030A c s stOk [] (putRecord c.addr (trapRecord c.p (prob s c.p).traps r) (taken c s)) := by
  refine submit_ends_of_checked h rfl ((firstFail_problemRead _ h hn hst ho _).trans ?_) ?_
  · simp [htrap]
  · simp only [pOf_cmdOf, prob_taken, htrap]
    rfl

/-- PLACE_CONSTRAIN of a LOADED problem with a record in range (R387). -/
theorem exec_placeConstrain (h : Runs c s = true) (hn : Named c = true) (hst : (prob s c.p).st = .loaded) (hin : InOk c 32 = true)
    (hp : u16 (recOf c s) 0 = c.p) (hclusters : u64 (recOf c s) 8 ≠ 0) (hquads : u8 (recOf c s) 2 ≤ 3) (hpipes : u8 (recOf c s) 3 ≤ 15)
    (hz : zeroAt (recOf c s) 5 3 = true) (hz' : zeroAt (recOf c s) 16 16 = true) :
    exec (.placeConstrain c) s = ends 0x0311 c s stOk [] (modProb c.p (fun q => { q with
      place := ⟨byteAt (recOf c s) 2, byteAt (recOf c s) 3, byteAt (recOf c s) 4, w64At (recOf c s) 8⟩ }) (taken c s)) := by
  have hown : ∀ q, some (u16 (recOf c s) 0) = some q → q = c.p := fun q hq => (Option.some.inj hq).symm.trans hp
  have hrange : ¬ (u64 (recOf c s) 8 = 0 ∨ 3 < u8 (recOf c s) 2 ∨ 15 < u8 (recOf c s) 3) := by omega
  refine submit_ends_of_checked h rfl ?_ rfl
  simp [desc_named _ c s h hn, inChecks_ok _ c s _ _ hin hown, hst, hrange, hz, hz']

/-- Settles O18: a read meets only the checks of its descriptor, its output and the problem's state. -/
theorem problemReadsComplete : Obligations.ProblemReadsComplete := by
  unfold Obligations.ProblemReadsComplete
  refine ⟨fun c s h hn hst => ?reads, fun c s h hn hst hin => exec_placeConstrain h hn hst hin⟩
  have hread {n : Nat} (op : W16) (ho : OutOk c n = true) := firstFail_problemRead op h hn hst ho []
  exact ⟨fun ho => submit_ends_of_checked h rfl (hread _ ho) rfl, fun bs hrec ho haddr => exec_iterateRead h hn hst hrec ho haddr,
    fun r htrap ho => exec_trapRead h hn hst htrap ho, fun ho => submit_ends_of_checked h rfl (hread _ ho) rfl,
    fun ho => submit_ends_of_checked h rfl (hread _ ho) rfl, fun ho => submit_ends_of_checked h rfl (hread _ ho) rfl⟩

/-! ### Estimators -/

/-- ESTIMATOR_SET of a LOADED estimation problem (R144). -/
theorem exec_estimatorSet {im : Image} (h : Runs c s = true) (hn : Named c = true) (him : (prob s c.p).im = some im)
    (hest : isEst (prob s c.p) = true) (hst : (prob s c.p).st = .loaded) (hp : u16 (recOf c s) 0 = c.p)
    (hin : InOk c (80 + 32 * u16 (recOf c s) 2) = true) (hrange : estBad im (recOf c s) = false) :
    exec (.estimatorSet c) s = ends 0x0307 c s stOk []
      (modProb c.p (fun q => { q with est := { cfg := some (parseEst (recOf c s)) } }) (taken c s)) := by
  have hown : ∀ q, some (u16 (recOf c s) 0) = some q → q = c.p := fun q hq => (Option.some.inj hq).symm.trans hp
  refine submit_ends_of_checked h rfl ?_ rfl
  simp [desc_named _ c s h hn, inChecks_ok _ c s _ _ hin hown, hst, hest, him, hrange]

/-- MEASURE_PUT of 1 to 4,096 samples in range (R148). -/
theorem exec_measurePut {n : Nat} (h : Runs c s = true) (hn : Named c = true) (h1 : 1 ≤ n) (h2 : n ≤ 4096) (hin : InOk c (32 * n) = true)
    (hst : (prob s c.p).st ≠ .empty) (hsamples : (chunks 32 n (recOf c s)).any (sampleBad c.p) = false) :
    exec (.measurePut c) s = ends 0x0308 c s stOk [] (takeSamples c.p (chunks 32 n (recOf c s)) (taken c s)) := by
  obtain ⟨hlen, haddr⟩ : c.length.toNat = 32 * n ∧ addrBad { c := c } c.addr (32 * n) = false := by
    simpa only [InOk, Bool.and_eq_true, beq_iff_eq, Bool.not_eq_true'] using hin
  have haddr' : unusable c c.addr (32 * n) = false := haddr
  have hcount : c.length.toNat / 32 = n := by omega
  have hsize : ¬ (c.length.toNat % 32 ≠ 0 ∨ n < 1 ∨ 4096 < n) := by omega
  have hlen' : lenOf (cmdOf 0x0308 c s) / 32 = n := hcount
  refine submit_ends_of_checked h rfl ?_ ?_
  · simp only [lenOf_cmdOf, hcount, hsize]
    simp [desc_named _ c s h hn, hlen, haddr', hst, hsamples]
  · simp only [hlen', inRec_cmdOf, pOf_cmdOf]
    rfl

/-- ESTIMATOR_READ of an estimation problem (R160). -/
theorem exec_estimatorRead {im : Image} (h : Runs c s = true) (hn : Named c = true) (him : (prob s c.p).im = some im)
    (hest : isEst (prob s c.p) = true) (hst : (prob s c.p).st ≠ .empty) (ho : OutOk c (estRecord (prob s c.p) im).length = true)
    (haddr : addrBad { c := c } c.addr c.length.toNat = false) :
    exec (.estimatorRead c) s = ends 0x0309 c s stOk [] (putRecord c.addr (estRecord (prob s c.p) im) (taken c s)) := by
  have haddr' : unusable c c.addr c.length.toNat = false := haddr
  have hroom : (estRecord (prob s c.p) im).length ≤ c.length.toNat := by
    simp only [OutOk, Bool.and_eq_true, decide_eq_true_eq] at ho
    exact ho.1
  refine submit_ends_of_checked h rfl ?_ ?_
  · simp [desc_named _ c s h hn, haddr', hst, hest, him, hroom]
  · simp only [pOf_cmdOf, prob_taken, him]
    rfl

/-- Settles O19: the three commands pass their checks on the estimator's state and record. -/
theorem estimatorCommandsComplete : Obligations.EstimatorCommandsComplete := by
  unfold Obligations.EstimatorCommandsComplete
  intro c s im h hn him bs
  exact ⟨fun hest hst hp hin hrange => exec_estimatorSet h hn him hest hst hp hin hrange,
    fun n h1 h2 hin hst hsamples => exec_measurePut h hn h1 h2 hin hst hsamples,
    fun hest hst ho haddr => exec_estimatorRead h hn him hest hst ho haddr⟩

/-! ### Fixed order and checkpoints -/

/-- ORDER_MODE_SET of a LOADED problem (R250). -/
theorem exec_orderModeSet (h : Runs c s = true) (hn : Named c = true) (hst : (prob s c.p).st = .loaded) (hmode : argN c 0 1 ≤ 1)
    (hbuilt : argN c 0 1 = 1 → ∃ im, (prob s c.p).im = some im ∧ im.fixedOrderBuilt = true) :
    exec (.orderModeSet c) s = ends 0x030C c s stOk [] (modProb c.p (fun q => { q with fixed := argN c 0 1 == 1 }) (taken c s)) := by
  refine submit_ends_of_checked h rfl ?_ rfl
  by_cases hone : argN c 0 1 = 1
  · obtain ⟨im, him, hfixed⟩ := hbuilt hone
    simp [desc_named _ c s h hn, hst, hone, him, hfixed]
  · simp [desc_named _ c s h hn, hst, hone, Nat.not_lt.mpr hmode]

/-- A steep number of a command's ARGS as a word (R4). -/
theorem toNat_argWord (h : argN c 0 8 < 2 ^ 64) : (BitVec.ofNat 64 (argN c 0 8)).toNat = argN c 0 8 := by
  rw [BitVec.toNat_ofNat, Nat.mod_eq_of_lt h]

/-- ORDER_DIGEST_SET of an ENABLED problem at a steep not yet released (R264). -/
theorem exec_orderDigestSet (h : Runs c s = true) (hn : Named c = true) (hst : (prob s c.p).st = .enabled)
    (hnext : (prob s c.p).nextSteep.toNat ≤ argN c 0 8) (hword : argN c 0 8 < 2 ^ 64) :
    exec (.orderDigestSet c) s = ends 0x0310 c s stOk [] (modProb c.p (restartDigest (BitVec.ofNat 64 (argN c 0 8))) (taken c s)) := by
  have hlate : ¬ (BitVec.ofNat 64 (argN c 0 8)).toNat < (prob s c.p).nextSteep.toNat := by rw [toNat_argWord hword]; omega
  refine submit_ends_of_checked h rfl ?_ rfl
  simp only [desc_named _ c s h hn, firstFail_cons, firstFail_nil, pOf_cmdOf, prob_taken, cmdOf_c, cmdOf_nextAt, hst, hlate]
  rfl

/-- The checks of CHECKPOINT_SAVE of an ENABLED problem without a checkpoint pending (R259). -/
theorem effCkptSave_enabled {im : Image} (h : Runs c s = true) (hn : Named c = true) (him : (prob s c.p).im = some im)
    (haddr : addrBad { c := c } c.addr c.length.toNat = false) (hst : (prob s c.p).st = .enabled)
    (hnext : (prob s c.p).nextSteep.toNat ≤ argN c 0 8) (hword : argN c 0 8 < 2 ^ 64) (hnone : (prob s c.p).ckpt = none) (op : W16) :
    effCkptSave (cmdOf op c s) (taken c s) =
      if c.length.toNat < ckptSize im (prob s c.p) then (taken c s, .done stCkptSpace (leBytes 4 (ckptSize im (prob s c.p))))
      else (modProb c.p (fun q => { q with ckpt := some { atSteep := BitVec.ofNat 64 (argN c 0 8) } }) (taken c s), .held .checkpoint false) := by
  have hlate : ¬ (BitVec.ofNat 64 (argN c 0 8)).toNat < (prob s c.p).nextSteep.toNat := by rw [toNat_argWord hword]; omega
  have haddr' : unusable c c.addr c.length.toNat = false := haddr
  rw [effCkptSave, checked_pass]
  · simp only [lenOf_cmdOf, pOf_cmdOf, prob_taken, him, cmdOf_c]
  · simp only [desc_named _ c s h hn, firstFail_cons, firstFail_nil, pOf_cmdOf, prob_taken, cmdOf_c, cmdOf_nextAt, lenOf_cmdOf, addrBad_cmdOf,
      hst, hlate, haddr', hnone]
    rfl

/-- CHECKPOINT_SAVE waits for its steep where the record has room (R259). -/
theorem exec_checkpointSave {im : Image} (h : Runs c s = true) (hn : Named c = true) (him : (prob s c.p).im = some im)
    (haddr : addrBad { c := c } c.addr c.length.toNat = false) (hst : (prob s c.p).st = .enabled)
    (hnext : (prob s c.p).nextSteep.toNat ≤ argN c 0 8) (hword : argN c 0 8 < 2 ^ 64) (hnone : (prob s c.p).ckpt = none) :
    exec (.checkpointSave c) s =
      if c.length.toNat < ckptSize im (prob s c.p) then ends 0x030D c s stCkptSpace (leBytes 4 (ckptSize im (prob s c.p))) (taken c s)
      else begins 0x030D c s .checkpoint false
        (modProb c.p (fun q => { q with ckpt := some { atSteep := BitVec.ofNat 64 (argN c 0 8) } }) (taken c s)) := by
  have heff := effCkptSave_enabled h hn him haddr hst hnext hword hnone 0x030D
  split
  next hroom => exact submit_ends _ effCkptSave c s _ _ _ h (heff.trans (if_pos hroom))
  next hroom => exact submit_begins _ effCkptSave c s _ _ _ h (heff.trans (if_neg hroom))

/-- CHECKPOINT_RESUME of a LOADED problem with a good record enables it (R262, R263). -/
theorem effCkptResume_loaded {im : Image} (h : Runs c s = true) (hn : Named c = true) (him : (prob s c.p).im = some im)
    (haddr : addrBad { c := c } c.addr c.length.toNat = false) (hst : (prob s c.p).st = .loaded) (hlen : c.length.toNat = u32 (recOf c s) 8)
    (hformat : ckptFormatBad (recOf c s) = false) (hmatch : ckptMismatch (prob s c.p) im (parseSched (argBytes c)) (recOf c s) = false)
    (hsizes : ckptSizesBad im (recOf c s) = false) (hsched : schedBad (argBytes c) = false)
    (himage : schedImageBad (prob s c.p) (parseSched (argBytes c)) = false) (op : W16) :
    effCkptResume (cmdOf op c s) (taken c s) = enableReply (enableWith c.p (parseSched (argBytes c)) (resumeWith im (recOf c s)) (taken c s)) := by
  have haddr' : unusable c c.addr c.length.toNat = false := haddr
  have hchecks : firstFail (schedChecks (taken c s) (cmdOf op c s)) = none := firstFail_schedChecks_pass hsched himage
  rw [effCkptResume, checked_pass]
  · simp only [inRec_cmdOf, pOf_cmdOf, prob_taken, him, cmdOf_c, Option.getD_some]
    rfl
  · simp only [List.append_assoc, List.cons_append, List.nil_append, desc_named _ c s h hn, firstFail_cons, inRec_cmdOf, pOf_cmdOf, prob_taken,
      cmdOf_c, lenOf_cmdOf, addrBad_cmdOf, him, Option.getD_some, hst, hlen, hformat, hmatch, hsizes, hchecks]
    rw [← hlen, haddr']
    simp

/-- Settles O20: the checks of each command pass, and a resume runs as an enable does. -/
theorem orderAndCheckpointCommands : Obligations.OrderAndCheckpointCommands := by
  unfold Obligations.OrderAndCheckpointCommands
  refine ⟨fun c s h hn => ⟨fun hst hmode hbuilt => exec_orderModeSet h hn hst hmode hbuilt, fun hst ho => ?_,
    fun hst hnext hword => exec_orderDigestSet h hn hst hnext hword⟩, fun c s im h hn him haddr =>
    ⟨fun hst hnext hword hnone => exec_checkpointSave h hn him haddr hst hnext hword hnone, ?_⟩⟩
  · exact submit_ends_of_checked h rfl (firstFail_problemRead _ h hn hst ho []) rfl
  · intro hst bs k hlen hformat hmatch hsizes hsched himage r
    exact submit_enables h (effCkptResume_loaded h hn him haddr hst hlen hformat hmatch hsizes hsched himage 0x030E)

end

end Sys2Proof.Machine

namespace Sys2Proof.Machine

/-! Twin pairs, rigid-body queries and training jobs (R138, R232 to R248, R363 to R371). -/

/-- Merging entries changes a problem's pending store and its count of coalesced entries alone (R79). -/
theorem mergeEntries_eq (es : List Entry) (q : Prob) : mergeEntries es q = { q with pend := (mergeEntries es q).pend, coalesced := (mergeEntries es q).coalesced } := by
  unfold mergeEntries
  induction es generalizing q with
  | nil => rfl
  | cons e es ih =>
    rw [List.foldl_cons, ih]

theorem mergeQueued_params (n : W64) (q : Prob) : (mergeQueued n q).params = q.params := by
  rw [mergeQueued, mergeEntries_eq]

section
variable {c : CmdIn} {s : State}

@[simp] theorem prob_complete (m : Cmd) (st : Status) (res : List Byte) (p : Nat) : prob (complete m st res s) p = prob s p :=
  congrArg (fun t : Tbl Prob => t.get p) (complete_probs s m st res)

@[simp] theorem prob_modProb_self (p : Nat) (f : Prob → Prob) : prob (modProb p f s) p = f (prob s p) := Tbl.get_mod_self ..

/-- What a TWIN_SET leaves of its problem's twin pair: the state of its MODE, the queue merged and emptied (R363). -/
def twinSetProb (forming : Bool) (start : W64) (wait : Nat) (q q' : Prob) : Prob :=
  { mergeQueued (BitVec.allOnes 64) q' with
    twin := { q.twin with
      state := if forming then .forming else .none, start := start, wait := wait, early := none, own := [], partner := [], queue := [], chains := [] } }

/-- TWIN_SET of a problem that waits at no barrier, or of one that is to form, sets its pair (R363). -/
theorem exec_twinSet (h : Runs c s = true) (hn : Named c = true) (hst : (prob s c.p).st ≠ .empty) (hrec : s.faults.recovery = false)
    (hz : zeroAt (argBytes c) 1 3 = true) (hz' : zeroAt (argBytes c) 16 16 = true) (hmode : argN c 0 1 ≤ 1)
    (hform : argN c 0 1 = 1 → (1000 ≤ argN c 4 4 ∧ argN c 4 4 ≤ 50000) ∧ ((prob s c.p).fixed = true ∧ (prob s c.p).sched.requested = false
      ∧ (prob s c.p).sched.period ≠ 0 ∧ (prob s c.p).spans = false ∧ twinLink s = true)
      ∧ (prob s c.p).nextSteep.toNat ≤ (BitVec.ofNat 64 (argN c 8 8)).toNat)
    (hbarrier : argN c 0 1 = 0 → (prob s c.p).atBarrier = none) :
    exec (.twinSet c) s = ends 0x0523 c s stOk [] (modProb c.p
      (twinSetProb (argN c 0 1 == 1) (BitVec.ofNat 64 (argN c 8 8)) (argN c 4 4) (prob s c.p)) (taken c s)) := by
  have hlink : twinLink (taken c s) = twinLink s := rfl
  refine submit_ends_of_checked h rfl ?_ ?_
  · by_cases hone : argN c 0 1 = 1
    · obtain ⟨⟨hw1, hw2⟩, ⟨hfixed, hreq, hperiod, hspans, hup⟩, hnext⟩ := hform hone
      have hwait : ¬ (argN c 4 4 < 1000 ∨ 50000 < argN c 4 4) := by omega
      simp only [desc_named _ c s h hn, firstFail_cons, firstFail_nil, pOf_cmdOf, prob_taken, cmdOf_c, taken_faults, hlink, hrec, hone, hwait, hz, hz',
        hfixed, hreq, hperiod, hspans, hup, Nat.not_lt.mpr hnext]
      simp [hst]
    · have hone' : (argN c 0 1 == 1) = false := by simpa using hone
      simp only [desc_named _ c s h hn, firstFail_cons, firstFail_nil, pOf_cmdOf, prob_taken, cmdOf_c, taken_faults, hrec, hone', hz, hz',
        Nat.not_lt.mpr hmode]
      simp [hst]
  · by_cases hone : argN c 0 1 = 1
    · simp only [pOf_cmdOf, prob_taken, cmdOf_c, hone]
      split <;> rfl
    · have hzero : argN c 0 1 = 0 := by omega
      simp only [pOf_cmdOf, prob_taken, cmdOf_c, hbarrier hzero]
      rfl

/-- JDU_QUERY of a good input with a free pipeline begins (R138, R139). -/
theorem exec_jduQuery {im : Image} (h : Runs c s = true) (hp : c.problem.toNat < 1024) (hst : (prob s c.p).st ≠ .empty)
    (him : (prob s c.p).im = some im) (head bs : List Byte) (size : Nat)
    (hhead : head = getRecord (taken c s) c.addr 0x90)
    (hsize : size = 0x90 + 8 * ((im.treeCoords (u16 head 2)).1 + 2 * (im.treeCoords (u16 head 2)).2))
    (hbs : bs = getRecord (taken c s) c.addr size)
    (hown : u16 head 0 = c.p) (haddr : addrBad { c := c } c.addr 0x90 = false) (haddr' : addrBad { c := c } c.addr size = false)
    (hout : addrBad { c := c } c.addr2 c.length.toNat = false) (hquery : queryBad im bs c.length.toNat = false) (hfree : freePipe (taken c s) = true) :
    exec (.jduQuery c) s = begins 0x0306 c s .jduQuery true { taken c s with query := some (queryOutput (prob s c.p) im bs) } := by
  subst hhead hsize hbs
  obtain ⟨-, -, -, -, -, -, hflags, hrsvd⟩ := runs_iff c s h
  have hflags' : c.flags.toNat / 4 = 0 := by omega
  have hp' : ¬ 1023 < c.p := by unfold CmdIn.p; omega
  have haddr1 : unusable c c.addr 0x90 = false := haddr
  have haddr2 : unusable c c.addr _ = false := haddr'
  have hout' : unusable c c.addr2 c.length.toNat = false := hout
  refine submit_begins_of_checked h rfl ?_ ?_
  · simp only [descChecks, List.cons_append, List.nil_append, firstFail_cons, firstFail_nil, pOf_cmdOf, lenOf_cmdOf, addrBad_cmdOf, prob_taken, cmdOf_c,
      him, Option.getD_some, hflags', hrsvd, hp', hown, haddr1, haddr2, hout', hquery, hfree]
    simp [hst]
  · simp only [pOf_cmdOf, prob_taken, him]
    rfl

/-- Settles O21: TWIN_SET's checks are those of its MODE, and a query begins with its checks passed. -/
theorem twinAndQueryCommands : Obligations.TwinAndQueryCommands := by
  unfold Obligations.TwinAndQueryCommands
  refine ⟨fun c s h hn hst => ⟨fun hrec hz hz' => ⟨?form, ?dissolve⟩, ?status⟩, ?query⟩
  case form =>
    intro hone hw1 hw2 hfixed hreq hperiod hspans hup hword hnext
    have hstart : (BitVec.ofNat 64 (argN c 8 8)).toNat = argN c 8 8 := by rw [BitVec.toNat_ofNat, Nat.mod_eq_of_lt hword]
    rw [exec_twinSet h hn hst hrec hz hz' (by omega) (fun _ => ⟨⟨hw1, hw2⟩, ⟨hfixed, hreq, hperiod, hspans, hup⟩, by omega⟩) (by omega), ends, finish_eq]
    refine ⟨_, rfl, ?_⟩
    simp [twinSetProb, hone, mergeQueued_params]
  case dissolve =>
    intro hzero hbarrier
    rw [exec_twinSet h hn hst hrec hz hz' (by omega) (by omega) (fun _ => hbarrier), ends, finish_eq]
    refine ⟨_, rfl, ?_⟩
    simp [twinSetProb, hzero, mergeQueued_params]
  case status =>
    exact fun ho => submit_ends_of_checked h rfl (firstFail_problemRead _ h hn hst ho []) rfl
  case query =>
    intro c s im h hp hst him head k size bs hown haddr haddr' hout hquery hfree
    exact exec_jduQuery h hp hst him head bs size rfl rfl rfl hown haddr haddr' hout hquery hfree

/-! ### Training jobs -/

/-- The checks of TRAIN_SET with a record in range (R232). -/
theorem effTrainSet_pass (h : Runs c s = true) (hn : Named c = true) (hst : (prob s c.p).st ≠ .empty) (hrec : s.faults.recovery = false)
    (hp : u16 (recOf c s) 0 = c.p) (hlen : jobLengthBad (prob s c.p) (recOf c s) = false)
    (haddr : addrBad { c := c } c.addr c.length.toNat = false) (hretire : (prob s c.p).st ≠ .retiring) (hjob : jobBad (prob s c.p) (recOf c s) = false)
    (hstart : (prob s c.p).nextSteep.toNat ≤ (parseJob (recOf c s)).start) (hroom : jobOf s c.p (u8 (recOf c s) 2) ≠ none ∨ s.jobs.length < 16)
    (op : W16) :
    effTrainSet (cmdOf op c s) (taken c s) =
      match (jobOf s c.p (u8 (recOf c s) 2)).filter Job.stopping with
      | none => ((replaceJob c.p (u8 (recOf c s) 2) (parseJob (recOf c s)) (u16 (recOf c s) 0x4C) (taken c s)).1,
          .done (replaceJob c.p (u8 (recOf c s) 2) (parseJob (recOf c s)) (u16 (recOf c s) 0x4C) (taken c s)).2 [])
      | some _ => (modJob c.p (u8 (recOf c s) 2) (fun j => { j with held := some (parseJob (recOf c s), u16 (recOf c s) 0x4C) }) (taken c s),
          .held (.trainSet (u8 (recOf c s) 2)) true) := by
  have haddr' : unusable c c.addr c.length.toNat = false := haddr
  have hjobOf : jobOf (taken c s) c.p (u8 (recOf c s) 2) = jobOf s c.p (u8 (recOf c s) 2) := rfl
  rw [effTrainSet, checked_pass]
  · rfl
  · simp only [desc_named _ c s h hn, firstFail_cons, firstFail_nil, pOf_cmdOf, prob_taken, inRec_cmdOf, lenOf_cmdOf, addrBad_cmdOf, cmdOf_c, taken_faults,
      taken_jobs, hrec, hp, hlen, haddr', hjob, hjobOf, Nat.not_lt.mpr hstart]
    obtain hsome | hfew := hroom
    · simp [hst, hretire, hsome]
    · simp [hst, hretire, Nat.not_le.mpr hfew]

/-- A job's replacement answers by the free room of HBM, where its start is still to come (R232). -/
theorem replaceJob_eq {p model power : Nat} {k : JobCfg} (h : (prob s p).nextSteep.toNat ≤ k.start) :
    replaceJob p model k power s = if (draw s).1.getLsbD 0 then (startJob p model k power (removeJob p model (draw s).2), stOk)
      else ((draw s).2, stTrainSpace) := by
  rw [replaceJob, if_neg (Nat.not_lt.mpr h)]

/-- Settles O22: each command passes its checks; a stop in progress holds TRAIN_SET, a free value decides on HBM's room. -/
theorem trainingCommandsComplete : Obligations.TrainingCommandsComplete := by
  unfold Obligations.TrainingCommandsComplete
  intro c s h hn hst
  refine ⟨?set, fun j hj => ?stop, fun hj hnext htarget hprev => ?rollback, fun j hj ho => ?status⟩
  case set =>
    intro bs hrec hp hlen haddr hretire hjob hstart hroom
    have heff := effTrainSet_pass h hn hst hrec hp hlen haddr hretire hjob hstart hroom 0x0401
    refine ⟨fun j hj hstop => ?_, fun hrun => ?_⟩
    · refine submit_begins _ effTrainSet c s _ _ _ h (heff.trans ?_)
      rw [show (jobOf s c.p (u8 (recOf c s) 2)).filter Job.stopping = some j by rw [hj]; simp [hstop]]
    · have hnone : (jobOf s c.p (u8 (recOf c s) 2)).filter Job.stopping = none := by
        rw [Option.filter_eq_none_iff]
        exact fun j hj => by simp [hrun j hj]
      have hstart' : (prob (taken c s) c.p).nextSteep.toNat ≤ (parseJob (recOf c s)).start := hstart
      rw [hnone, replaceJob_eq hstart'] at heff
      intro d
      split
      next hroom' =>
        rw [if_pos hroom'] at heff
        exact submit_ends _ effTrainSet c s _ _ _ h heff
      next hroom' =>
        rw [if_neg hroom'] at heff
        exact submit_ends _ effTrainSet c s _ _ _ h heff
  case stop =>
    have hj' : jobOf (taken c s) c.p (argN c 0 1) = some j := hj
    exact submit_begins_of_checked h rfl (by simp [desc_named _ c s h hn, hj']) (by simp [hj'])
  case rollback =>
    have hj' : (jobOf (taken c s) c.p (argN c 0 1)).isNone = false := Option.isNone_eq_false_iff.mpr (Option.isSome_iff_ne_none.mpr hj)
    refine submit_ends_of_checked h rfl ?_ rfl
    simp only [desc_named _ c s h hn, firstFail_cons, firstFail_nil, pOf_cmdOf, prob_taken, cmdOf_c, hj', Nat.not_lt.mpr hnext, Nat.not_lt.mpr htarget]
    by_cases hzero : argN c 1 1 = 0
    · simpa using hprev
    · simp [hzero]
  case status =>
    have hj' : jobOf (taken c s) c.p (argN c 0 1) = some j := hj
    exact submit_ends_of_checked h rfl ((firstFail_problemRead _ h hn hst ho _).trans (by simp [hj'])) (by simp only [pOf_cmdOf, cmdOf_c, hj']; rfl)

end

end Sys2Proof.Machine

namespace Sys2Proof.Machine

/-! Time bases, peer links, and client, gate, stream and port commands (R310 to R326, R335 to R348, R358, R359). -/

/-- A field of one byte is below 256. -/
theorem fieldN_lt (bs : List Byte) (o n : Nat) : fieldN bs o n < 256 ^ n := by
  have hle (l : List Byte) : leNat l < 256 ^ l.length := by
    induction l with
    | nil => exact Nat.one_pos
    | cons b l ih =>
      have hb := b.isLt
      rw [leNat, List.length_cons, Nat.pow_succ']
      omega
  refine Nat.lt_of_lt_of_le (hle _) (Nat.pow_le_pow_right (by decide) ?_)
  rw [List.length_take]
  exact Nat.min_le_left ..

theorem toNat_argByte (c : CmdIn) (i : Nat) : (BitVec.ofNat 8 (argN c i 1)).toNat = argN c i 1 := by
  have hlt : argN c i 1 < 256 ^ 1 := fieldN_lt _ i 1
  rw [BitVec.toNat_ofNat, Nat.mod_eq_of_lt (by omega)]

/-- The time base that a change names reads the change. -/
@[simp] theorem tbase_modTb_self (s : State) (i : Nat) (f : TBase → TBase) : tbase (modTb i f s) i = f (tbase s i) := Tbl.get_mod_self ..

/-- A change of the mailbox leaves the time bases. -/
@[simp] theorem tbase_modMbx (s : State) (i : Nat) (f : Mailbox → Mailbox) : tbase (modMbx f s) i = tbase s i := rfl

section
variable {c : CmdIn} {s : State}

/-! ### Time bases -/

/-- The checks of TB_ENABLE with a record in range (R310, R312). -/
theorem effTbEnable_pass (h : Runs c s = true) (hn : NoProb c = true) (hin : InOk c 40 = true) (hbad : tbRecordBad (recOf c s) = false)
    (hst : (tbase s (u8 (recOf c s) 0)).state = .disabled ∨ (tbase s (u8 (recOf c s) 0)).state = .disabling) (op : W16) :
    effTbEnable (cmdOf op c s) (taken c s) =
      if (tbase s (u8 (recOf c s) 0)).state = .disabling
      then (modTb (u8 (recOf c s) 0) (fun b => { b with held := some (parseTb (recOf c s)) }) (taken c s), .held (.tbEnable (u8 (recOf c s) 0)) false)
      else checked [(tbClash (taken c s) (u8 (recOf c s) 0) (parseTb (recOf c s)), stTbRange)] (taken c s)
        (okay (startTb (u8 (recOf c s) 0) (parseTb (recOf c s)) (taken c s))) := by
  rw [effTbEnable, checked_pass]
  · rfl
  · simp only [List.append_assoc, desc_noProb _ c s h hn, inChecks_ok _ c s none 40 hin nofun, firstFail_cons, firstFail_nil, inRec_cmdOf, hbad,
      tbase_taken]
    obtain hst | hst := hst <;> simp [hst]

/-- TB_DISABLE of a time base that runs begins its shut-down (R311). -/
theorem effTbDisable_runs (h : Runs c s = true) (hn : NoProb c = true) (hlow : argN c 0 1 ≤ 3) (hst : (tbase s (argN c 0 1)).state ≠ .disabled)
    (hst' : (tbase s (argN c 0 1)).state ≠ .disabling) (op : W16) :
    effTbDisable (cmdOf op c s) (taken c s) = (modTb (argN c 0 1) (fun b => { b with state := .disabling, slavePort := none, converging := false })
      (dissolvePair (argN c 0 1) (ungate (argN c 0 1 + 1) (taken c s))), .held (.tbDisable (argN c 0 1)) false) := by
  rw [effTbDisable, checked_pass]
  · simp only [cmdOf_c, tbase_taken]
  · simp [desc_noProb _ c s h hn, Nat.not_lt.mpr hlow]

/-- TB_PAIR of two time bases that serve different domains (R326). -/
theorem effTbPair_pass (h : Runs c s = true) (hn : NoProb c = true) {p q : Nat} (hp : argN c 0 1 = p) (hq : argN c 1 1 = q) (hp3 : p ≤ 3) (hq3 : q ≤ 3)
    (hne : p ≠ q) (hpst : (tbase s p).state ≠ .disabled) (hqst : (tbase s q).state ≠ .disabled) (hpsrc : (tbase s p).source ≠ 0)
    (hqsrc : (tbase s q).source ≠ 0) (hpfree : (tbase s p).partner = none) (hqfree : (tbase s q).partner = none)
    (hdom : (tbase s p).domain ≠ (tbase s q).domain) (op : W16) :
    effTbPair (cmdOf op c s) (taken c s) = okay (modTb p (fun x => { x with partner := some q, standby := false })
      (modTb q (fun x => { x with partner := some p, standby := true }) (taken c s))) := by
  have h255 : q ≠ 255 := by omega
  rw [effTbPair, checked_pass]
  · simp only [cmdOf_c, hp, hq, tbase_taken, h255, if_false]
    rw [checked_pass]
    simp [hne, hpst, hqst, hpsrc, hqsrc, hpfree, hqfree, hdom]
  · simp [desc_noProb _ c s h hn, hp, hq, Nat.not_lt.mpr hp3, Nat.not_lt.mpr hq3]

/-- Settles O23: the time base's state decides whether an enable starts, is held, or has to wait for its partner's end. -/
theorem timeCommandsComplete : Obligations.TimeCommandsComplete := by
  unfold Obligations.TimeCommandsComplete
  intro c s h hn
  refine ⟨?enable, ?disable, fun hlow hfree => ?step, ?pair⟩
  case enable =>
    intro bs hin hbad
    refine ⟨fun hst hclash => ?_, fun hst => ?_⟩
    · refine submit_ends _ effTbEnable c s _ _ _ h ((effTbEnable_pass h hn hin hbad (.inl hst) _).trans ?_)
      rw [if_neg (by rw [hst]; exact nofun), checked_pass _ _ _ (by simp [bs] at hclash ⊢; exact hclash)]
      rfl
    · exact submit_begins _ effTbEnable c s _ _ _ h ((effTbEnable_pass h hn hin hbad (.inr hst) _).trans (if_pos hst))
  case disable =>
    intro n hlow hst hst'
    have hexec := submit_begins _ effTbDisable c s _ _ _ h (effTbDisable_runs h hn hlow hst hst' 0x0502)
    rw [show exec (.tbDisable c) s = _ from hexec, begins, finish_eq]
    refine ⟨_, rfl, ?_⟩
    simp [n]
  case step =>
    exact submit_ends_of_checked h rfl (by simp [desc_noProb _ c s h hn, Nat.not_lt.mpr hlow, hfree]) rfl
  case pair =>
    intro p q hp3 hq3 hne hpst hqst hpsrc hqsrc hpfree hqfree hdom
    exact submit_ends _ effTbPair c s _ _ _ h (effTbPair_pass h hn rfl rfl hp3 hq3 hne hpst hqst hpsrc hqsrc hpfree hqfree hdom _)

end

end Sys2Proof.Machine

namespace Sys2Proof.Machine

/-! Peer links, and client, gate, stream and port commands (R335 to R348, R358, R359). -/

section
variable {c : CmdIn} {s : State}

/-! ### Peer links -/

/-- PLK_DISABLE completes at once, or waits for the links that it drains (R358). -/
theorem exec_plkDisable (h : Runs c s = true) (hn : NoProb c = true) (hz : zeroAt (argBytes c) 1 31 = true) :
    let t := forAll (bitsOf (argN c 0 1) 8) (fun l t => modLink l (fun k => { k with wasEnabled := false }) (drainLink 0 l t)) (taken c s)
    exec (.plkDisable c) s = if drainMask t (argN c 0 1) = 0 then ends 0x0521 c s stOk [] t
      else begins 0x0521 c s (.links (BitVec.ofNat 8 (drainMask t (argN c 0 1)))) false t := by
  intro t
  have hcs : firstFail (descChecks false false (cmdOf 0x0521 c s) ++ [(!zeroAt (argBytes c) 1 31, stPlkRange)]) = none := by
    simp [desc_noProb _ c s h hn, hz]
  split
  next hd => exact submit_ends_of_checked h rfl hcs (if_pos hd)
  next hd => exact submit_begins_of_checked h rfl hcs (if_neg hd)

/-- A check that does not fail leaves the answer to the checks after it. -/
theorem firstFail_cons_of_false {b : Bool} (hb : b = false) (st : Status) (cs : List (Bool × Status)) :
    firstFail ((b, st) :: cs) = firstFail cs := by
  rw [firstFail_cons, hb]
  rfl

/-- A group record whose rank, size and links are in range is not refused (R359). -/
theorem group_inRange (hrank : argN c 1 1 < argN c 2 1) (hsize : argN c 2 1 ≤ 8)
    (hlinks : ∀ r, r < argN c 2 1 → r ≠ argN c 1 1 → argN c (8 + r) 1 ≤ 7) :
    (decide (8 < argN c 2 1 ∨ argN c 2 1 < 1 ∨ argN c 2 1 ≤ argN c 1 1) ||
      (((List.range 8).map (fun r => BitVec.ofNat 8 (argN c (8 + r) 1))).zipIdx).any
        (fun x => decide (x.2 < argN c 2 1 ∧ x.2 ≠ argN c 1 1 ∧ 7 < x.1.toNat))) = false := by
  rw [Bool.or_eq_false_iff]
  refine ⟨decide_eq_false (by omega), ?_⟩
  rw [List.any_eq_false]
  rintro ⟨b, r⟩ hb
  have hget := List.mem_zipIdx_iff_getElem?.mp hb
  rw [List.getElem?_map] at hget
  simp only [Option.map_eq_some_iff, List.getElem?_eq_some_iff, List.getElem_range] at hget
  obtain ⟨r', ⟨hr8, rfl⟩, rfl⟩ := hget
  simp only [toNat_argByte, decide_eq_true_eq]
  rintro ⟨hr, hne, hbig⟩
  exact absurd (hlinks _ hr hne) (Nat.not_le.mpr hbig)

/-- A number of one byte that is not zero is not zero as a byte. -/
theorem argByte_ne_zero {i : Nat} (h : argN c i 1 ≠ 0) : BitVec.ofNat 8 (argN c i 1) ≠ 0#8 :=
  fun hz => h ((toNat_argByte c i).symm.trans (congrArg BitVec.toNat hz))

/-- Settles O25: links are handled one by one, and a group record in range is stored and exchanged. -/
theorem peerCommandsComplete : Obligations.PeerCommandsComplete := by
  unfold Obligations.PeerCommandsComplete
  intro c s h hn
  refine ⟨fun hz => ?enable, fun hz => exec_plkDisable h hn hz, fun hrec h0 hz3 hz16 hspan => ?dissolve, ?set⟩
  case enable => exact submit_ends_of_checked h rfl (by simp [desc_noProb _ c s h hn, hz]) rfl
  case dissolve =>
    have h0' : BitVec.ofNat 8 (argN c 0 1) = 0 := by rw [h0]; rfl
    exact submit_ends_of_checked h rfl (by simp [desc_noProb _ c s h hn, hrec, hz3, hz16, h0, hspan]) (if_pos h0')
  case set =>
    intro g wrong hrec h0 hrank hsize hlinks hz3 hz16
    refine submit_ends_of_checked h rfl ?_ (if_neg (argByte_ne_zero h0))
    rw [desc_noProb _ c s h hn]
    have hfields : (!zeroAt (argBytes c) 3 5 || !zeroAt (argBytes c) 16 16) = false := by simp [hz3, hz16]
    have hgroup := group_inRange hrank hsize hlinks
    have hid : (BitVec.ofNat 8 (argN c 0 1) == 0) = false := beq_eq_false_iff_ne.mpr (argByte_ne_zero h0)
    exact (firstFail_cons_of_false hrec ..).trans ((firstFail_cons_of_false
      (Bool.or_eq_false_iff.mpr ⟨hfields, Bool.and_eq_false_iff.mpr (.inr hgroup)⟩) ..).trans
      (firstFail_cons_of_false (Bool.and_eq_false_iff.mpr (.inl hid)) ..))

/-! ### Clients, gates, streams and ports -/

/-- The index of a stream entry is below 512 (Table 15-6). -/
theorem streamCount_le (kind : Nat) : streamCount kind ≤ 512 := by
  unfold streamCount
  split <;> decide

/-- The range check of a STREAM_SET passes: its index is one of the kind's, or asks for a free one (R344). -/
theorem stream_inRange {bs : List Byte} {del : Bool} (hkind : u8 bs 0 ≤ 4) (hflags : u8 bs 1 ≤ 3) (hz : zeroAt bs 4 4 = true)
    (hindex : u16 bs 2 < streamCount (u8 bs 0) ∨ u16 bs 2 = 0xFFFF ∧ del = false) (hentry : del = false → streamEntryBad (u8 bs 0) (bs.drop 8) = false) :
    (decide (4 < u8 bs 0 ∨ (streamCount (u8 bs 0) ≤ u16 bs 2 ∧ (u16 bs 2 ≠ 0xFFFF ∨ del = true)) ∨ 3 < u8 bs 1) || !zeroAt bs 4 4
      || (!del && streamEntryBad (u8 bs 0) (bs.drop 8))) = false := by
  have hrange : ¬ (4 < u8 bs 0 ∨ (streamCount (u8 bs 0) ≤ u16 bs 2 ∧ (u16 bs 2 ≠ 0xFFFF ∨ del = true)) ∨ 3 < u8 bs 1) := by
    rintro (hk | ⟨hi, hne⟩ | hf)
    · omega
    · obtain hlt | ⟨hff, hdel⟩ := hindex
      · omega
      · exact hne.elim (absurd hff) fun hd => Bool.noConfusion (hd.symm.trans hdel)
    · omega
  rw [decide_eq_false hrange, hz]
  cases del with
  | true => rfl
  | false => exact hentry rfl

/-- A STREAM_SET in range writes or deletes the entry that it names, or the lowest free one (R344). -/
theorem exec_streamSet (h : Runs c s = true) (hn : NoProb c = true) {del : Bool} (hdel : (byteAt (recOf c s) 1).getLsbD 1 = del)
    (hkind : u8 (recOf c s) 0 ≤ 4) (hflags : u8 (recOf c s) 1 ≤ 3) (hz : zeroAt (recOf c s) 4 4 = true)
    (hindex : u16 (recOf c s) 2 < streamCount (u8 (recOf c s) 0) ∨ u16 (recOf c s) 2 = 0xFFFF ∧ del = false)
    (hentry : del = false → streamEntryBad (u8 (recOf c s) 0) ((recOf c s).drop 8) = false)
    (hin : InOk c (if del then max 8 c.length.toNat else streamSize (recOf c s)) = true) :
    let bs := recOf c s
    let kind := u8 bs 0
    let spare := (List.range (streamCount kind)).find? (fun i => !(streamUsed s kind).contains i)
    let i := if u16 bs 2 = 0xFFFF then spare.getD 0 else u16 bs 2
    let t := modNet (writeStream kind i del (bs.drop 8) s.lt) (taken c s)
    (u16 bs 2 = 0xFFFF → spare ≠ none) →
    exec (.streamSet c) s = ends 0x0515 c s stOk (leBytes 2 i)
      (if (byteAt bs 1).getLsbD 0 then storeLater 5 (32 + kind * 1024 + i) (if del then [] else bs) t else t) := by
  intro bs kind spare i t hspare
  subst del
  refine submit_ends_of_checked h rfl ?_ rfl
  have hsize : (if u8 bs 0 ≤ 4 ∧ (!(byteAt bs 1).getLsbD 1) = true then streamSize bs else max 8 c.length.toNat)
      = if (byteAt bs 1).getLsbD 1 then max 8 c.length.toNat else streamSize bs := by
    cases (byteAt bs 1).getLsbD 1 <;> simp [hkind, bs]
  have hfull : (u16 bs 2 == 0xFFFF && spare.isNone) = false := by
    cases hs : spare with
    | none => simpa using fun hff => hspare hff hs
    | some _ => exact Bool.and_false _
  rw [List.append_assoc, desc_noProb _ c s h hn, inChecks_ok _ c s none _ (hsize ▸ hin) nofun]
  exact (firstFail_cons_of_false (stream_inRange hkind hflags hz hindex hentry) ..).trans (firstFail_cons_of_false hfull ..)

/-- The entry that CLIENT_SET writes (R432). -/
def clientEntry (c : CmdIn) : Client :=
  if argN c 1 1 = 255 then {} else
    { used := true, transport := if argN c 1 1 = 0 then .ipv4 else if argN c 1 1 = 1 then .ipv6 else .raw, mac := BitVec.ofNat 48 (argN c 2 6),
      ip := if argN c 1 1 = 0 then BitVec.ofNat 128 (argN c 16 4) else BitVec.ofNat 128 (argN c 16 16), udp := BitVec.ofNat 16 (argN c 8 2),
      portMask := BitVec.ofNat 16 (argN c 10 2), pcp := byteAt (argBytes c) 12 }

/-- CLIENT_SET in range writes its entry, keeps the sequence number and the last status, and resets the client (R432). -/
theorem exec_clientSet (h : Runs c s = true) (hn : NoProb c = true) (ht : argN c 1 1 ≤ 2 ∨ argN c 1 1 = 255) (hpcp : argN c 12 1 ≤ 7) :
    exec (.clientSet c) s = ends 0x0513 c s stOk [] (resetClient (byteAt (argBytes c) 0) 1 { taken c s with
      clients := s.clients.set (argN c 0 1) { clientEntry c with
        outSeq := (s.clients.get (argN c 0 1)).outSeq, lastStatus := (s.clients.get (argN c 0 1)).lastStatus } }) := by
  refine submit_ends_of_checked h rfl ?_ rfl
  rw [desc_noProb _ c s h hn]
  refine firstFail_cons_of_false (decide_eq_false ?_) ..
  change ¬ ((2 < argN c 1 1 ∧ argN c 1 1 ≠ 255) ∨ 7 < argN c 12 1)
  omega

/-- Settles O26: the records in range are stored, and ports start or end one by one. -/
theorem portAndTsnCommands : Obligations.PortAndTsnCommands := by
  unfold Obligations.PortAndTsnCommands
  intro c s h hn
  refine ⟨?client, ?gate, ?stream, ?enable, ?disable⟩
  case client =>
    intro n put entry hpcp
    have hexec := fun ht => exec_clientSet h hn ht hpcp
    refine ⟨fun ht => ?_, fun ht => ?_, fun ht => ?_, fun ht => ?_⟩ <;>
      refine (hexec (by omega)).trans ?_ <;> simp only [clientEntry, ht] <;> rfl
  case gate =>
    intro bs t hin hbad
    refine submit_ends_of_checked h rfl ?_ rfl
    rw [List.append_assoc, desc_noProb _ c s h hn]
    exact (inChecks_ok _ c s none _ hin nofun _).trans (firstFail_cons_of_false hbad ..)
  case stream =>
    intro bs kind spare i put hkind hflags hz
    refine ⟨fun hdel hindex hin hentry => ?_, fun hdel hindex hlen hin => ?_⟩
    · refine exec_streamSet h hn hdel hkind hflags hz (hindex.imp_right fun hs => ⟨hs.1, rfl⟩) (fun _ => hentry) hin fun hff => ?_
      obtain hlt | ⟨_, hs⟩ := hindex
      · exact absurd hff (Nat.ne_of_lt (Nat.lt_of_lt_of_le hlt (Nat.le_trans (streamCount_le kind) (by decide))))
      · exact hs
    · refine exec_streamSet h hn hdel hkind hflags hz (.inl hindex) nofun ?_ fun hff => ?_
      · rw [if_pos rfl, Nat.max_eq_right hlen]
        exact hin
      · exact absurd hff (Nat.ne_of_lt (Nat.lt_of_lt_of_le hindex (Nat.le_trans (streamCount_le kind) (by decide))))
  case enable => exact submit_ends_of_checked h rfl (firstFail_desc_noProb _ h hn) rfl
  case disable =>
    intro t down
    split
    next hd => exact submit_ends_of_checked h rfl (firstFail_desc_noProb _ h hn) (if_pos hd)
    next hd => exact submit_begins_of_checked h rfl (firstFail_desc_noProb _ h hn) (if_neg hd)

end

end Sys2Proof.Machine

namespace Sys2Proof.Machine

/-! Loops, pour destinations, power and edge-die tables (R275 to R290, R306, R425, R442 to R468, R526). -/

section
variable {c : CmdIn} {s : State}

/-! ### Loops -/

/-- Settles O27: loops start together or not at all, and a stop waits for those that are stopping. -/
theorem loopCommandsComplete : Obligations.LoopCommandsComplete := by
  unfold Obligations.LoopCommandsComplete
  intro c s h hn ns bad
  refine ⟨fun hbad => ?start, fun hbad => ?refuse, ?stop⟩
  case start => exact submit_ends_of_checked h rfl (firstFail_desc_noProb _ h hn) (if_pos (List.isEmpty_iff.mpr hbad))
  case refuse => exact submit_ends_of_checked h rfl (firstFail_desc_noProb _ h hn) (if_neg (fun he => hbad (List.isEmpty_iff.mp he)))
  case stop =>
    intro e
    split
    next hm => exact submit_ends_of_checked h rfl (firstFail_desc_noProb _ h hn) (if_pos hm)
    next hm => exact submit_begins_of_checked h rfl (firstFail_desc_noProb _ h hn) (if_neg hm)

/-! ### Pour destinations -/

/-- The ring is bound to no other problem, and the problem to no other ring (R425). -/
theorem pourRing_free {p k : Nat} (hmine : ringOf s p = none ∨ ringOf s p = some k)
    (hring : (s.rings.get k).problem = none ∨ (s.rings.get k).problem = some p) :
    ((match ringOf s p with | some j => j != k | none => false) || (match (s.rings.get k).problem with | some q => q != p | none => false)) = false := by
  obtain hm | hm := hmine <;> obtain hr | hr := hring <;> simp [hm, hr]

/-- Settles O28: a ring is bound or let go, and destinations that pass their checks are stored. -/
theorem pourDestinationsSet : Obligations.PourDestinationsSet := by
  unfold Obligations.PourDestinationsSet
  intro c s im h hn hst him
  have hloaded : ((prob s c.p).st == .empty) = false := beq_eq_false_iff_ne.mpr hst
  refine ⟨fun hk hmine hring => ⟨fun hen hlow hhigh halign htop hagent hmod hsize => ?bind, fun hen => ?release⟩, ?stream⟩
  case bind =>
    refine submit_ends_of_checked h rfl ?_ (congrArg okay (if_pos hen))
    have haddr : (argN c 2 1 == 1 && unusable c c.addr 0) = false := by
      have h8 : c.addr.toNat % 8 = 0 := by omega
      have hbase : unusable c c.addr 0 = false := by
        unfold unusable addrBad
        rw [h8, htop, hagent]
        rfl
      rw [hbase, Bool.and_false]
    have hrange : (decide (31 < argN c 0 1 ∨ 1 < argN c 2 1) ||
        (argN c 2 1 == 1 && (decide (argN c 1 1 < 4 ∨ 16 < argN c 1 1 ∨ c.addr.toNat % 4096 ≠ 0) || c.addr.getLsbD 63))) = false := by
      rw [decide_eq_false (by omega), decide_eq_false (by omega), htop, hen]
      rfl
    have hlen : (argN c 2 1 == 1 && decide (c.length.toNat % 64 ≠ 0 ∨ c.length.toNat < 32 + (match (prob s c.p).im with | some im => im.resultBytes | none => 0))) = false := by
      have hroom : decide (c.length.toNat % 64 ≠ 0 ∨ c.length.toNat < 32 + im.resultBytes) = false := decide_eq_false (by omega)
      rw [him]
      exact Bool.and_eq_false_iff.mpr (.inr hroom)
    rw [desc_named _ c s h hn]
    exact (firstFail_cons_of_false haddr ..).trans ((firstFail_cons_of_false hloaded ..).trans ((firstFail_cons_of_false hrange ..).trans
      ((firstFail_cons_of_false hlen ..).trans (firstFail_cons_of_false (pourRing_free hmine hring) ..))))
  case release =>
    have hoff (b : Bool) : (argN c 2 1 == 1 && b) = false := by rw [hen]; rfl
    have hrange : (decide (31 < argN c 0 1 ∨ 1 < argN c 2 1) ||
        (argN c 2 1 == 1 && (decide (argN c 1 1 < 4 ∨ 16 < argN c 1 1 ∨ c.addr.toNat % 4096 ≠ 0) || c.addr.getLsbD 63))) = false := by
      rw [hoff, decide_eq_false (by omega)]
      rfl
    refine submit_ends_of_checked h rfl ?_ (congrArg okay ?_)
    · rw [desc_named _ c s h hn]
      exact (firstFail_cons_of_false (hoff _) ..).trans ((firstFail_cons_of_false hloaded ..).trans ((firstFail_cons_of_false hrange ..).trans
        ((firstFail_cons_of_false (hoff _) ..).trans (firstFail_cons_of_false (pourRing_free hmine hring) ..))))
    · refine (if_neg (fun he => absurd (he.symm.trans hen) (by decide))).trans ?_
      change (if ringOf s c.p = some (argN c 0 1) then _ else _) = _
      obtain hm | hm := hmine
      · rw [if_neg (hm ▸ nofun), if_pos hm]
      · rw [if_pos hm, if_neg (hm ▸ nofun)]
        rfl
  case stream =>
    intro bs es ds hp hin hn8 hz hes hnd
    refine submit_ends_of_checked h rfl ?_ rfl
    have hentries : es.any (fun e => decide (7 < u8 e 1 ∨ (127 < u16 e 2 ∧ u16 e 2 ≠ 0xFFFF)) || !zeroAt e 4 4) = false := by
      rw [List.any_eq_false]
      intro e he
      obtain ⟨hpcp, hstream, hzero⟩ := hes e he
      rw [decide_eq_false (by omega), hzero]
      decide
    have hrange : (decide (8 < u8 bs 2) || !zeroAt bs 3 5 || es.any (fun e => decide (7 < u8 e 1 ∨ (127 < u16 e 2 ∧ u16 e 2 ≠ 0xFFFF)) || !zeroAt e 4 4)
        || !decide (ds.map Dest.client).Nodup) = false := by
      rw [decide_eq_false (Nat.not_lt.mpr hn8), hz, hentries, decide_eq_true hnd]
      rfl
    rw [List.append_assoc, desc_named _ c s h hn]
    exact (inChecks_ok _ c s (some (u16 bs 0)) _ hin (fun q hq => (Option.some.inj hq).symm.trans hp) _).trans
      ((firstFail_cons_of_false hloaded ..).trans (firstFail_cons_of_false hrange ..))

/-! ### Power -/

/-- Settles O29: each command in range stores its value, and a rest with nothing busy begins. -/
theorem powerCommandsComplete : Obligations.PowerCommandsComplete := by
  unfold Obligations.PowerCommandsComplete
  refine ⟨fun c s h hn => ⟨?cap, ?store, ?status, ?kettle⟩, fun c s h hn => ⟨?rest, ?refuse⟩⟩
  case cap =>
    intro hlow hhigh hf
    refine submit_ends_of_checked h rfl ?_ (congrArg okay (if_neg (by rw [cmdOf_c, hf]; decide)))
    rw [desc_noProb _ c s h hn]
    exact firstFail_cons_of_false (decide_eq_false (by rw [cmdOf_c]; omega)) ..
  case store =>
    intro hlow hhigh hf
    refine submit_ends_of_checked h rfl ?_ (congrArg okay (if_pos hf))
    rw [desc_noProb _ c s h hn]
    exact firstFail_cons_of_false (decide_eq_false (by rw [cmdOf_c]; omega)) ..
  case status =>
    intro ho
    exact submit_ends_of_checked h rfl (by rw [desc_noProb _ c s h hn, firstFail_outChecks _ ho]) rfl
  case kettle =>
    intro hclass hpol hlow hhigh
    refine submit_ends_of_checked h rfl ?_ rfl
    rw [desc_noProb _ c s h hn]
    exact firstFail_cons_of_false (decide_eq_false (by rw [cmdOf_c]; omega)) ..
  case rest =>
    intro htarget hmask hms hprobs hstaging hlimp hpower hrec htest hentering
    refine submit_ends_of_checked h rfl ?_ rfl
    have hrange : (decide ((argN c 0 1 ≠ 2 ∧ argN c 0 1 ≠ 4) ∨ 7 < argN c 1 1) || ((argN c 1 1).testBit 1 == decide (argN c 4 4 = 0))) = false := by
      rw [decide_eq_false (by omega)]
      by_cases h0 : argN c 4 4 = 0
      · simpa [h0] using hms
      · simpa [h0] using hms
    have hbusy : (s.probs.any (fun e => e.2.st == .enabled || e.2.st == .retiring || e.2.ckpt.isSome) || staging s || s.faults.limp.isSome
        || s.pwr.power == .limp || s.faults.recovery || s.faults.testSession || s.pwr.entering.isSome) = false := by
      simp [hprobs, hstaging, hlimp, hpower, hrec, htest, hentering]
    rw [desc_noProb _ c s h hn]
    exact (firstFail_cons_of_false hrange ..).trans (firstFail_cons_of_false hbusy ..)
  case refuse =>
    intro hbad
    refine submit_fails_of_checked h rfl ?_
    rw [desc_noProb _ c s h hn, firstFail_cons, if_pos]
    rw [cmdOf_c, decide_eq_true hbad]
    rfl

/-! ### Field I/O, slot maps and profiles -/

/-- Settles O30: a good record is applied and stored, and a profile is copied into loops that are STOPPED. -/
theorem edgeTableCommands : Obligations.EdgeTableCommands := by
  unfold Obligations.EdgeTableCommands
  refine ⟨fun c s h hn => ⟨?write, ?read, ?clear⟩, fun c s h => ⟨?slots, ?profile, ?load, ?boot⟩⟩
  case write =>
    intro hin hgood huse
    refine submit_ends_of_checked h rfl ?_ rfl
    rw [List.append_assoc, desc_noProb _ c s h hn]
    exact (inChecks_ok _ c s none _ hin nofun _).trans ((firstFail_cons_of_false (congrArg not hgood) ..).trans (firstFail_cons_of_false huse ..))
  case read =>
    intro ho
    exact submit_ends_of_checked h rfl (by rw [desc_noProb _ c s h hn, firstFail_outChecks _ ho]) rfl
  case clear => exact submit_ends_of_checked h rfl (firstFail_desc_noProb _ h hn) rfl
  case slots =>
    intro hn hst bs im him hp hin hbad hfree
    refine submit_ends_of_checked h rfl ?_ rfl
    have hst' : ((prob s c.p).st == .empty) = false := beq_eq_false_iff_ne.mpr hst
    have hbad' : slotMapBad bs (match (prob s c.p).im with | some im => im.resultBytes / 8 | none => 0) = false := by rw [him]; exact hbad
    have hothers : (slotRecords bs).any (fun r => ((s.edge.binds.filter (fun b => b.1 != c.p)).flatMap
        (fun b => b.2.entries.map SlotEntry.slot)).contains (u8 r 0)) = false := by
      rw [List.any_eq_false]
      intro r hr hc
      simp only [List.contains_iff_mem, List.mem_flatMap, List.mem_filter, bne_iff_ne] at hc
      obtain ⟨b, ⟨hb, hne⟩, hmem⟩ := hc
      exact hfree r hr b hb hne hmem
    rw [List.append_assoc, desc_named _ c s h hn]
    exact (inChecks_ok _ c s (some (u16 bs 0)) _ hin (fun q hq => (Option.some.inj hq).symm.trans hp) _).trans ((firstFail_cons_of_false hst' ..).trans ((firstFail_cons_of_false hbad' ..).trans
      (firstFail_cons_of_false hothers ..)))
  case profile =>
    intro hn hi hin hbad
    refine submit_ends_of_checked h rfl ?_ rfl
    have hrange : (decide (7 < argN c 0 1) || profileBad (recOf c s)) = false := by simp [hbad, hi]
    rw [List.append_assoc, desc_noProb _ c s h hn]
    exact (inChecks_ok _ c s none _ hin nofun _).trans (firstFail_cons_of_false hrange ..)
  case load =>
    intro hn bs hi hget hform mask ns sels hstopped
    refine submit_ends_of_checked h rfl ?_ ?_
    · have hrunning : ns.any (fun n => (loopN s.edge n).state != .stopped) = false := by
        rw [List.any_eq_false]
        intro n hmem hrun
        exact bne_iff_ne.mp hrun (hstopped n hmem)
      have hempty : (!(if argN c 0 1 < 8 then s.edge.profiles.get? (argN c 0 1) else none).any profileForm) = false := by
        rw [if_pos hi, hget, Option.any_some, hform]
        rfl
      rw [desc_noProb _ c s h hn]
      exact (firstFail_cons_of_false hrunning ..).trans (firstFail_cons_of_false hempty ..)
    · have hbs : (if argN c 0 1 < 8 then s.edge.profiles.get? (argN c 0 1) else none).getD [] = bs := by
        rw [if_pos hi, hget]
        rfl
      subst bs
      rfl
  case boot =>
    intro hn hi
    refine submit_ends_of_checked h rfl ?_ rfl
    rw [desc_noProb _ c s h hn]
    exact firstFail_cons_of_false (decide_eq_false (by rw [cmdOf_c]; omega)) ..

end

end Sys2Proof.Machine

namespace Sys2Proof.Machine

/-! Keys, signing, firmware, faults, recovery and test sessions (R455 to R457, R478, R479, R485 to R488). -/

section
variable {c : CmdIn} {s : State}

/-! ### Keys, signing and firmware -/

/-- The checks of KEY_SLOT_WRITE after those of its record, with OP 0 or 1 (R455). -/
theorem keyChecks_pass {op : Nat} {bad : Bool} (hslot : argN c 0 1 ≤ 7) (hop : op ≤ 1) (hbad : bad = false) (hlock : keysLocked s = false) :
    firstFail [(decide (7 < argN c 0 1 ∨ 1 < op) || bad, stPwrRange), (keysLocked s, stKeyLocked)] = none := by
  rw [decide_eq_false (by omega), hbad, hlock]
  rfl

/-- Settles O31: the lock of the keys decides, and the package waits for the warden. -/
theorem securityCommandsComplete : Obligations.SecurityCommandsComplete := by
  unfold Obligations.SecurityCommandsComplete
  intro c s h hn
  refine ⟨fun hslot hop hin hcurve hlock => ?write, fun hslot hop hlock => ?erase, fun hmode hlock => ?sign, fun hmode hlock => ?locked,
    fun haddr hlen hst => ?firmware⟩
  case write =>
    refine submit_ends_of_checked h rfl ?_ (by rw [cmdOf_c, if_pos hop]; rfl)
    rw [cmdOf_c, if_pos hop, List.append_assoc, desc_noProb _ c s h hn]
    refine (inChecks_ok _ c s none _ hin nofun _).trans (keyChecks_pass hslot (hop ▸ Nat.zero_le 1) ?_ hlock)
    exact Bool.and_eq_false_iff.mpr (.inr (congrArg not hcurve))
  case erase =>
    have hop' : argN c 1 1 ≠ 0 := by omega
    refine submit_ends_of_checked h rfl ?_ (by rw [cmdOf_c, if_neg hop']; rfl)
    rw [cmdOf_c, if_neg hop', List.append_nil, desc_noProb _ c s h hn]
    exact keyChecks_pass hslot (Nat.le_of_eq hop) (Bool.and_eq_false_iff.mpr (.inl (beq_eq_false_iff_ne.mpr hop'))) hlock
  case sign =>
    refine submit_ends_of_checked h rfl ?_ rfl
    rw [desc_noProb _ c s h hn]
    exact (firstFail_cons_of_false (decide_eq_false (Nat.not_lt.mpr hmode)) ..).trans (firstFail_cons_of_false hlock ..)
  case locked =>
    refine submit_fails_of_checked h rfl ?_
    rw [desc_noProb _ c s h hn]
    exact (firstFail_cons_of_false (decide_eq_false (Nat.not_lt.mpr hmode)) ..).trans (if_pos hlock)
  case firmware =>
    refine submit_begins_of_checked h rfl ?_ rfl
    rw [desc_noProb _ c s h hn]
    exact (firstFail_cons_of_false haddr ..).trans ((firstFail_cons_of_false (decide_eq_false (Nat.not_lt.mpr hlen)) ..).trans
      (firstFail_cons_of_false hst ..))

/-! ### Units -/

/-- SELF_TEST of a fenced unit, or of any unit or all of them in a test session (R479). -/
theorem exec_selfTest (h : Runs c s = true) (hn : NoProb c = true) (hz : zeroAt (argBytes c) 2 30 = true)
    (hunit : argN c 0 1 = 0xFF ∨ unitOk (argN c 0 1) (argN c 1 1) = true)
    (hmode : argN c 0 1 ≠ 0xFF ∧ fenced s (argN c 0 1) (argN c 1 1) = true ∨ s.faults.testSession = true) :
    exec (.selfTest c) s = begins 0x0801 c s .selfTest true (taken c s) := by
  have hrange : ((argN c 0 1 != 0xFF && !unitOk (argN c 0 1) (argN c 1 1)) || !zeroAt (argBytes c) 2 30) = false := by
    obtain hall | hok := hunit
    · simp [hall, hz]
    · simp [hok, hz]
  have hallowed : ((argN c 0 1 == 0xFF || !fenced s (argN c 0 1) (argN c 1 1)) && !s.faults.testSession) = false := by
    obtain ⟨hall, hfenced⟩ | htest := hmode
    · simp [hall, hfenced]
    · simp [htest]
  refine submit_begins_of_checked h rfl ?_ rfl
  rw [desc_noProb _ c s h hn]
  exact (firstFail_cons_of_false hrange ..).trans (firstFail_cons_of_false hallowed ..)

/-- The checks of UNIT_FENCE pass for a unit of KIND 0 to 4, host core 0 excepted (R478). -/
theorem fenceChecks_pass (hz : zeroAt (argBytes c) 2 30 = true) (hunit : unitOk (argN c 0 1) (argN c 1 1) = true) (hkind : argN c 0 1 ≤ 4)
    (hcore : argN c 0 1 ≠ 4 ∨ argN c 1 1 ≠ 0) (h : Runs c s = true) (hn : NoProb c = true) (op : W16) :
    firstFail (descChecks false false (cmdOf op c s) ++ [(!unitOk (argN c 0 1) (argN c 1 1)
      || decide (4 < argN c 0 1 ∨ (argN c 0 1 = 4 ∧ argN c 1 1 = 0)) || !zeroAt (argBytes c) 2 30, stFltRange)]) = none := by
  rw [desc_noProb _ c s h hn]
  refine firstFail_cons_of_false ?_ ..
  rw [hunit, hz, decide_eq_false (by omega)]
  rfl

/-! ### Recovery and test sessions -/

/-- A command that asks first whether the device is at a quiescent point completes away from one with FLT_BUSY (R485, R487). -/
theorem submit_busy {op : W16} {eff : Cmd → State → State × Reply} {ok : State × Reply} {cs : List (Bool × Status)} (h : Runs c s = true)
    (hn : NoProb c = true) (hq : quiescent (taken c s) = false)
    (heff : eff (cmdOf op c s) (taken c s) =
      checked (descChecks false false (cmdOf op c s) ++ (!quiescent (taken c s), stFltBusy) :: cs) (taken c s) ok) :
    finish s (submit op eff c s) = ends op c s stFltBusy [] (taken c s) := by
  refine submit_fails_of_checked h heff ?_
  rw [desc_noProb _ c s h hn, hq]
  rfl

/-- Settles O32: a unit's fence, a mode and a quiescent point decide each command. -/
theorem faultCommandsComplete : Obligations.FaultCommandsComplete := by
  unfold Obligations.FaultCommandsComplete
  refine ⟨fun c s k i h hn hk hi hz => ?units, fun c s h hn => ⟨fun hq => ?calm, fun hq => ?busy⟩⟩
  case units =>
    subst k i
    refine ⟨fun hmode => ?test, fun hunit hkind hcore => ?fence, fun hunit hf => ?unfence, fun ho => ?log⟩
    case test =>
      obtain ⟨hunit, hf, hall⟩ | ⟨hunit, ht⟩ | ⟨hall, ht⟩ := hmode
      · exact exec_selfTest h hn hz (.inr hunit) (.inl ⟨hall, hf⟩)
      · exact exec_selfTest h hn hz (.inr hunit) (.inr ht)
      · exact exec_selfTest h hn hz (.inl hall) (.inr ht)
    case fence =>
      have hcs := fenceChecks_pass hz hunit hkind hcore h hn 0x0802
      refine ⟨fun hf => ?_, fun hf => ?_⟩
      · split
        next hp => exact submit_begins_of_checked h rfl hcs ((if_pos hf).trans (if_pos hp))
        next hp => exact submit_ends_of_checked h rfl hcs ((if_pos hf).trans (if_neg hp))
      · intro t u
        have hf' : ¬ fenced s (argN c 0 1) (argN c 1 1) = true := hf ▸ Bool.false_ne_true
        split
        next hp => exact submit_begins_of_checked h rfl hcs ((if_neg hf').trans (if_pos hp))
        next hp => exact submit_ends_of_checked h rfl hcs ((if_neg hf').trans (if_neg hp))
    case unfence =>
      have hcs : firstFail (descChecks false false (cmdOf 0x0803 c s) ++
          [(!unitOk (argN c 0 1) (argN c 1 1) || !zeroAt (argBytes c) 2 30, stFltRange), (!fenced s (argN c 0 1) (argN c 1 1), stFltNotFenced)]) = none := by
        rw [desc_noProb _ c s h hn, hunit, hz, hf]
        rfl
      split
      next hst => exact submit_ends_of_checked h rfl hcs (if_pos hst)
      next hst => exact submit_begins_of_checked h rfl hcs (if_neg hst)
    case log => exact submit_ends_of_checked h rfl (by rw [desc_noProb _ c s h hn, firstFail_outChecks _ ho]) rfl
  case calm =>
    have hq' : (!quiescent (taken c s)) = false := congrArg not hq
    have hquiet (op : W16) : firstFail (descChecks false false (cmdOf op c s) ++ [(!quiescent (taken c s), stFltBusy)]) = none := by
      rw [desc_noProb _ c s h hn]
      exact firstFail_cons_of_false hq' ..
    refine ⟨fun hr => ?_, fun hr => ?_, fun hr hstaged => ?_, fun ht => ?_, fun ht => ?_, fun ht => ?_⟩
    · exact submit_ends_of_checked h rfl (hquiet _) (congrArg okay (if_neg (hr ▸ Bool.false_ne_true)))
    · exact submit_ends_of_checked h rfl (hquiet _) (congrArg okay (if_pos hr))
    · have hmode : (s.faults.recoveryCause == 2 && !s.faults.staged) = false := by
        by_cases hc : s.faults.recoveryCause = 2
        · rw [hstaged hc, Bool.not_true, Bool.and_false]
        · rw [beq_eq_false_iff_ne.mpr hc, Bool.false_and]
      refine submit_ends_of_checked h rfl ?_ rfl
      rw [desc_noProb _ c s h hn]
      exact (firstFail_cons_of_false (congrArg not hr) ..).trans ((firstFail_cons_of_false hq' ..).trans (firstFail_cons_of_false hmode ..))
    · exact submit_ends_of_checked h rfl (hquiet _) (congrArg okay (if_neg (ht ▸ Bool.false_ne_true)))
    · exact submit_ends_of_checked h rfl (hquiet _) (congrArg okay (if_pos ht))
    · refine submit_ends_of_checked h rfl ?_ rfl
      rw [desc_noProb _ c s h hn]
      exact (firstFail_cons_of_false (congrArg not ht) ..).trans (firstFail_cons_of_false hq' ..)
  case busy =>
    have hfails : (!quiescent (taken c s)) = true := congrArg not hq
    refine ⟨submit_busy h hn hq rfl, fun hr => ?_, submit_busy h hn hq rfl, fun ht => ?_⟩
    · refine submit_fails_of_checked h rfl ?_
      rw [desc_noProb _ c s h hn]
      exact (firstFail_cons_of_false (congrArg not hr) ..).trans (if_pos hfails)
    · refine submit_fails_of_checked h rfl ?_
      rw [desc_noProb _ c s h hn]
      exact (firstFail_cons_of_false (congrArg not ht) ..).trans (if_pos hfails)

end

end Sys2Proof.Machine

namespace Sys2Proof.Machine

/-! The command ring, resets of the PCIe function, and register accesses (R410 to R420, R436, R506, R512 to R517). -/

section
variable {s : State}

/-! ### The command ring -/

/-- The slot at HEAD is fetched where no descriptor of the path waits and the ring has one (R416). -/
theorem doFetch_slot (hready : ready s = true) (hopen : pathOpen .pcie s = true) (hroom : hasRoom s = true) (harrived : s.mbx.arrived = [])
    (htail : s.mbx.cmdTail ≠ s.mbx.cmdHead) : doFetch .pcie s = fetchSlot s := by
  simp [doFetch, hready, hroom, harrived, takeArrived, hopen, htail]

/-- The oldest descriptor of a path that waits is accepted before the ring is looked at (R418). -/
theorem doFetch_arrived {a : Agent} {m : Cmd} {rest : List Cmd} (hready : ready s = true) (hroom : hasRoom s = true)
    (ha : takeArrived a s.mbx.arrived = some (m, rest)) : doFetch a s = accept m (modMbx (fun b => { b with arrived := rest }) s) := by
  unfold doFetch
  rw [hready, hroom, ha]
  rfl

/-- A waiting command that may start is started (R420). -/
theorem doCommandStart_of_canStart {n : W64} {m : Cmd} (hready : ready s = true) (hm : s.mbx.waiting.find? (fun w => w.acceptNo == n) = some m)
    (hcan : canStart m s = true) : doCommandStart n s = startCmd (effectOf m.op) m s := by
  rw [doCommandStart, hm]
  exact if_pos (by rw [hready, hcan]; rfl)

/-- With nothing waiting and nothing running no command is in flight. -/
theorem inFlight_eq_zero (hw : s.mbx.waiting = []) (hr : s.mbx.running = []) : inFlight s = 0 := by
  rw [inFlight, hw, hr]
  rfl

/-- The shut-down of the ring ends when nothing is in flight (R419). -/
theorem doRingDown_of_idle (hd : s.mbx.disabling = true) (hw : s.mbx.waiting = []) (hr : s.mbx.running = []) :
    doRingDown s = { s with mbx :=
      if s.mbx.enableHeld then enableRing { s.mbx with enable := false, disabling := false, enableHeld := false }
      else { s.mbx with enable := false, disabling := false, enableHeld := false } } := by
  rw [doRingDown, hd, inFlight_eq_zero hw hr]
  rfl

/-- The ring of an enabled function shuts down at a reset (R419). -/
theorem resetFunction_of_enabled (he : s.mbx.enable = true) :
    resetFunction s = { s with mbx := { s.mbx with disabling := true }, irq := { s.irq with map := [] } } := by
  rw [resetFunction, modMbx, ringOff, if_pos he]

/-- Settles O33: each event of the ring or of the function, with its condition met, has its effect and no other. -/
theorem ringEventsComplete : Obligations.RingEventsComplete := by
  unfold Obligations.RingEventsComplete
  refine ⟨fun s hready => ⟨fun v hperst => ?doorbell, fun hopen hroom ha htail => ?slot, fun a m rest hroom ha => ?arrived, fun m _ hm hcan => ?start,
    fun hd he => ?enable, fun hd => ?held, fun he => ?disable, fun hd hw hr => ?down⟩, fun s => ⟨fun hmain hperst he => ?reset, rfl⟩⟩
  case doorbell =>
    have hdo : doDoorbell v s = { s with mbx := { s.mbx with cmdTail := v.setWidth 8 } } := by
      rw [doDoorbell, hready, hperst]
      rfl
    exact congrArg (finish s) hdo
  case slot =>
    have hexec : exec (.descriptorFetch .pcie) s = finish s (fetchSlot s) := congrArg (finish s) (doFetch_slot hready hopen hroom ha htail)
    rw [hexec, finish_eq]
    exact ⟨_, _, rfl, rfl, rfl, rfl, rfl, rfl⟩
  case arrived => exact congrArg (finish s) (doFetch_arrived hready hroom ha)
  case start => exact congrArg (finish s) (doCommandStart_of_canStart hready hm hcan)
  case enable =>
    have hdo : doRingEnable s = { s with mbx := enableRing s.mbx } := by
      rw [doRingEnable, if_pos hready, modMbx, ringOn, hd, he]
      rfl
    exact congrArg (finish s) hdo
  case held =>
    have hdo : doRingEnable s = { s with mbx := { s.mbx with enableHeld := true } } := by
      rw [doRingEnable, if_pos hready, modMbx, ringOn, if_pos hd]
    exact congrArg (finish s) hdo
  case disable =>
    have hdo : doRingDisable s = { s with mbx := { s.mbx with disabling := true } } := by
      rw [doRingDisable, if_pos hready, modMbx, ringOff, if_pos he]
    exact congrArg (finish s) hdo
  case down =>
    have hdo := doRingDown_of_idle hd hw hr
    refine ⟨fun hheld => ?_, fun hheld => ?_⟩
    · rw [hheld] at hdo
      refine (congrArg (finish s) hdo).trans (congrArg (fun x => finish s { s with mbx := { s.mbx with
        enable := false, disabling := false, enableHeld := x } }) hheld.symm)
    · rw [hheld] at hdo
      have hexec : exec .ringShutdownComplete s = finish s { s with mbx := enableRing { s.mbx with
        enable := false, disabling := false, enableHeld := false } } := congrArg (finish s) hdo
      rw [hexec, finish_eq]
      exact ⟨_, rfl, rfl, rfl, rfl, rfl, rfl⟩
  case reset =>
    have hlink : (mainOn s && !s.mbx.perst) = true := by rw [hmain, hperst]; rfl
    refine ⟨?_, ?_, ?_⟩
    · have hdo : doFlr s = { s with mbx := { s.mbx with disabling := true }, irq := { s.irq with map := [] } } := by
        rw [doFlr, if_pos hlink, resetFunction_of_enabled he]
      have hexec : exec .functionLevelReset s = finish s { s with mbx := { s.mbx with disabling := true }, irq := { s.irq with map := [] } } :=
        congrArg (finish s) hdo
      rw [hexec, finish_eq]
      exact ⟨_, rfl, rfl, rfl, rfl, rfl, rfl, rfl, rfl, rfl⟩
    · have hdo : doPerstAsserted s = { s with mbx := { s.mbx with disabling := true, perst := true }, irq := { s.irq with map := [] } } := by
        rw [doPerstAsserted, if_pos hlink, resetFunction_of_enabled (s := modMbx (fun b => { b with perst := true }) s) he]
        rfl
      have hexec : exec .perstAsserted s = finish s { s with mbx := { s.mbx with disabling := true, perst := true }, irq := { s.irq with map := [] } } :=
        congrArg (finish s) hdo
      rw [hexec, finish_eq]
      exact ⟨_, rfl, rfl, rfl, rfl, rfl, rfl, rfl, rfl, rfl⟩
    · exact congrArg (finish s) (show doPcieConfig s = _ from if_pos hlink)

/-! ### Registers -/

/-- A read of a register reaches the windows where the link is up (R410, R506). -/
theorem doRegRead_of_open (hopen : pcieOpen s = true) (win : Window) (o : Nat) :
    doRegRead win o s = emit (.pcieRead [(readReg win o s).1]) (readReg win o s).2 := if_pos hopen

/-- MBX_ACCEPT_LO reads the low half of the acceptance count and latches the high half (R515). -/
theorem readReg_acceptLo : readReg .mailbox 0x30 s = (BitVec.ofNat 32 (s.mbx.accepted.toNat % 2 ^ 32),
    modMbx (fun b => { b with acceptHi := BitVec.ofNat 32 (s.mbx.accepted.toNat / 2 ^ 32 % 2 ^ 32) }) s) := rfl

/-- Settles O34: each access of a ready device has its register's effect. -/
theorem registerEventsComplete : Obligations.RegisterEventsComplete := by
  unfold Obligations.RegisterEventsComplete
  intro s hready
  refine ⟨fun r v => ?pourTail, fun v => ?evtTail, fun hperst => ?accesses, fun a f => ?freeze⟩
  case pourTail =>
    have hexec : exec (.pourTailWrite r v) s = finish s { s with rings := s.rings.mod r (fun q => { q with tail := takeTail q.head v (2 ^ q.log2) }) } :=
      congrArg (finish s) (show doPourTail r v s = _ from if_pos hready)
    rw [hexec, finish_eq]
    refine ⟨_, rfl, ?_⟩
    simp
  case evtTail => exact congrArg (finish s) (show doEvtTail v s = _ from if_pos hready)
  case accesses =>
    have hopen : pcieOpen s = true := by rw [pcieOpen, hready, hperst]; rfl
    refine ⟨?_, congrArg (finish s) (doRegRead_of_open hopen .direct 0x21400), ?_, fun win off => congrArg (finish s) (doRegRead_of_open hopen win off.toNat),
      fun win off v => ?_, fun win off v en hen => ?_, fun off v hlow halign => ?_⟩
    · have hexec : exec .ltLatchRead s = finish s (emit (.pcieRead [BitVec.ofNat 32 s.lt]) (latchTimes s)) :=
        congrArg (finish s) (show doLtLatch s = _ from if_pos hopen)
      rw [hexec, finish_eq]
      refine ⟨_, rfl, rfl, fun k hk => ?_, rfl⟩
      simp [emit, latchTimes, List.getD, hk]
    · have hexec : exec (.loLatchRead true) s = finish s (emit (.pcieRead [(readReg .mailbox 0x30 s).1]) (readReg .mailbox 0x30 s).2) :=
        congrArg (finish s) (doRegRead_of_open hopen .mailbox 0x30)
      rw [hexec, readReg_acceptLo, finish_eq]
      refine ⟨_, rfl, ?_, rfl⟩
      exact BitVec.eq_of_toNat_eq (by simp [emit, modMbx])
    · have hdo : doRegWrite win off v 15#4 s = writeReg win off.toNat v s := by rw [doRegWrite, hopen]; rfl
      exact congrArg (finish s) hdo
    · have hdo : doRegWrite win off v en s = s := by
        rw [doRegWrite, show (en == 15) = false from beq_eq_false_iff_ne.mpr hen, Bool.and_false]
        rfl
      exact congrArg (finish s) hdo
    · have hcond : (ready s && !s.mbx.perst && decide (off.toNat < 1024 ∧ off.toNat % 4 = 0)) = true := by simp [hready, hperst, hlow, halign]
      exact congrArg (finish s) (show doMsixWrite off v s = _ from if_pos hcond)
  case freeze =>
    have hexec : exec (.arbFreezeWrite a f) s = finish s (writeFreeze a f s) :=
      congrArg (finish s) (show when (ready s) (writeFreeze a f) s = _ from if_pos hready)
    rw [hexec, finish_eq]
    refine ⟨_, rfl, ?_⟩
    simp [arb, writeFreeze, modArb]

end

end Sys2Proof.Machine

namespace Sys2Proof.Machine

/-! Frames addressed to the device: mailbox frames (R338, R411 to R413) and YSP frames (R350, R351, R429). -/

section
variable {f : FrameIn} {s t : State}

/-! ### Mailbox frames -/

/-- A frame without R-TAG passes sequence recovery as it is (R346). -/
theorem recover_of_rtag_none {e : EthIn} (hr : e.rtag = none) (vid : Nat) : recover e vid s = (true, s) := by
  unfold recover
  rw [hr]

/-- A frame that meets no stream filter enters with its source learned (R338, R345). -/
theorem ingress_of_unfiltered {e : EthIn} (hfcs : e.fcsBad = false) (hsize : e.size ≤ (port s e.port.val).cfg.mtu)
    (hfilter : filterOf s e (vidOf s e).toNat = none) :
    ingress e s = (some e, modNet (fun n => { n with
      fdb := if e.src.getLsbD 0 then n.fdb else learn e.src (vidOf s e) e.port.val s.lt [] n.fdb }) s) := by
  have hq : qci e (vidOf s e).toNat s = (some e, s) := by
    unfold qci
    rw [hfilter]
  unfold ingress
  rw [hfcs, decide_eq_false (Nat.not_lt.mpr hsize)]
  simp only [hq]
  rfl

/-- A frame that meets no stream filter and carries no R-TAG passes the switch (R338, R345, R346). -/
theorem passed_of_unfiltered (hon : switchOn s = true) (hup : (port s f.src.port.val).state = .up) (hsize : f.size ≤ (port s f.src.port.val).cfg.mtu)
    (hrtag : f.src.rtag = none) (hfilter : filterOf s (frameEth s f) (vidOf s (frameEth s f)).toNat = none) :
    ∃ fdb, passed f s = some (modNet (fun n => { n with fdb := fdb }) s) := by
  have hcond : (switchOn s && (port s f.src.port.val).state == .up) = true := by rw [hon, hup]; rfl
  have hin := ingress_of_unfiltered (e := frameEth s f) rfl hsize hfilter
  unfold passed
  rw [if_pos hcond, hin]
  simp only [recover_of_rtag_none (e := frameEth s f) hrtag, if_true]
  exact ⟨_, rfl⟩

/-- A mailbox frame that passes its checks has its effect in the state that has heard it (R410, R412). -/
theorem frameFront_of_passed {good : Bool} (body : State → State) (hp : passed f s = some t) (hok : FrameOk f t = true) (hgood : good = true) :
    frameFront good f body s = body (heard f t) := by
  simp only [FrameOk, Bool.and_eq_true, Bool.not_eq_true', beq_iff_eq] at hok
  obtain ⟨⟨⟨⟨⟨⟨⟨⟨hready, hmbx⟩, hrunt⟩, hmagic⟩, hversion⟩, hlen⟩, hclient⟩, hflags⟩, hrsvd⟩ := hok
  rw [frameFront, if_neg (by rw [hmagic]; decide), arrive_of_passed _ hp]
  have hheader : ¬ (!(port t f.src.port.val).cfg.flags.getLsbD 2 || f.runt || f.magic != 0x4D59 || f.version != 1) = true := by
    rw [hmbx, hrunt, hmagic, hversion]
    decide
  have hfields : ¬ (f.length.toNat ≠ f.payload.length ∨ f.client ≠ 0 ∨ f.flags ≠ 0 ∨ f.rsvd ≠ 0) := by
    rintro (h | h | h | h)
    · exact h hlen
    · exact h hclient
    · exact h hflags
    · exact h hrsvd
  rw [if_neg hheader, hready, Bool.not_true, if_neg Bool.false_ne_true, decide_eq_false hfields, hgood]
  rfl

/-- Settles O35: a frame that passes the switch and its checks reaches the body of its row. -/
theorem mailboxFramesComplete : Obligations.MailboxFramesComplete := by
  unfold Obligations.MailboxFramesComplete
  intro f s
  refine ⟨fun hon hup hsize hrtag hfilter => passed_of_unfiltered hon hup hsize hrtag hfilter, fun t hp hok =>
    ⟨fun hg => ?read, fun hg => ?write, fun n h1 h16 hlen => ?command, fun n hg hlen => ?bufWrite, fun hlen hg hz => ?bufRead⟩⟩
  case read => exact congrArg (finish s) (frameFront_of_passed _ hp hok hg)
  case write => exact congrArg (finish s) (frameFront_of_passed _ hp hok hg)
  case command =>
    have hn : f.payload.length / 64 = n := by omega
    have hdo : doFrameCommand f s = forAll (chunks 64 n f.payload) (takeDesc f) (heard f t) := by
      rw [doFrameCommand, frameFront_of_passed _ hp hok (decide_eq_true (by omega)), hn]
    exact congrArg (finish s) hdo
  case bufWrite =>
    have hn : f.payload.length - 8 = n := by omega
    have hdo : doBufWrite f s = answer f 0x84 (leBytes 8 (u64 f.payload 0) ++ leBytes 4 n ++ zeros 4)
        (post .xbuf (u64 f.payload 0) (f.payload.drop 8) (heard f t)) := by
      rw [doBufWrite, frameFront_of_passed _ hp hok (hn.symm ▸ hg), hn]
    exact congrArg (finish s) hdo
  case bufRead =>
    have hgood : (decide (f.payload.length = 16) && spanGood (u64 f.payload 0) (u32 f.payload 8) && zeroAt f.payload 12 4) = true := by
      rw [decide_eq_true hlen, hg, hz]
      rfl
    have hdo : doBufRead f s = answer f 0x85 (leBytes 8 (u64 f.payload 0) ++ leBytes 4 (u32 f.payload 8) ++ zeros 4
        ++ (memView t .xbuf).readBytes (u64 f.payload 0) (u32 f.payload 8)) (heard f t) := by
      rw [doBufRead, frameFront_of_passed _ hp hok hgood]
      rfl
    exact congrArg (finish s) hdo

/-! ### YSP frames -/

/-- An INFUSE under a valid lease, with a good fragment for a problem that is not EMPTY, is taken (R76, R429). -/
theorem takeInfuse_of_valid (hclient : (parseHdr f.payload).client = f.client.toNat) (hchecks : firstFail (fragmentChecks f.payload) = none)
    (hl : leaseValid s (parseHdr f.payload).lease f.client (BitVec.ofNat 32 (parseHdr f.payload).epoch) (parseHdr f.payload).problem = true)
    (hst : (prob s (parseHdr f.payload).problem).st ≠ .empty) {u : State} {out : FragOut}
    (hu : takeFragment f.payload (f.flags.getLsbD 0) (touchLease (parseHdr f.payload).lease s) = (u, out)) :
    (out = .held → takeInfuse f s = u)
    ∧ ∀ es ack, out = .complete es ack → (completeGroup (parseHdr f.payload).problem es u).2 = stOk →
      let g := (completeGroup (parseHdr f.payload).problem es u).1
      takeInfuse f s = if ack then toClient f.client.toNat 0x81 (statusPayload 1 stOk f.seq (parseHdr f.payload).problem (parseHdr f.payload).seq
          (prob g (parseHdr f.payload).problem).commitSeq) g else g := by
  refine ⟨fun hheld => ?_, fun es ack hcomplete hstok => ?_⟩
  · subst hheld
    simp only [takeInfuse, hclient, hchecks, hl, prob_touchLease, hst, hu, ne_eq, not_true_eq_false, if_false, Bool.not_true, Bool.false_eq_true]
  · subst hcomplete
    simp only [takeInfuse, hclient, hchecks, hl, prob_touchLease, hst, hu, hstok, ne_eq, not_true_eq_false, if_false, Bool.not_true, Bool.false_eq_true]

/-- A problem that is not PAIRED merges a whole group at once (R79, R80). -/
theorem completeGroup_of_unpaired {p : Nat} (es : List Entry) (hst : (prob s p).twin.state ≠ .paired) :
    completeGroup p es s = (modProb p (fun q => mergeEntries es { q with commitSeq := q.commitSeq + 1 }) s, stOk) := if_neg hst

/-- A YSP frame carries the MAGIC of YSP. -/
theorem magic_of_yspOk {n : Nat} (hok : YspOk f n t = true) : f.magic = 0x5359 := by
  simp only [YspOk, Bool.and_eq_true, beq_iff_eq] at hok
  obtain ⟨⟨⟨⟨⟨⟨⟨-, hmagic⟩, -⟩, -⟩, -⟩, -⟩, -⟩, -⟩ := hok
  exact hmagic

/-- A frame of a type that no client sends, good in its header otherwise, is answered with YSP_TYPE before its length is looked at (R351). -/
theorem yspFront_of_unknown {type n size : Nat} {rsvd : Bool} (body : State → State) (hp : passed f s = some t) (hok : YspOk f n t = true) :
    yspFront type false size rsvd f body s = refuse f.client.toNat type stYspType f.seq none none (greeted f t) := by
  simp only [YspOk, Bool.and_eq_true, Bool.not_eq_true', beq_iff_eq] at hok
  obtain ⟨⟨⟨⟨⟨⟨⟨⟨⟨hfull, hysp⟩, hrunt⟩, hmagic⟩, hversion⟩, hsource⟩, -⟩, -⟩, -⟩, -⟩ := hok
  rw [yspFront, arrive_of_passed _ hp]
  simp only [hfull, hysp, hrunt, hmagic, hversion, hsource, greeted, firstFail_cons, bne_self_eq_false, Bool.not_true, Bool.not_false, Bool.or_self,
    if_false, if_true, Bool.false_eq_true]

/-- Settles O36: a frame under a valid lease renews it and has the effect of its type. -/
theorem yspFramesComplete : Obligations.YspFramesComplete := by
  unfold Obligations.YspFramesComplete
  intro f s t hp v
  refine ⟨?infuse, ?solve, ?measure, fun ty hty hok => ?unknown⟩
  case infuse =>
    intro h hok hclient hchecks hl hst
    have hexec : exec (.yspInfuse f) s = finish s (takeInfuse f v) := congrArg (finish s) (yspFront_of_passed (takeInfuse f) hp hok (fun _ => rfl) rfl)
    refine ⟨fun u hu => hexec.trans (congrArg (finish s) ((takeInfuse_of_valid hclient hchecks hl hst hu).1 rfl)),
      fun u es ack hu hstok => hexec.trans (congrArg (finish s) ((takeInfuse_of_valid hclient hchecks hl hst hu).2 es ack rfl hstok)),
      fun es u hst => completeGroup_of_unpaired es hst⟩
  case solve =>
    intro p hok hflags h2 h6 h12 hl hst hstaging hreq
    rw [exec_yspSolve_of_passed hp hok hflags h2 h6 h12]
    have hstok := solve_ok (s := touchLease (u16 f.payload 4) v) hst hstaging hreq
    have htake : takeSolve f v = (solve p (touchLease (u16 f.payload 4) v)).1 := by
      rw [takeSolve, hl]
      exact if_pos hstok
    exact congrArg (finish s) htake
  case measure =>
    intro n h1 h256 hlen hok hflags h2 hrecs p hl hsamples hst
    have hn : (f.payload.length - 8) / 32 = n := by omega
    have hsize : measureSize f.payload = 8 + 32 * n := by
      rw [measureSize, hn, if_pos ⟨h1, h256, hlen⟩, hlen]
    have htake : takeMeasure f v = takeSamples p (measureRecs f.payload) (touchLease (u16 f.payload 0) v) := by
      rw [takeMeasure, hl]
      exact (if_neg Bool.false_ne_true).trans ((if_neg (fun hbad => Bool.false_ne_true (hsamples.symm.trans hbad))).trans (if_neg hst))
    refine congrArg (finish s) ((yspFront_of_passed (takeMeasure f) hp ?_ (by simp [hflags]) (by simp [h2, hrecs])).trans htake)
    rw [hsize]
    exact hok
  case unknown =>
    have hmagic := magic_of_yspOk hok
    have hrange : ¬ (1 ≤ ty.toNat ∧ ty.toNat ≤ 4) := by
      obtain rfl | hbig := hty
      · decide
      · omega
    have hdo : doUnknown ty f s = refuse f.client.toNat ty.toNat stYspType f.seq none none v := by
      rw [doUnknown, if_neg (by rw [hmagic]; decide), doUnknownType, if_neg hrange]
      exact yspFront_of_unknown id hp hok
    exact congrArg (finish s) hdo

end

end Sys2Proof.Machine

namespace Sys2Proof.Machine

/-! PTP messages of the time bases (R313, R322 to R329), and the pair that the end of a shut-down dissolves (R311, R326). -/

section
variable {s : State} {m : PtpIn} {n : Nat}

/-- A Sync of the master is taken as the latest one, and measures now or with its Follow_Up (R313, R316). -/
theorem doSync_of_master (hh : hearer s m = some n) (hm : fromMaster (tbase s n) m = true) (hfree : (tbase s n).state ≠ .free)
    (hok : ptpIgnored s true m = false) :
    let u := modTb n (fun b => { b with lastSync := some s.lt, master := b.master.map (fun ma => { ma with logSync := m.logInterval }) }) s
    doSync m s = if m.twoStep then modTb n (fun b => { b with twoStep := some (m.seqId, stampTo s (tbase s n) m.ingress, m.corr) }) u
      else syncMeasure n m (stampTo s (tbase s n) m.ingress) (m.stamp + m.corr) u := by
  intro u
  have hcond : (fromMaster (tbase s n) m && (tbase s n).state != .free) = true := by rw [hm, bne_iff_ne.mpr hfree]; rfl
  rw [doSync, hh]
  exact (if_neg (Bool.eq_false_iff.mp hok)).trans (if_pos hcond)

/-- The Follow_Up of the Sync that waits for it measures (R313). -/
theorem doFollowUp_of_master {v c : Int} (hh : hearer s m = some n) (hm : fromMaster (tbase s n) m = true) (hok : ptpIgnored s false m = false)
    (ht : (tbase s n).twoStep = some (m.seqId, v, c)) : doFollowUp m s = syncMeasure n m v (m.stamp + m.corr + c) s := by
  simp [doFollowUp, hh, hok, ht, hm]

/-- The answer to the last request of an end-to-end slave sets the mean path delay (R313). -/
theorem doDelayResp_of_master {t3 d : Int} (hh : hearer s m = some n) (hm : fromMaster (tbase s n) m = true) (hok : ptpIgnored s false m = false)
    (hreq : (tbase s n).delayReq = some (m.seqId, t3)) (hdiff : (tbase s n).syncDiff = some d) (hsrc : (tbase s n).source = 2) (hus : m.forUs = true) :
    doDelayResp m s = modTb n (fun b => { b with delayReq := none, pathDelay := rneDiv (-d + ((m.stamp : Int) - m.corr - t3)) 2 }) s := by
  simp [doDelayResp, hh, hok, hreq, hdiff, hsrc, hus, hm]

/-- The intervals that a gPTP Signaling asks for are taken where they are in range (R329). -/
def takeIntervals (n p : Nat) (ls la lp : Int) (s : State) : State :=
  let t := modTb n (fun b => { b with logSync := takeInterval b.logSync ls, logAnnounce := takeInterval b.logAnnounce la }) s
  { t with time := { t.time with ports := t.time.ports.mod p (fun x => { x with logPdelay := takeInterval x.logPdelay lp }) } }

/-- What an interval request leaves in the time base that it reaches. -/
theorem tbase_takeIntervals (p : Nat) (ls la lp : Int) : tbase (takeIntervals n p ls la lp s) n =
    { tbase s n with logSync := takeInterval (tbase s n).logSync ls, logAnnounce := takeInterval (tbase s n).logAnnounce la } := by
  simp [takeIntervals, tbase, modTb]

/-- A gPTP time base takes the interval requests that it hears (R329). -/
theorem doSignaling_of_gptp (hh : hearer s m = some n) (hok : ptpIgnored s false m = false) (hsrc : (tbase s n).source = 4) (ls la lp : Int) :
    doSignaling m ls la lp s = takeIntervals n m.port.val ls la lp s := by
  rw [doSignaling, hh]
  exact (if_neg (Bool.eq_false_iff.mp hok)).trans (if_pos (beq_iff_eq.mpr hsrc))

/-- A slave-only time base without a partner follows the present master's Announce (R329). -/
theorem doAnnounce_of_master {a : AnnounceIn} (hh : hearer s a.msg = some n) (hm : fromMaster (tbase s n) a.msg = true)
    (hok : ptpIgnored s false a.msg = false) (hp : (tbase s n).partner = none) (hcls : (tbase s n).cfg.cls = 255) : doAnnounce a s = follow n a s := by
  have hbmca : bmca n a s = follow n a s := by
    cases hma : (tbase s n).master <;> simp [bmca, hma, hm, hcls]
  simp [doAnnounce, hh, hok, hp, hbmca]

/-- Settles O38: a message of the master that a time base hears reaches the branch of its kind. -/
theorem ptpMasterMessages : Obligations.PtpMasterMessages := by
  unfold Obligations.PtpMasterMessages
  intro s m n hh hm hfree
  refine ⟨fun hok => ?sync, fun hok => ⟨fun v c ht => ?followUp, fun t3 d hreq hdiff hsrc hus => ?delayResp, fun ls la lp hsrc hls hls' hla hla' => ?signaling,
    fun a ha hp hcls => ?announce⟩⟩
  case sync =>
    intro u
    have hdo := doSync_of_master hh hm hfree hok
    exact ⟨fun h1 => congrArg (finish s) (hdo.trans (if_neg (h1 ▸ Bool.false_ne_true))), fun h2 => congrArg (finish s) (hdo.trans (if_pos h2))⟩
  case followUp => exact congrArg (finish s) (doFollowUp_of_master hh hm hok ht)
  case delayResp => exact congrArg (finish s) (doDelayResp_of_master hh hm hok hreq hdiff hsrc hus)
  case signaling =>
    have hexec : exec (.ptpSignalingReceived m ls la lp) s = finish s (takeIntervals n m.port.val ls la lp s) :=
      congrArg (finish s) (doSignaling_of_gptp hh hok hsrc ls la lp)
    rw [hexec, finish_eq]
    refine ⟨_, rfl, ?_⟩
    rw [carried_tbase, tbase_takeIntervals]
    exact ⟨if_pos ⟨hls, hls'⟩, if_pos ⟨hla, hla'⟩, rfl⟩
  case announce =>
    subst ha
    rw [show exec (.ptpAnnounceReceived a) s = _ from congrArg (finish s) (doAnnounce_of_master hh hm hok hp hcls), finish_eq]
    refine ⟨_, rfl, ?_⟩
    simp [follow, hfree]

/-- Time base 3 is shutting down, and has been paired with time base 2 meanwhile. -/
def pairedDisabling : State :=
  modTb 2 (fun b => { b with partner := some 3 }) (modTb 3 (fun b => { b with state := .disabling, partner := some 2 }) {})

/-- Refutes O39: the end of a shut-down dissolves the pair (R311, R326), so the partner of a paired time base does not stay as it was. -/
theorem not_ptpSendsAndEnds : ¬ Obligations.PtpSendsAndEnds := by
  unfold Obligations.PtpSendsAndEnds
  intro h
  obtain ⟨-, hends⟩ := h
  have hexec := ((hends 3 pairedDisabling).1 (by decide) (by decide)).1
  have hpartner := congrArg (fun t => (tbase t 2).partner) (Host.Outcome.next.inj hexec)
  exact absurd hpartner (by decide)

end

end Sys2Proof.Machine

namespace Sys2Proof.Machine

/-! Ports, peer links and twins: what their events leave (R333, R335, R342, R356, R358, R364 to R370). -/

/-- An entry other than the one changed. -/
theorem Tbl.get_mod_of_ne {α : Type} [Inhabited α] (t : Tbl α) {k j : Nat} (h : j ≠ k) (f : α → α) : (t.mod k f).get j = t.get j :=
  (Tbl.get_set ..).trans (if_neg h)

section
variable {s t : State}

theorem net_of_device (h : s.device = t.device) : s.net = t.net := show s.device.net = t.device.net from congrArg State.net h
theorem links_of_device (h : s.device = t.device) : s.links = t.links := show s.device.links = t.device.links from congrArg State.links h
theorem faults_of_device (h : s.device = t.device) : s.faults = t.faults := show s.device.faults = t.device.faults from congrArg State.faults h

theorem port_of_device (h : s.device = t.device) (p : Nat) : port s p = port t p := congrArg (fun n : Net => n.ports.get p) (net_of_device h)
theorem link_of_device (h : s.device = t.device) (l : Nat) : link s l = link t l := congrArg (fun k : Tbl Link => k.get l) (links_of_device h)

variable (s)

@[simp] theorem port_modPort_self (p : Nat) (f : Port → Port) : port (modPort p f s) p = f (port s p) := Tbl.get_mod_self ..
theorem port_modPort_of_ne {p k : Nat} (h : k ≠ p) (f : Port → Port) : port (modPort p f s) k = port s k := Tbl.get_mod_of_ne _ h f
@[simp] theorem link_modLink_self (l : Nat) (f : Link → Link) : link (modLink l f s) l = f (link s l) := Tbl.get_mod_self ..
@[simp] theorem port_event (code arg : Nat) (data : List Byte) (p : Nat) : port (event code arg data s) p = port s p := port_of_device (event_device ..) p
@[simp] theorem link_event (code arg : Nat) (data : List Byte) (l : Nat) : link (event code arg data s) l = link s l := link_of_device (event_device ..) l
@[simp] theorem prob_event (code arg : Nat) (data : List Byte) (p : Nat) : prob (event code arg data s) p = prob s p :=
  congrArg (fun t : Tbl Prob => t.get p) (event_probs ..)

@[simp] theorem portDone_device (p : Nat) : (portDone p s).device = s.device := endRuns_device ..
@[simp] theorem linkDone_device (l : Nat) : (linkDone l s).device = s.device := endRuns_device ..

/-! ### Ports -/

/-- A shut-down of a port that is not DISABLED discards and counts its queue (R335). -/
theorem port_shutPort_self {byPartner : Bool} {p : Nat} (hup : (port s p).state = .up) :
    port (shutPort byPartner p s) p = { port s p with
      state := .downing, byPartner := byPartner, linkChanged := true, preemptActive := false, holding := false,
      drops := satPlus (port s p).drops (((port s p).queue.map (fun x => (itemSizes x.2).length)).foldl (· + ·) 0), queue := [] } := by
  simp [shutPort, hup]

/-- The end of a port's shut-down is to train again: the partner dropped it, or a restart or an enable waits (R335). -/
def resumes (q : Port) : Bool := q.byPartner || q.enableHeld || q.restart.isSome

/-- A port at the end of its shut-down: DISABLED with the configuration that waited, or training with it (R335). -/
def endedPort (q : Port) : Port :=
  { q with byPartner := false, restart := none, enableHeld := false, cfg := q.restart.getD q.cfg
           state := if resumes q ∧ (q.restart.getD q.cfg).mode ≠ 0 then .training else .disabled }

/-- What the end of a port's shut-down leaves of the port (R335). -/
theorem port_doPortDown {p : Fin 16} (hd : (port s p).state = .downing) : port (doPortDown p s) p = endedPort (port s p) := by
  rw [doPortDown]
  simp only [hd, if_true]
  rw [port_of_device (portDone_device ..)]
  split
  next hr =>
    have hr' : resumes (port s p) = true := hr
    by_cases hm : ((port s p).restart.getD (port s p).cfg).mode = 0 <;> simp [startPort, endedPort, hr', hm]
  next hr =>
    have hr' : resumes (port s p) = false := Bool.not_eq_true _ ▸ hr
    simp [endedPort, hr']

/-- Settles O40: each event of a port changes that port alone, as its state says. -/
theorem portEventsComplete : Obligations.PortEventsComplete := by
  unfold Obligations.PortEventsComplete
  intro p s
  refine ⟨fun ht => ?up, fun hu => ?lost, fun hd => ?down, fun ok hu h3 h4 => ?verify⟩
  case up =>
    have hexec : exec (.portUp p) s = finish s (modPort p (fun q => { q with
        state := .up, linkChanged := true, preemptActive := q.cfg.flags.getLsbD 3 && !q.cfg.flags.getLsbD 4 }) s) :=
      congrArg (finish s) (show doPortUp p s = _ from if_pos ht)
    rw [hexec, finish_eq]
    refine ⟨_, rfl, ?_⟩
    simp only [carried_port, port_modPort_self, true_and]
    exact fun k hk => port_modPort_of_ne s hk _
  case lost =>
    have hexec : exec (.portLinkLost p) s = finish s (shutPort true p s) := congrArg (finish s) (show doPortLost p s = _ from if_pos hu)
    rw [hexec, finish_eq]
    refine ⟨_, rfl, ?_⟩
    simp only [carried_port, port_shutPort_self s hu, true_and]
    exact fun k hk => port_modPort_of_ne s hk _
  case down =>
    rw [show exec (.portShutdownComplete p) s = finish s (doPortDown p s) from rfl, finish_eq]
    refine ⟨fun hpartner hheld hrestart => ⟨_, rfl, ?_⟩, fun hresume => ⟨_, rfl, ?_⟩⟩
    · rw [carried_port, port_doPortDown s hd]
      simp [endedPort, resumes, hpartner, hheld, hrestart]
    · have hr : resumes (port s p) = true := by simpa [resumes, or_assoc] using hresume
      rw [carried_port, port_doPortDown s hd]
      by_cases hm : ((port s p).restart.getD (port s p).cfg).mode = 0 <;> simp [endedPort, hr, hm]
  case verify => exact congrArg (finish s) (show doVerify p ok s = _ from if_pos ⟨hu, h3, h4⟩)

end

end Sys2Proof.Machine

namespace Sys2Proof.Machine

section
variable (s : State)

@[simp] theorem unit_modUnit_self (k i : Nat) (f : Unit' → Unit') : unit (modUnit k i f s) k i = f (unit s k i) := Tbl.get_mod_self ..

@[simp] theorem carried_unit (t : State) (k i : Nat) : unit (carried s t) k i = unit t k i := rfl
@[simp] theorem unit_emit (o : Out) (k i : Nat) : unit (emit o s) k i = unit s k i := rfl
@[simp] theorem unit_modLink (l : Nat) (f : Link → Link) (k i : Nat) : unit (modLink l f s) k i = unit s k i := rfl
@[simp] theorem link_emit (o : Out) (l : Nat) : link (emit o s) l = link s l := rfl
@[simp] theorem link_countTransient (k i d l : Nat) : link (countTransient k i d s) l = link s l := rfl

/-- A transient fault is counted at its unit (R474). -/
theorem transients_countTransient_self (k i d : Nat) : (unit (countTransient k i d s) k i).transients = satInc (unit s k i).transients := by
  have hunit : unit (countTransient k i d s) k i =
      { unit s k i with transients := satInc (unit s k i).transients, detector := d, lastFault := s.lt, unresolved := false } :=
    unit_modUnit_self s k i (fun u => { u with transients := satInc u.transients, detector := d, lastFault := s.lt, unresolved := false })
  rw [hunit]

/-! ### Peer links -/

@[simp] theorem link_sendRecord (l k : Nat) : link (sendRecord l s) k = link s k := by
  unfold sendRecord
  split <;> rfl

/-- The link at the end of its training takes the lanes that are not fenced and the partner's record (R356, R359). -/
theorem link_doPlkUp {l : Fin 8} {lanes : BitVec 4} {g r : Byte} (hon : mainOn s = true) (ht : (link s l).state = .training)
    (hlanes : 2 ≤ laneCount (lanes &&& goodLanes s l)) :
    link (doPlkUp l lanes g r s) l = { link s l with
      state := .up, lanes := lanes &&& goodLanes s l, linkChanged := true, peerGroup := g, peerRank := r, vc2Sent := [] } := by
  rw [doPlkUp]
  simp only [hon, ht, hlanes, and_self, if_true, link_sendRecord]
  split <;> simp [link, modLink]

/-- The link at the end of its shut-down: DISABLED, or training where the partner dropped it or an enable is held (R358). -/
theorem link_doPlkDown {l : Fin 8} (hd : (link s l).state = .draining) :
    let k := link (doPlkDown l s) l
    k.lanes = 0 ∧ k.vc2Sent = [] ∧ k.vc2Wait = []
      ∧ k.state = if (link s l).cause = 1 ∨ (link s l).enableHeld = true then .training else .disabled := by
  rw [doPlkDown]
  simp only [hd, if_true]
  rw [link_of_device (linkDone_device ..)]
  split
  · simp [trainLink]
  · simp

/-- The link and the lane's unit after a flit whose replay succeeds (R356, R474). -/
theorem doCrc_replayed {l : Fin 8} {lane : Fin 4} (hl : (link s l).state = .up ∨ (link s l).state = .draining) :
    doCrc l false lane s = countTransient 7 (4 * l + lane) 4 (emit (.replay l) (modLink l (fun k => { k with replays := satInc k.replays }) s)) :=
  if_pos hl

/-- A flit whose replay fails fences its lane, unless it is fenced already (R356). -/
theorem doCrc_failed {l : Fin 8} {lane : Fin 4} (hl : (link s l).state = .up ∨ (link s l).state = .draining)
    (hlane : (link s l).lanes.getLsbD lane = true) (hf : fenced s 7 (4 * l + lane) = false) :
    doCrc l true lane s = loseLane l lane (emit (.replay l) (modLink l (fun k => { k with replays := satInc k.replays }) s)) := by
  have hlane' : (link (emit (.replay l) (modLink l (fun k => { k with replays := satInc k.replays }) s)) l).lanes.getLsbD lane = true := by
    rw [show link (emit _ (modLink l _ s)) l = _ from link_modLink_self ..]
    exact hlane
  refine (if_pos hl).trans (if_pos ?_)
  rw [hlane']
  exact congrArg not hf

/-! ### Twins -/

/-- After a lost twin its problem is SOLO and no group is queued (R368). -/
theorem twin_twinLost (p : Nat) (steep : W64) :
    (prob (twinLost p steep s) p).twin.state = .solo ∧ (prob (twinLost p steep s) p).twin.queue = [] := by
  have hqueue (q : Prob) : (mergeQueued (BitVec.allOnes 64) q).twin.queue = [] := by
    rw [mergeQueued, mergeEntries_eq]
    refine List.filter_eq_nil_iff.mpr fun g _ => ?_
    rw [decide_eq_true_eq, BitVec.toNat_allOnes]
    omega
  rw [twinLost, prob_event, prob_modProb_self]
  exact ⟨rfl, hqueue _⟩

/-- A digest of the partner is compared with the device's own where that is known, and kept otherwise (R369, R370). -/
theorem doDigest_of_paired {s : State} {p : Fin 1024} (hpaired : (prob s p).twin.state = .paired) (mismatch : Bool) (steep : W64) (status : W32)
    (digest : W64) :
    let u := if mismatch then event 0x40 p (divergeData steep 1 0 status 0 digest) s else s
    ((prob s p).twin.own.find? (fun x => x.1 == steep) = none → doDigest p mismatch steep status digest s =
      modProb p (fun q => { q with twin := { q.twin with partner := q.twin.partner ++ [(steep, status, digest)] } }) u)
    ∧ ∀ x, (prob s p).twin.own.find? (fun x => x.1 == steep) = some x → doDigest p mismatch steep status digest s =
      compareDigests p steep x.2.1 status x.2.2.1 digest
        (modProb p (fun q => { q with twin := { q.twin with own := q.twin.own.filter (fun x => x.1 != steep) } }) u) := by
  intro u
  have hu : prob u p = prob s p := by
    unfold u
    split
    · exact prob_event ..
    · rfl
  rw [← hu, doDigest, if_pos hpaired]
  refine ⟨fun hnone => ?_, fun x hx => ?_⟩
  · simp only [u] at hnone ⊢
    simp only [hnone]
  · simp only [u] at hx ⊢
    simp only [hx]

end

/-- Settles O42: a link's or a twin's state decides what each message, loss or timeout does. -/
theorem linkAndTwinEvents : Obligations.LinkAndTwinEvents := by
  unfold Obligations.LinkAndTwinEvents
  refine ⟨fun l s => ⟨fun lanes g r hon ht hlanes => ?up, fun hu => ?lost, fun hd => ?down, fun lane hl => ?crc⟩,
    fun p s => ⟨fun b hfull htw => ?barrier, fun t hb hlt => ?timeout, fun hpaired => ?digest⟩⟩
  case up =>
    rw [show exec (.plkLinkUp l lanes g r) s = finish s (doPlkUp l lanes g r s) from rfl, finish_eq]
    refine ⟨_, rfl, ?_⟩
    rw [carried_link, link_doPlkUp s hon ht hlanes]
    exact ⟨rfl, rfl, rfl, rfl, rfl⟩
  case lost =>
    have hdo : doPlkLost l s = leaveUp l (modLink l (fun k => { k with state := .draining, cause := 1, linkChanged := true }) s) := by
      rw [doPlkLost, if_pos hu, drainLink, hu]
    exact congrArg (finish s) hdo
  case down =>
    rw [show exec (.plkShutdownComplete l) s = finish s (doPlkDown l s) from rfl, finish_eq]
    exact ⟨_, rfl, link_doPlkDown s hd⟩
  case crc =>
    refine ⟨?_, fun hlane hf => congrArg (finish s) (doCrc_failed s hl hlane hf)⟩
    rw [show exec (.flitCrcError l false lane) s = _ from congrArg (finish s) (doCrc_replayed s hl), finish_eq]
    refine ⟨_, rfl, ?_⟩
    simp only [carried_link, carried_unit, link_countTransient, link_emit, link_modLink_self, transients_countTransient_self, unit_emit, unit_modLink,
      and_self]
  case barrier =>
    have hcond : (full s && ((prob s p).twin.state == .forming || (prob s p).twin.state == .paired)) = true := by
      obtain h | h := htw <;> rw [hfull, h] <;> rfl
    have hdo : doBarrier p b s = _ := if_pos hcond
    refine ⟨fun hc => ?_, fun t hc => ?_⟩
    · rw [hc] at hdo
      exact congrArg (finish s) hdo
    · rw [hc] at hdo
      exact congrArg (finish s) hdo
  case timeout =>
    have hdo : doBarrierTimeout p s = runAlone p t (if (prob s p).twin.state = .paired
        then modProb p (fun q => { q with twin := { q.twin with timeouts := satInc q.twin.timeouts } }) s else s) := by
      rw [doBarrierTimeout, hb]
      exact if_pos hlt
    refine ⟨fun hne => ?_, fun hpaired => ?_⟩
    · rw [if_neg hne] at hdo
      exact congrArg (finish s) hdo
    · rw [if_pos hpaired] at hdo
      exact congrArg (finish s) hdo
  case digest =>
    refine ⟨?_, fun x xs hown hlt => ?_⟩
    · intro mismatch steep status digest u
      have hu : prob u p = prob s p := by
        unfold u
        split
        · exact prob_event ..
        · rfl
      have hdo := doDigest_of_paired hpaired mismatch steep status digest
      refine ⟨fun hnone => ?_, fun x hx => ?_⟩
      · rw [show exec (.digestMessageReceived p mismatch steep status digest) s = _ from congrArg (finish s) (hdo.1 hnone), finish_eq]
        refine ⟨_, rfl, ?_⟩
        rw [carried_prob, prob_modProb_self]
        exact ⟨by rw [hu], (congrArg (fun q : Prob => q.twin.state) hu).trans hpaired⟩
      · exact congrArg (finish s) (hdo.2 x hx)
    · have hdo : doDigestTimeout p s = twinLost p x.1 s := by
        rw [doDigestTimeout, hown]
        exact if_pos ⟨hpaired, hlt⟩
      rw [show exec (.digestTimeout p) s = _ from congrArg (finish s) hdo, finish_eq]
      exact ⟨_, rfl, twin_twinLost s p x.1⟩

end Sys2Proof.Machine

namespace Sys2Proof.Machine

/-! Releases of steeps (R28 to R30, R34, R41, R43, R147). -/

section
variable {p : Nat} {s : State}

/-- What a due release finds: the steep in flight has ended first where it is past its deadline (R29). -/
def endedIfLate (p : Nat) (s : State) : State :=
  if (prob s p).steep.any (fun t => decide (t.deadline ≤ s.lt)) then endAtDeadline p s else s

/-- A release instant that the time base has reached releases a steep and counts the instants passed over (R28, R29). -/
theorem doPeriodic_of_due {x : Int} {n : Nat} (hdue : dueInstant s (prob s p) = some (x, n)) :
    let v := modProb p (fun q => { q with lastInstant := some x, stats := { q.stats with steppedOver := satPlus q.stats.steppedOver n } }) (endedIfLate p s)
    doPeriodic p s = releaseSteep p { deadline := v.lt + (prob v p).sched.deadline, instant := x } (shedEvents n v) := by
  intro v
  unfold v endedIfLate
  rw [doPeriodic, hdue]
  cases (prob s p).steep <;> rfl

/-- A held request that is due is released with the instant of its acceptance (R41, R43). -/
theorem doHeld_of_due {h : HeldReq} (hheld : (prob s p).held = some h) (hdue : heldDue (prob s p) s.lt = true) :
    doHeld p s = releaseSteep p { deadline := s.lt + (prob s p).sched.deadline, instant := h.instant
                                  cut := if (prob s p).sched.policy = 2
                                    then some (match (prob s p).lastRelease with | some l => s.lt - l | none => (prob s p).sched.period) else none }
      (modProb p (fun q => { q with held := none }) s) := by
  unfold doHeld
  dsimp only
  rw [hheld]
  exact if_pos hdue

/-- The predicted wake of a set's domains before a release (R30, R319). -/
theorem doPrewarm_of_near {p : Fin 1024} {k : Nat} (hset : (prob s p).set = some k) (hst : (prob s p).st = .enabled)
    (hreq : (prob s p).sched.requested = false) (hstaging : (prob s p).staging = false) (hpre : (prob s p).prewarm = false)
    (hperiod : 0 < (prob s p).sched.period) (hclock : clockRuns s (prob s p).sched.tb = true) {cold : Bool}
    (hcold : (domainsOf (rset s k)).any (fun d => (pd s d).state == .off || (pd s d).state == .goingOff) = cold)
    (hnear : predictLt s (prob s p).sched.tb (nextInstant s (prob s p)) ≤ s.lt + (if cold then 40000 else 2000)) :
    doPrewarm p s = wakeSet (rset s k) (modProb p (fun q => { q with prewarm := true }) s) := by
  subst cold
  unfold doPrewarm
  simp only [hset, hst, hreq, hstaging, hpre, hperiod, hclock, decide_eq_true hnear]
  rfl

/-- Settles O43: the release instant, the held request or the coming release meets its row's condition. -/
theorem releaseEventsComplete : Obligations.ReleaseEventsComplete := by
  unfold Obligations.ReleaseEventsComplete
  intro p s
  refine ⟨fun x n hdue => ?periodic, fun h hheld hdue => congrArg (finish s) (doHeld_of_due hheld hdue),
    fun k hset hst hreq hstaging hpre hperiod hclock => ?prewarm⟩
  case periodic =>
    intro u v
    have hu : u = endedIfLate p s := by
      unfold u endedIfLate
      cases (prob s p).steep with
      | none => rfl
      | some t => by_cases hlate : t.deadline ≤ s.lt <;> simp [hlate]
    have hdo := doPeriodic_of_due hdue
    rw [← hu] at hdo
    exact congrArg (finish s) hdo
  case prewarm =>
    intro cold hnear
    exact congrArg (finish s) (doPrewarm_of_near hset hst hreq hstaging hpre hperiod hclock rfl hnear)

end

end Sys2Proof.Machine

namespace Sys2Proof.Machine

/-! What happens inside a steep, and its ends (R14, R37, R47, R48, R82, R104, R115, R120, R134, R171, R172). -/

section
variable {p : Fin 1024} {s : State} {im : Image} {t : Steep}

theorem prob_modProb_of_ne (s : State) {p q : Nat} (h : q ≠ p) (f : Prob → Prob) : prob (modProb p f s) q = prob s q := Tbl.get_mod_of_ne _ h f

/-- Settling a retry leaves what the ends of a steep look at. -/
theorem settleRetry_ends (ok : Bool) (t : Steep) (s : State) : (settleRetry ok t s).1.late = t.late ∧ (settleRetry ok t s).1.deadline = t.deadline
    ∧ (settleRetry ok t s).1.budget = t.budget ∧ ∀ now, (settleRetry ok t s).1.spent now = t.spent now := by
  unfold settleRetry
  split <;> exact ⟨rfl, rfl, rfl, fun _ => rfl⟩

/-- The deadline cuts a steep, but marks a commit (R48). -/
theorem doDeadline_of_passed (ht : (prob s p).steep = some t) (hd : t.deadline ≤ s.lt) :
    doDeadline p s = if t.phase = .commit then modProb p (fun q => { q with steep := some { t with late := true } }) s
      else finishSteep p t.deadlineCode (t.phase == .running && t.iterating && decide (t.iterSince < s.lt)) s := by
  unfold doDeadline endAtDeadline
  rw [ht]
  exact if_pos hd

/-- An iteration in progress computes what its solver's inner run does (R115). -/
theorem running?_of_inTime (hrun : t.phase = .running) (hit : t.iterating = true) (hev : t.evaluated = true) (hin : t.sharesIn = true)
    (hpasses : t.passes = []) (htime : t.inTime s.lt = true) : t.running? s p im = some (solveIn s p im t).runIter := by
  refine if_pos ?_
  simp [Steep.inIteration, hrun, hit, hev, hin, hpasses, htime]

/-- Settles O44: the steep's phase and its charge decide its end, and each share or result of an iteration comes in. -/
theorem steepRowsComplete : Obligations.SteepRowsComplete := by
  unfold Obligations.SteepRowsComplete
  intro p s im t him ht
  refine ⟨?commit, fun hd => ?deadline, fun hphase hb hl => ?budget, fun hrun hit => ⟨fun pipe hne => ?stage, fun m qd hmem hw => ?model,
    fun htime => ⟨?trap, fun hev hin hpasses => ?iteration⟩⟩⟩
  case commit =>
    intro x u overrun hphase hdone
    obtain ⟨hlate, hdeadline, hbudget, hspent⟩ := settleRetry_ends true t s
    have hdo : doCommit p s = (if t.late = true ∨ t.deadline ≤ u.lt then finishSteep p .deadlineInfeas false u
        else if t.budget ≤ t.spent u.lt then finishSteep p .deadlineInfeas false overrun else evalDone p (goOn p x.1 u)) := by
      unfold doCommit
      rw [ht]
      refine (if_pos ⟨hphase, hdone⟩).trans ?_
      dsimp only
      simp only [hlate, hdeadline, hbudget, hspent, Bool.or_eq_true, decide_eq_true_eq]
      rfl
    exact congrArg (finish s) hdo
  case deadline =>
    have hdo := doDeadline_of_passed ht hd
    exact ⟨fun hne => congrArg (finish s) (hdo.trans (if_neg hne)), fun hc => congrArg (finish s) (hdo.trans (if_pos hc))⟩
  case budget =>
    have hcond : ((t.phase == .commit || t.phase == .running) && decide (t.budget ≤ t.spent s.lt) && !t.late) = true := by
      rw [decide_eq_true hb, hl]
      obtain h | h := hphase <;> rw [h] <;> rfl
    have hdo : doBudgetEnd p s = endAtDeadline p (modProb p (fun q => { q with stats := { q.stats with overruns := satInc q.stats.overruns } }) s) := by
      unfold doBudgetEnd
      rw [ht]
      exact if_pos hcond
    exact congrArg (finish s) hdo
  case stage =>
    have hdo : doJduStage p pipe s = evalDone p (modProb p (fun q => { q with
        steep := some { t with jduLeft := t.jduLeft.modify pipe (fun l => l.drop 1) } }) s) := by
      unfold doJduStage
      rw [ht]
      exact if_pos ⟨hrun, hit, hne⟩
    exact congrArg (finish s) hdo
  case model =>
    have hdo : doModelEval p m qd s = evalDone p (modProb p (fun q => { q with
        steep := some { t with modelLeft := t.modelLeft.filter (· != (m.val, qd.val)) } }) s) := by
      unfold doModelEval
      rw [him, ht]
      exact if_pos ⟨hrun, hit, hmem, hw⟩
    exact congrArg (finish s) hdo
  case trap =>
    intro n htraps x
    have hcond : (t.phase == .running && t.iterating && t.inTime s.lt) = true := by rw [hrun, hit, htime]; rfl
    have hdo : doTrap p x s = trapSteep p im t n (countCorrected x s) := by
      unfold doTrap
      rw [him, ht]
      exact (if_pos hcond).trans (if_neg htraps)
    exact congrArg (finish s) hdo
  case iteration =>
    have hrunning := running?_of_inTime (p := p) (im := im) hrun hit hev hin hpasses htime
    refine ⟨fun r n corrected hr htraps => ?_, ?_⟩
    · have hdo : doIteration p corrected s = completeIter p im t r n (countCorrected corrected s) := by
        unfold doIteration
        rw [him, ht]
        dsimp only
        rw [hrunning, hr]
        exact if_pos htraps
      exact congrArg (finish s) hdo
    · intro n htraps hbreaks
      have hgo : ¬ (n.breaks ≤ t.breakdowns ∨ n.traps ≠ []) := by
        rintro (h | h)
        · exact absurd hbreaks (Nat.not_lt.mpr h)
        · exact h htraps
      have hdo : doBreakdown p s = if 4 ≤ t.breakdowns then finishSteep p .numeric false
            (modProb p (fun q => { q with steep := some (mergeTensor p t n.tn s).1 }) (mergeTensor p t n.tn s).2)
          else modProb p (fun q => { q with steep := some { t with breakdowns := t.breakdowns + 1 } }) s := by
        unfold doBreakdown
        rw [him, ht]
        dsimp only
        rw [hrunning]
        exact if_neg hgo
      refine ⟨fun hfew => ?_, fun hmany => congrArg (finish s) (hdo.trans (if_pos hmany))⟩
      rw [if_neg (Nat.not_le.mpr hfew)] at hdo
      rw [show exec (.factorisationBreakdown p) s = _ from congrArg (finish s) hdo, finish_eq]
      refine ⟨_, rfl, ?_, fun q hq => ?_⟩
      · rw [carried_prob, prob_modProb_self]
      · rw [carried_prob, prob_modProb_of_ne _ hq]

end

end Sys2Proof.Machine

namespace Sys2Proof.Machine

/-! What happens between steeps, and training events of a job (R45, R46, R52, R141, R154, R155, R182, R183, R235 to R247, R259). -/

section
variable {α : Type} {P : State → Prop} {f : α → State → State}

/-- What every change of a fold keeps, the fold keeps. -/
theorem forAll_keeps (l : List α) (hkeep : ∀ a t, P t → P (f a t)) {s : State} (hs : P s) : P (forAll l f s) := by
  induction l generalizing s with
  | nil => exact hs
  | cons a l ih => exact ih (hkeep a s hs)

/-- What one change of a fold brings about and every change keeps holds after the fold. -/
theorem forAll_brings {l : List α} {a : α} (ha : a ∈ l) (hkeep : ∀ a t, P t → P (f a t)) (hbring : ∀ t, P (f a t)) (s : State) :
    P (forAll l f s) := by
  induction l generalizing s with
  | nil => exact nomatch ha
  | cons b l ih =>
    obtain rfl | ha := List.mem_cons.mp ha
    · exact forAll_keeps l hkeep (hbring s)
    · exact ih ha (f b s)

/-- A part of the state that no change of a fold touches is the same after it. -/
theorem forAll_same {β : Type} (part : State → β) (l : List α) (hsame : ∀ a t, part (f a t) = part t) (s : State) : part (forAll l f s) = part s :=
  forAll_keeps (P := fun t => part t = part s) l (fun a t ht => (hsame a t).trans ht) rfl

end

/-- An entry that is not the default one is listed. -/
theorem Tbl.mem_of_get_ne_default {α : Type} [Inhabited α] {t : Tbl α} {k : Nat} (h : t.get k ≠ default) : (k, t.get k) ∈ t := by
  induction t with
  | nil => exact absurd rfl h
  | cons e t ih =>
    obtain ⟨i, a⟩ := e
    rw [Tbl.get] at h ⊢
    split at h
    next hi =>
      rw [if_pos hi, hi]
      exact List.mem_cons_self
    next hi =>
      rw [if_neg hi]
      exact List.mem_cons_of_mem _ (ih h)

/-- A removed entry is not listed. -/
theorem Tbl.get?_del_self {α : Type} (t : Tbl α) (k : Nat) : (t.del k).get? k = none := by
  induction t with
  | nil => rfl
  | cons e t ih =>
    obtain ⟨i, a⟩ := e
    by_cases hi : i = k
    · simpa [Tbl.del, hi] using ih
    · simpa [Tbl.del, Tbl.get?, hi] using ih

section
variable (s : State)

/-! ### Staging of a quadrant -/

theorem strainSet_sets (k n : Nat) : (strainSet k n s).sets = s.sets := by
  induction n generalizing s with
  | zero => rfl
  | succ n ih =>
    unfold strainSet
    split
    · split
      · rfl
      · rw [ih, modProb_sets]
    · rfl

theorem strain_sets : (strain s).sets = s.sets := forAll_same State.sets _ (fun k t => strainSet_sets t k _) s

theorem stagedProb_sets (k : Nat) : (stagedProb k s).sets = s.sets := by
  refine forAll_same State.sets _ (fun p t => ?_) s
  split
  · rw [sets_of_device (endAwaitP_device ..), modProb_sets]
  · rfl

/-- What WEIGHT_STAGING_COMPLETE does to a set: its quadrant is staged with the models wanted (R182). -/
def stageQuad (qd : Fin 4) (e : Nat × RSet) (t : State) : State :=
  let ms := stageModels t e.1
  let t := modSet e.1 (fun r => { r with toStage := r.toStage.filter (· != qd.val) }) t
  let t := forAll (probsOf t e.1) (fun p t => modProb p (fun q => { q with
    staged := q.staged.filter (fun x => x.2.1 != qd.val) ++ (ms.filter (fun x => x.1 == p)).map (fun x => (x.2.1, qd.val, x.2.2)) }) t) t
  if (rset t e.1).toStage.isEmpty then strain (stagedProb e.1 t) else t

theorem doStaging_eq (qd : Fin 4) :
    doStaging qd s = forAll (s.sets.filter (fun e => decide (e.1 < 64) && e.2.toStage.contains qd.val && e.2.running.isNone)) (stageQuad qd) s := rfl

/-- Staging takes the quadrant off the set's list, and no other set changes (R182). -/
theorem rset_stageQuad (qd : Fin 4) (e : Nat × RSet) (k : Nat) :
    rset (stageQuad qd e s) k = if k = e.1 then { rset s k with toStage := (rset s k).toStage.filter (· != qd.val) } else rset s k := by
  have hsets : (stageQuad qd e s).sets = s.sets.mod e.1 (fun r => { r with toStage := r.toStage.filter (· != qd.val) }) := by
    unfold stageQuad
    extract_lets ms t u
    have hu : u.sets = t.sets := forAll_same State.sets _ (fun p t => modProb_sets ..) t
    split
    · rw [strain_sets, stagedProb_sets, hu]
      rfl
    · exact hu
  rw [rset, hsets]
  split
  next hk =>
    rw [hk, Tbl.get_mod_self]
    rfl
  next hk => exact Tbl.get_mod_of_ne _ hk _

/-- A set between two steeps has the quadrant staged (R182). -/
theorem not_mem_toStage_doStaging {qd : Fin 4} {k : Nat} (hk : k < 64) (hrun : (rset s k).running = none) :
    qd.val ∉ (rset (doStaging qd s) k).toStage := by
  rw [doStaging_eq]
  have hkeep (e : Nat × RSet) (t : State) (ht : qd.val ∉ (rset t k).toStage) : qd.val ∉ (rset (stageQuad qd e t) k).toStage := by
    rw [rset_stageQuad]
    split
    · exact fun h => ht (List.mem_filter.mp h).1
    · exact ht
  by_cases hmem : qd.val ∈ (rset s k).toStage
  · have hlisted : (k, rset s k) ∈ s.sets := Tbl.mem_of_get_ne_default fun hd => by
      rw [rset, hd] at hmem
      exact nomatch hmem
    refine forAll_brings (P := fun t => qd.val ∉ (rset t k).toStage) (List.mem_filter.mpr ⟨hlisted, ?_⟩) hkeep (fun t => ?_) s
    · simp [hk, hmem, hrun]
    · rw [rset_stageQuad, if_pos rfl]
      simp
  · exact forAll_keeps (P := fun t => qd.val ∉ (rset t k).toStage) _ hkeep hmem

end

/-! ### Between steeps -/

/-- Settles O45: what froze, was captured, ended or is due is carried out. -/
theorem schedulerEventsComplete : Obligations.SchedulerEventsComplete := by
  unfold Obligations.SchedulerEventsComplete
  intro s
  refine ⟨fun p im u rest him hupd => ?prior, fun p hst hsteep hafter hupd => ?retired, fun p k bs hk hbs => ?written, fun bs r hq hr => ?query,
    fun q k hk hrun => ?staging, fun k p hnext hrest hpass => ?lower, fun hready hint hdue => ?shed, fun tile => rfl⟩
  case prior =>
    intro r mine a b c
    have hdo : doPrior p (a, b, c) s = refreshPower (forAll mine (fun e t => endWork e.2 t)
        (settle (forAll mine (fun e t => modSet e.1 (fun r => { r with running := none }) t)
          (modProb p (fun q => mergePrior u r.2 { q with est := { (if u.void then q.est else r.1) with updating := rest } }) (countCorrected (a, b, c) s))))) := by
      unfold doPrior
      dsimp only
      rw [him, hupd]
      rfl
    exact congrArg (finish s) hdo
  case retired =>
    have hcond : ((prob s p).st == .retiring && (prob s p).steep.isNone && (prob s p).after.isEmpty && (prob s p).est.updating.isEmpty) = true := by
      rw [hst, hsteep, hafter, hupd]
      rfl
    exact congrArg (finish s) (show doRetired p s = _ from if_pos hcond)
  case written =>
    intro u
    refine ⟨fun r rs hruns => ?_, fun hruns => ?_⟩
    · have hdo : doCkptWritten p s = if bs.length ≤ r.cmd.c.length.toNat then endAwaitP .checkpoint p stOk [] (putRecord r.cmd.c.addr bs u)
          else endAwaitP .checkpoint p stCkptSpace (leBytes 4 bs.length) u := by
        have hruns' : runsOf u .checkpoint p = r :: rs := hruns
        unfold doCkptWritten writeCheckpoint
        rw [hk]
        dsimp only
        rw [hbs]
        dsimp only
        rw [hruns']
        rfl
      exact ⟨fun hfits => congrArg (finish s) (hdo.trans (if_pos hfits)), fun hshort => congrArg (finish s) (hdo.trans (if_neg (Nat.not_le.mpr hshort)))⟩
    · have hdo : doCkptWritten p s = u := by
        have hruns' : runsOf u .checkpoint p = [] := hruns
        unfold doCkptWritten writeCheckpoint
        rw [hk]
        dsimp only
        rw [hbs]
        dsimp only
        rw [hruns']
      exact congrArg (finish s) hdo
  case query =>
    have hdo : doQueryDone s = endQuery (endAwait .jduQuery stOk [] (putRecord r.cmd.c.addr2 bs s)) := by
      unfold doQueryDone
      rw [hq, hr]
    exact congrArg (finish s) hdo
  case staging =>
    rw [show exec (.weightStagingComplete q) s = finish s (doStaging q s) from rfl, finish_eq]
    exact ⟨_, rfl, not_mem_toStage_doStaging s hk hrun⟩
  case lower =>
    have hcond : (levelsRest s k && lowerPasses s k (fun q => (prob s q).level - (if q = p then 1 else 0))) = true := by rw [hrest, hpass]; rfl
    have hdo : doOverloadLower k s = modProb p (fun q => { q with level := q.level - 1, levelAt := some s.lt }) s := by
      unfold doOverloadLower
      rw [hnext]
      exact if_pos hcond
    exact congrArg (finish s) hdo
  case shed =>
    intro u
    have hcond : (ready s && s.mbx.shedInterval != 0 && decide (s.mbx.shedStart + 1000 * s.mbx.shedInterval.toNat ≤ s.lt)) = true := by
      rw [hready, bne_iff_ne.mpr hint, decide_eq_true hdue]
      rfl
    exact congrArg (finish s) (show doShedInterval s = _ from if_pos hcond)

/-! ### Training -/

theorem jobs_of_device {s t : State} (h : s.device = t.device) : s.jobs = t.jobs := show s.device.jobs = t.device.jobs from congrArg State.jobs h

@[simp] theorem prob_endAwaitP (a : Await) (p : Nat) (st : Status) (res : List Byte) (s : State) (q : Nat) : prob (endAwaitP a p st res s) q = prob s q :=
  congrArg (fun t : Tbl Prob => t.get q) (probs_of_device (endAwaitP_device ..))

theorem jobOf_endAwaitP (a : Await) (p : Nat) (st : Status) (res : List Byte) (s : State) (q m : Nat) :
    jobOf (endAwaitP a p st res s) q m = jobOf s q m := by
  rw [jobOf, jobs_of_device (endAwaitP_device ..), jobOf]

/-- What the end of a stop leaves of its job and its problem: no job and no generation before (R247). -/
theorem removeJob_leaves (p model : Nat) (s : State) :
    jobOf (removeJob p model s) p model = none ∧ (prob (removeJob p model s) p).prev.get? model = none
      ∧ (prob (removeJob p model s) p).gens = (prob s p).gens ∧ (prob (removeJob p model s) p).params = (prob s p).params := by
  have hprob : prob (removeJob p model s) p = { prob s p with prev := (prob s p).prev.del model } := by
    unfold removeJob
    rw [prob_modProb_self]
    rfl
  refine ⟨?_, by rw [hprob]; exact Tbl.get?_del_self .., by rw [hprob], by rw [hprob]⟩
  rw [jobOf, removeJob, modProb_jobs, List.find?_eq_none]
  intro j hj hmine
  simp only [List.mem_filter, Bool.not_eq_true'] at hj
  rw [hmine] at hj
  exact nomatch hj.2

/-- Settles O46: the job's state and its problem's decide each event of a round and the end of a stop. -/
theorem trainingEventsComplete : Obligations.TrainingEventsComplete := by
  unfold Obligations.TrainingEventsComplete
  intro p model s j hj
  refine ⟨fun f hf hw hnone hcut => ?round, fun im m him hm => ⟨fun n hn ht hlt => ?step, fun hv hempty => ?reject, fun hv hne => ?decide⟩,
    fun hstop => ⟨fun hheld => ?ended, fun c w hheld => ?held⟩⟩
  case round =>
    have hdo : doRoundStart p model s = modJob p model Job.beginRound s := by
      unfold doRoundStart
      rw [hj, hf]
      exact if_pos ⟨hw, hnone, hcut⟩
    exact congrArg (finish s) hdo
  case step =>
    have hdo : doTrainStep p model s = modJob p model (fun j =>
        let j' := withFlags (runStep im m (im.weightsOf m) j)
        { j' with stepsDone := some (n + 1), state := if n + 1 = j.cfg.steps then .validating else .training }) s := by
      unfold doTrainStep
      rw [hj, him]
      dsimp only
      rw [hn, hm]
      exact if_pos ⟨ht, hlt⟩
    exact congrArg (finish s) hdo
  case reject =>
    have hdo : doValidate p model s = modJob p model Job.reject s := by
      unfold doValidate
      rw [hj, him]
      dsimp only
      rw [hm]
      exact (if_pos hv).trans (if_pos (List.isEmpty_iff.mpr hempty))
    exact congrArg (finish s) hdo
  case decide =>
    intro r j' u
    have hlist : ¬ j.val.isEmpty = true := fun h => hne (List.isEmpty_iff.mp h)
    have hdo : doValidate p model s = if j.val.isEmpty then modJob p model Job.reject s else match (prob u p).set with
        | some k => if j.accepted.length < j'.accepted.length then modSet k (fun x => { x with toStage := (x.toStage ++ x.quads).eraseDups }) u else u
        | none => u := by
      unfold doValidate
      rw [hj, him]
      dsimp only
      rw [hm]
      exact if_pos hv
    exact congrArg (finish s) (hdo.trans (if_neg hlist))
  case ended =>
    have hdo : doTrainStopped p model s = endAwaitP (.trainStop model) p stOk (stopResult (prob s p) j) (removeJob p model s) := by
      unfold doTrainStopped
      rw [hj]
      dsimp only
      rw [if_pos hstop, hheld]
    obtain ⟨hjob, hprev, hgens, hparams⟩ := removeJob_leaves p model s
    have hprob := prob_endAwaitP (.trainStop model) p stOk (stopResult (prob s p) j) (removeJob p model s) p
    rw [show exec (.trainStopComplete p model) s = _ from congrArg (finish s) hdo, finish_eq]
    refine ⟨_, rfl, (jobOf_endAwaitP ..).trans hjob, ?_, ?_, ?_⟩
    · rw [carried_prob, hprob, hprev]
    · rw [carried_prob, hprob, hgens]
    · rw [carried_prob, hprob, hparams]
  case held =>
    intro u
    have hdo : doTrainStopped p model s = endAwaitP (.trainSet model) p (replaceJob p model c w u).2 [] (replaceJob p model c w u).1 := by
      unfold doTrainStopped
      rw [hj]
      dsimp only
      rw [if_pos hstop, hheld]
    exact congrArg (finish s) hdo

end Sys2Proof.Machine

namespace Sys2Proof.Machine

/-! Loop registers, loop events and the boot profile (R266 to R290, R296). -/

section
variable (e : Edge)

@[simp] theorem loopN_modLoop_self (n : Nat) (f : Loop → Loop) : loopN (e.modLoop n f) n = f (loopN e n) := Tbl.get_mod_self ..
theorem loopN_modLoop_of_ne {n k : Nat} (h : k ≠ n) (f : Loop → Loop) : loopN (e.modLoop n f) k = loopN e k := Tbl.get_mod_of_ne _ h f

/-- A change of a loop is what it makes of the present one. -/
theorem modLoop_congr {n : Nat} {f g : Loop → Loop} (h : f (loopN e n) = g (loopN e n)) : e.modLoop n f = e.modLoop n g := by
  have h' : f (e.loops.get n) = g (e.loops.get n) := h
  rw [Edge.modLoop, Edge.modLoop, Tbl.mod, Tbl.mod, h']

end

section
variable {s : State} {n : Fin 32}

/-- Rankoaz is ready and the edge die is powered: the direct window is open (R410). -/
theorem edgeOpen_of_ready (hready : ready s = true) (hon : s.edge.on = true) : edgeOpen s = true := by rw [edgeOpen, hready, hon]; rfl

/-- A step that changes one loop of the edge die. -/
theorem exec_modLoop {i : Instr} {f : Loop → Loop} (hexec : exec i s = finish s (modEdge (fun e => e.modLoop n f) s)) :
    ∃ t, exec i s = .next t ∧ loopN t.edge n = f (loopN s.edge n) ∧ ∀ k, k ≠ n.val → loopN t.edge k = loopN s.edge k := by
  rw [hexec, finish_eq]
  refine ⟨_, rfl, ?_, fun k hk => ?_⟩
  · rw [carried_edge, modEdge_edge, loopN_modLoop_self]
  · rw [carried_edge, modEdge_edge, loopN_modLoop_of_ne _ hk]

/-- The same, with what the change makes of the present loop. -/
theorem exec_modLoop_of_eq {i : Instr} {f : Loop → Loop} {l : Loop} (hexec : exec i s = finish s (modEdge (fun e => e.modLoop n f) s))
    (hl : f (loopN s.edge n) = l) : ∃ t, exec i s = .next t ∧ loopN t.edge n = l ∧ ∀ k, k ≠ n.val → loopN t.edge k = loopN s.edge k :=
  hl ▸ exec_modLoop hexec

/-! ### Loop registers -/

/-- A start that is asked for: of the loop alone, at its next boundary or held (R283, R286). -/
def askedStart (tick : Nat) (l : Loop) : Loop :=
  if l.state = .running ∨ l.busy && l.state == .stopped then l
  else if l.state = .stopping then { l with startHeld := true, run := true }
  else { l with starting := some tick, run := true }

/-- RUN as 1 of a loop that R284 does not refuse asks for its start (R283). -/
theorem exec_leRunWrite_start (hopen : edgeOpen s = true) (hbad : startBad s.edge n (takenLoops s.edge) = false) :
    exec (.leRunWrite n true) s = finish s (modEdge (fun e => e.modLoop n (askedStart s.edge.tick)) s) := by
  have hstart : startOne n s.edge = s.edge.modLoop n (askedStart s.edge.tick) := if_neg (Bool.eq_false_iff.mp hbad)
  have hdo : doLeRun n true s = { s with edge := startOne n s.edge } := if_pos hopen
  rw [hstart] at hdo
  exact congrArg (finish s) hdo

/-- RUN as 1 of a loop that R284 refuses sets CFG_ERR (R284). -/
theorem exec_leRunWrite_refused (hopen : edgeOpen s = true) (hbad : startBad s.edge n (takenLoops s.edge) = true) :
    exec (.leRunWrite n true) s = finish s (modEdge (fun e => e.modLoop n (fun l => { l with cfgErr := true })) s) := by
  have hstart : startOne n s.edge = s.edge.modLoop n (fun l => { l with cfgErr := true }) := if_pos hbad
  have hdo : doLeRun n true s = { s with edge := startOne n s.edge } := if_pos hopen
  rw [hstart] at hdo
  exact congrArg (finish s) hdo

/-- A stop that is asked for: of the loop alone (R285, R286). -/
def askedStop (tick : Nat) (l : Loop) : Loop :=
  { l with run := false, starting := none, startHeld := false
           state := if l.state = .running then .stopping else l.state
           stopTick := if l.state = .running then tick else l.stopTick }

/-- RUN as 0 stops a loop that runs and takes back a start (R285). -/
theorem exec_leRunWrite_stop (hopen : edgeOpen s = true) :
    exec (.leRunWrite n false) s = finish s (modEdge (fun e => e.modLoop n (askedStop s.edge.tick)) s) := by
  have hdo : doLeRun n false s = { s with edge := askStop n s.edge } := if_pos hopen
  have hstop : askStop n s.edge = s.edge.modLoop n (askedStop s.edge.tick) := by
    refine modLoop_congr _ ?_
    by_cases hrun : (loopN s.edge n).state = .running <;> simp [askedStop, hrun]
  rw [hstop] at hdo
  exact congrArg (finish s) hdo

/-- With the direct window open, HOLD, CLEAR_SAFE and the four configuration registers are each a change of their loop (R278, R280, R281). -/
theorem exec_loopWrites (hopen : edgeOpen s = true) :
    (∀ h, exec (.leHoldWrite n h) s = finish s (modEdge (fun e => e.modLoop n (writeHold s.edge.tick h)) s))
    ∧ exec (.clearSafe n) s = finish s (modEdge (fun e => e.modLoop n (writeClear s.edge.tick)) s)
    ∧ ∀ (r : Fin 4) v, exec (.leCfgWrite n r v) s = finish s (modEdge (fun e => e.modLoop n (writeWord s.edge.tick r v)) s) :=
  ⟨fun h => congrArg (finish s) (show doLeHold n h s = _ from if_pos hopen), congrArg (finish s) (show doClearSafe n s = _ from if_pos hopen),
    fun r v => congrArg (finish s) (show doLeCfg n r v s = _ from if_pos hopen)⟩

/-- A change of the edge die that makes the same of a loop is the same change. -/
theorem finish_modLoop_congr {f g : Loop → Loop} (h : f (loopN s.edge n) = g (loopN s.edge n)) :
    finish s (modEdge (fun e => e.modLoop n f) s) = finish s (modEdge (fun e => e.modLoop n g) s) :=
  congrArg (fun e => finish s { s with edge := e }) (modLoop_congr s.edge h)

/-! ### Selectors -/

/-- The mark of a configuration write that is ignored, on a loop that is not STOPPED (R272). -/
def ignoreIfBusy (l : Loop) : Loop := if l.state = .stopped then l else { l with cfgIgnored := true }

/-- Marking loops leaves the selectors and marks each loop of the list that is not STOPPED. -/
theorem foldl_ignoreIfBusy (ns : List Nat) (e : Edge) :
    (ns.foldl (fun e n => e.modLoop n ignoreIfBusy) e).sels = e.sels
    ∧ ∀ k, loopN (ns.foldl (fun e n => e.modLoop n ignoreIfBusy) e) k = if k ∈ ns then ignoreIfBusy (loopN e k) else loopN e k := by
  have htwice (l : Loop) : ignoreIfBusy (ignoreIfBusy l) = ignoreIfBusy l := by
    by_cases h : l.state = .stopped <;> simp [ignoreIfBusy, h]
  induction ns generalizing e with
  | nil => exact ⟨rfl, fun k => rfl⟩
  | cons n ns ih =>
    obtain ⟨hsels, hloops⟩ := ih (e.modLoop n ignoreIfBusy)
    refine ⟨hsels, fun k => (hloops k).trans ?_⟩
    by_cases hk : k = n
    · subst hk
      by_cases hmem : k ∈ ns <;> simp [hmem, htwice]
    · rw [loopN_modLoop_of_ne _ hk]
      simp [hk]

/-- The members of a selector decide whether a write of its registers is taken (R272). -/
theorem writeSel_eq (m : Nat) (cfg : Bool) (v : W32) (e : Edge) :
    let ns := bitsOf ((e.sels.get m).members ||| (if cfg then 0 else v)).toNat 32
    ((∀ k ∈ ns, (loopN e k).state = .stopped) → writeSel m cfg v e =
      { e with sels := e.sels.set m (if cfg then { e.sels.get m with cfg := v &&& 0x3F } else { e.sels.get m with members := v }) })
    ∧ ((∃ k ∈ ns, (loopN e k).state ≠ .stopped) → writeSel m cfg v e = ns.foldl (fun e n => e.modLoop n ignoreIfBusy) e) := by
  intro ns
  refine ⟨fun hall => if_neg ?_, fun hbusy => if_pos ?_⟩
  · rw [List.any_eq_true]
    rintro ⟨k, hk, hne⟩
    exact bne_iff_ne.mp hne (hall k hk)
  · obtain ⟨k, hk, hne⟩ := hbusy
    exact List.any_eq_true.mpr ⟨k, hk, bne_iff_ne.mpr hne⟩

/-- Settles O47: each write is a change of its own loop or selector, decided by the loop's state. -/
theorem loopRowsComplete : Obligations.LoopRowsComplete := by
  unfold Obligations.LoopRowsComplete
  intro n s hready hon l others
  have hopen := edgeOpen_of_ready hready hon
  obtain ⟨hhold, hclear, hcfg⟩ := exec_loopWrites (n := n) hopen
  refine ⟨fun hgood => ?start, fun hbad => exec_modLoop (exec_leRunWrite_refused hopen hbad), ?stop, fun hst => ?stopped, fun hst => ?busy,
    fun m v cfg => ?selector⟩
  case start =>
    have hexec := exec_leRunWrite_start hopen hgood
    refine ⟨fun hidle => exec_modLoop_of_eq hexec ?_, fun hstopping => exec_modLoop_of_eq hexec ?_, fun hruns => exec_modLoop_of_eq hexec ?_⟩
    · have hstopped : (loopN s.edge n).state = .stopped := by
        have h : ((loopN s.edge n).state != .stopped || (loopN s.edge n).starting.isSome || (loopN s.edge n).startHeld) = false := hidle
        simp only [Bool.or_eq_false_iff, bne_eq_false_iff_eq] at h
        exact h.1.1
      have hidle' : (loopN s.edge n).busy = false := hidle
      simp [askedStart, hstopped, hidle', l]
    · have hstopping' : (loopN s.edge n).state = .stopping := hstopping
      simp [askedStart, hstopping', l]
    · refine if_pos (hruns.imp_right fun ⟨hstopped, hbusy⟩ => ?_)
      rw [hbusy, hstopped]
      rfl
  case stop =>
    obtain ⟨t, hexec, hl, hothers⟩ := exec_modLoop (exec_leRunWrite_stop (n := n) hopen)
    exact ⟨t, hexec, hothers, hl⟩
  case stopped =>
    refine ⟨fun h => (hhold h).trans (finish_modLoop_congr (if_pos hst)), hclear.trans (finish_modLoop_congr (if_pos hst)),
      fun r v => exec_modLoop_of_eq (hcfg r v) (if_pos hst)⟩
  case busy =>
    refine ⟨fun h => exec_modLoop_of_eq (hhold h) (if_neg hst), exec_modLoop_of_eq hclear (if_neg hst), fun v => ?_, fun r v hr => ?_⟩
    · obtain ⟨t, hexec, hl, hothers⟩ := exec_modLoop_of_eq (hcfg 0 v) (if_neg hst)
      refine ⟨t, hexec, hothers, ?_⟩
      rw [hl]
      exact ⟨rfl, rfl⟩
    · have hr0 : ¬ r.val = 0 := fun h => hr (Fin.ext h)
      exact exec_modLoop_of_eq (hcfg r v) ((if_neg hst).trans ((if_neg hr0).trans (if_pos r.isLt)))
  case selector =>
    intro ns
    obtain ⟨htaken, hignored⟩ := writeSel_eq m cfg v s.edge
    rw [show exec (.leSelWrite m cfg v) s = finish s { s with edge := writeSel m cfg v s.edge } from
      congrArg (finish s) (show doLeSel m cfg v s = _ from if_pos hopen), finish_eq]
    refine ⟨fun hall => ⟨_, rfl, ?_⟩, fun hbusy => ⟨_, rfl, ?_⟩⟩
    · rw [carried_edge, htaken hall]
      exact ⟨Tbl.get_set_self .., fun j hj => (Tbl.get_set ..).trans (if_neg hj), rfl⟩
    · obtain ⟨hsels, hloops⟩ := foldl_ignoreIfBusy ns s.edge
      rw [carried_edge, hignored hbusy]
      refine ⟨hsels, fun k hk hne => ?_⟩
      rw [hloops, if_pos hk, ignoreIfBusy, if_neg hne]

/-! ### Loop events -/

/-- The outputs of a loop or selector that are due are applied, and the others stay queued (R267). -/
theorem exec_loopOutputApply {o : OutDue} (hon : s.edge.on = true) (houts : s.edge.outs = [o]) (hdue : o.tick + 800 ≤ s.edge.tick) :
    (o.members.getLsbD n = true → exec (.loopOutputApply n) s = finish s (modEdge (fun e => { applyOut o e with outs := [] }) s))
    ∧ (o.members.getLsbD n = false → exec (.loopOutputApply n) s = finish s s) := by
  refine ⟨fun hmine => congrArg (finish s) ?_, fun hother => congrArg (finish s) ?_⟩
  · have hdo : doOutApply n s = _ := if_pos hon
    rw [hdo]
    simp only [modEdge, houts, List.filter_cons, List.filter_nil, hdue, hmine, decide_true, Bool.and_self, if_true, List.foldl_cons, List.foldl_nil]
    rfl
  · have hdo : doOutApply n s = _ := if_pos hon
    rw [hdo]
    simp only [modEdge, houts, List.filter_cons, List.filter_nil, hother, Bool.and_false, Bool.false_eq_true, if_false, List.foldl_nil,
      Bool.not_false, if_true]
    rw [← houts]

/-- Settles O48: each loop event with its condition met has its effect. -/
theorem loopEventsComplete : Obligations.LoopEventsComplete := by
  unfold Obligations.LoopEventsComplete
  intro s
  refine ⟨fun n hon hgrid hlast => ?boundary, fun n o hon houts hdue => ?output, fun p b x rest hon hb hx => ?slots, fun p => rfl, fun hst => ?boot⟩
  case boundary =>
    have hcond : (s.edge.on && onGrid (loopN s.edge n) s.edge.tick && (loopN s.edge n).last != some s.edge.tick) = true := by
      rw [hon, hgrid, bne_iff_ne.mpr hlast]
      rfl
    exact congrArg (finish s) (show doBoundary n s = _ from if_pos hcond)
  case output =>
    obtain ⟨hmine, hother⟩ := exec_loopOutputApply (n := n) hon houts hdue
    refine ⟨fun hmem => ⟨fun hdest => ?_, fun hdest => ?_⟩, hother⟩
    · rw [hmine hmem, finish_eq]
      refine ⟨_, rfl, ?_⟩
      simp [applyOut, hdest]
    · rw [hmine hmem, finish_eq]
      refine ⟨_, rfl, ?_⟩
      simp [applyOut, hdest]
  case slots =>
    have hdo : doSlotWrite p s = { s with edge := { s.edge with
        binds := s.edge.binds.set p.val { b with pours := rest, fresh := some s.edge.tick }, slots := x.foldl (fun t y => t.set y.1 y.2) s.edge.slots } } := by
      unfold doSlotWrite modEdge writeSlots
      rw [hb]
      dsimp only
      rw [hx]
      dsimp only
      rw [if_pos hon]
    rw [show exec (.slotWrite p) s = _ from congrArg (finish s) hdo, finish_eq]
    exact ⟨_, rfl, rfl, rfl⟩
  case boot =>
    rw [show exec .bootProfileStart s = _ from congrArg (finish s) (show doBootProfile s = _ from if_pos hst), finish_eq]
    exact ⟨_, rfl, rfl, rfl⟩

end

end Sys2Proof.Machine

namespace Sys2Proof.Machine

/-! Field inputs and outputs (R294 to R302). -/

section
variable (s : State)

theorem edge_of_device {s t : State} (h : s.device = t.device) : s.edge = t.edge := show s.device.edge = t.device.edge from congrArg State.edge h

@[simp] theorem edgeEvent_edge (code arg : Nat) (data : List Byte) : (edgeEvent code arg data s).edge = s.edge := by
  unfold edgeEvent
  split
  · exact edge_of_device (event_device ..)
  · rfl

@[simp] theorem fioEvent_edge (k : FioKind) (i : Nat) : (fioEvent k i s).edge = s.edge := edgeEvent_edge ..

@[simp] theorem updAin_edge (i : Nat) (f : Ain → Ain) : (updAin i f s).edge = { s.edge with ains := s.edge.ains.set i (f (s.edge.ains.get i)) } := by
  unfold updAin
  extract_lets a t
  split
  · rfl
  · exact fioEvent_edge ..

@[simp] theorem updAout_edge (i : Nat) (f : Aout → Aout) :
    (updAout i f s).edge = { s.edge with aouts := s.edge.aouts.set i (f (s.edge.aouts.get i)) } := by
  unfold updAout
  extract_lets a t
  split
  · rfl
  · exact fioEvent_edge ..

@[simp] theorem updDout_edge (i : Nat) (f : Dout → Dout) :
    (updDout i f s).edge = { s.edge with douts := s.edge.douts.set i (f (s.edge.douts.get i)) } := by
  unfold updDout
  extract_lets a t
  split
  · rfl
  · exact fioEvent_edge ..

@[simp] theorem updPin_edge (i : Nat) (f : Pin → Pin) : (updPin i f s).edge = { s.edge with pins := s.edge.pins.set i (f (s.edge.pins.get i)) } := by
  unfold updPin
  extract_lets a t
  split
  · rfl
  · exact fioEvent_edge ..

end

/-! ### Conditions -/

/-- A live bit is what the condition says, and the sticky bits stay (R301). -/
theorem setLive_spec {k : Nat} (hk : k < 4) (on : Bool) (live seen : BitVec 4) :
    (setLive k on live seen).1.getLsbD k = on ∧ (seen.getLsbD k = true → (setLive k on live seen).2.getLsbD k = true) := by
  cases on with
  | true => exact ⟨by simp [setLive, hk], fun _ => by simp [setLive, hk]⟩
  | false => exact ⟨by simp [setLive, hk], id⟩

/-- A digital output with OVERVOLT, with SHORT under LATCH or with a SHORT switched off does not drive (R302). -/
theorem doutDrives_eq_zero {e : Edge} {i : Nat}
    (h : (e.douts.get i).live.getLsbD 3 = true ∨ (e.douts.get i).latched = true ∨ (e.douts.get i).shortOff.isSome = true) : doutDrives e i = 0 := by
  refine if_neg fun hen => ?_
  simp only [doutEnabled, Bool.and_eq_true, Bool.not_eq_true'] at hen
  obtain ⟨⟨⟨-, hover⟩, hlatch⟩, hshort⟩ := hen
  obtain h | h | h := h
  · exact Bool.noConfusion (hover.symm.trans h)
  · exact Bool.noConfusion (hlatch.symm.trans h)
  · rw [Option.isNone_iff_eq_none.mp hshort] at h
    exact nomatch h

/-- Settling OPEN touches neither the codes taken nor the code that they give (R301). -/
theorem settleOpen_codes (a : Ain) : a.settleOpen.raw = a.raw ∧ a.settleOpen.code = a.code := by
  unfold Ain.settleOpen
  dsimp only
  repeat' split
  all_goals exact ⟨rfl, rfl⟩

/-- A conversion takes the trimmed code, and gives full scale while the input is SHORT (R294, R301, R305). -/
theorem convert_codes (raw free : Int) (st : Option Nat) (a : Ain) :
    (Ain.convert raw free st a).raw = (trimCode a.trimOff a.trimGain raw :: a.raw).take 64
    ∧ (a.live.getLsbD 2 = true → (Ain.convert raw free st a).code = 32767) := by
  unfold Ain.convert
  dsimp only
  refine ⟨(settleOpen_codes _).1, fun hshort => (settleOpen_codes _).2.trans (if_pos hshort)⟩

/-- The state in which a conversion enters its channel: a free value is drawn, and the pulse input of its number is latched (R298, R299). -/
def latched (ch : Fin 8) (s : State) : State :=
  modEdge (fun e => { e with pins := e.pins.mod ch (latchPin (stampBack s 0)) }) (draw s).2

/-- A conversion enters its channel (R298, R299). -/
theorem exec_ainConversion {ch : Fin 8} {s : State} (hon : s.edge.on = true) (raw : BitVec 16) :
    exec (.ainConversion ch raw) s = finish s (updAin ch (Ain.convert raw.toInt ((draw s).1.setWidth 16).toInt
      (stampBack (latched ch s) (1000 + 500 * (2 ^ (s.edge.ains.get ch).filter - 1)))) (latched ch s)) :=
  congrArg (finish s) (show doAinConversion ch raw s = _ from if_pos hon)

/-- What each live condition of a powered edge die changes (R301, R302). -/
theorem doFioCondition_of_on {ch : Fin 8} {s : State} (hon : s.edge.on = true) (on : Bool) :
    doFioCondition .ain ch 1 on s = updAin ch (fun a => { a with live := (setLive 1 on a.live a.seen).1, seen := (setLive 1 on a.live a.seen).2 }) s
    ∧ doFioCondition .pin ch 0 on s = updPin ch (fun a => { a with live := on, seen := a.seen || on }) s
    ∧ doFioCondition .aout ch 2 on s = updAout ch (fun a => { a with live := (setLive 2 on a.live a.seen).1, seen := (setLive 2 on a.live a.seen).2 }) s
    ∧ doFioCondition .dout ch 3 on s = updDout ch (Dout.cond s.edge.tick 3 on) s
    ∧ doFioCondition .dout ch 2 on s = updDout ch (Dout.cond s.edge.tick 2 on) s
    ∧ (doFioCondition .vio ch 0 on s).edge = { s.edge with vioLow := on }
    ∧ (doFioCondition .vio ch 1 on s).edge = { s.edge with vioReversed := on } := by
  have hpowered : ¬ (!s.edge.on) = true := by rw [hon]; decide
  have hvio (e : Edge) : (if e = s.edge then s else fioEvent .vio 0 { s with edge := e }).edge = e := by
    split
    next he => exact he.symm
    next => exact fioEvent_edge ..
  unfold doFioCondition
  rw [if_neg hpowered, if_neg hpowered, if_neg hpowered, if_neg hpowered, if_neg hpowered, if_neg hpowered, if_neg hpowered]
  exact ⟨rfl, rfl, rfl, rfl, rfl, hvio _, hvio _⟩

/-- With the direct window open a set register is written (R296). -/
theorem exec_fioSetWrite {ch : Fin 8} {s : State} (hready : ready s = true) (hon : s.edge.on = true) {aout : Bool} {v : W32} :
    exec (.fioSetWrite aout ch v) s = finish s (writeSet aout ch v s) :=
  congrArg (finish s) (show doSetWrite aout ch v s = _ from if_pos (edgeOpen_of_ready hready hon))

/-- The set register of an output that no loop drives is taken (R296). -/
theorem writeSet_of_free {aout : Bool} {i : Nat} {v : W32} {s : State} (h : loopDriven s.edge (if aout then 1 else 2) i = false) :
    writeSet aout i v s = if aout then updAout i (fun a => { a with set := (v.setWidth 16).toInt, code := (v.setWidth 16).toInt }) s
      else updDout i (fun a => { a with set := (v.setWidth 16).toInt, code := (v.setWidth 16).toInt }) s := if_neg (Bool.eq_false_iff.mp h)

/-- The set register of an output that a loop drives is ignored (R296). -/
theorem writeSet_of_driven {aout : Bool} {i : Nat} {v : W32} {s : State} (h : loopDriven s.edge (if aout then 1 else 2) i = true) :
    writeSet aout i v s = if aout then updAout i (fun a => { a with ignored := true }) s else updDout i (fun a => { a with ignored := true }) s := if_pos h

/-- Settles O49: each test, conversion, edge, condition or write changes the entry of its own channel. -/
theorem fieldChannelsComplete : Obligations.FieldChannelsComplete := by
  unfold Obligations.FieldChannelsComplete
  refine ⟨fun ch s hon => ⟨fun raw => ?conversion, fun fails => ?openWire, fun hshort => ?reconnect, fun a b => ?pulse, fun on => ?ain, fun on => ?pin,
    fun on => ?aout, fun on => ?dout, fun on => ?low, fun on => ?reversed⟩, fun ch s hon => ⟨fun fails hlive => ?load, fun fails hlive => ?suspended, ?short,
    fun t0 hoff hdue => ?retry, fun hpwm => ?pwm, fun hready v => ⟨fun hfree => ?setA, fun hdriven => ?ignoreA, fun hfree => ?setD, fun hdriven => ?ignoreD⟩⟩⟩
  case conversion =>
    obtain ⟨hraw, hcode⟩ := convert_codes raw.toInt ((draw s).1.setWidth 16).toInt
      (stampBack (latched ch s) (1000 + 500 * (2 ^ (s.edge.ains.get ch).filter - 1))) (s.edge.ains.get ch)
    have hains : (latched ch s).edge.ains = s.edge.ains := rfl
    have hpins : ((latched ch s).edge.pins.get ch).count = (s.edge.pins.get ch).count := by
      rw [latched, modEdge_edge, Tbl.get_mod_self]
      rfl
    rw [exec_ainConversion hon, finish_eq]
    refine ⟨_, rfl, ?_⟩
    rw [carried_edge, updAin_edge, hains]
    refine ⟨?_, ?_, hpins, fun k hk => (Tbl.get_set ..).trans (if_neg hk)⟩
    · rw [Tbl.get_set_self, hraw]
    · rw [Tbl.get_set_self]
      exact hcode
  case openWire =>
    rw [show exec (.ainOpenWireTest ch fails) s = _ from congrArg (finish s) (show doOpenWire ch fails s = _ from if_pos hon), finish_eq]
    exact ⟨_, rfl, by rw [carried_edge, updAin_edge]; exact Tbl.get_set_self ..⟩
  case reconnect =>
    have hcond : (s.edge.on && (s.edge.ains.get ch).live.getLsbD 2 && true) = true := by rw [hon, hshort]; rfl
    rw [show exec (.ainReconnectTest ch true) s = _ from congrArg (finish s) (show doReconnect ch true s = _ from if_pos hcond), finish_eq]
    exact ⟨_, rfl, by rw [carried_edge, updAin_edge, Tbl.get_set_self]⟩
  case pulse =>
    rw [show exec (.pulseEdge ch a b) s = _ from congrArg (finish s) (show doPulse ch a b s = _ from if_pos hon), finish_eq]
    refine ⟨_, rfl, ?_⟩
    rw [carried_edge, updPin_edge]
    exact ⟨Tbl.get_set_self .., fun k hk => (Tbl.get_set ..).trans (if_neg hk)⟩
  case ain =>
    obtain ⟨hain, -⟩ := doFioCondition_of_on (ch := ch) hon on
    rw [show exec (.fioCondition .ain ch 1 on) s = _ from congrArg (finish s) hain, finish_eq]
    refine ⟨_, rfl, ?_⟩
    rw [carried_edge, updAin_edge, Tbl.get_set_self]
    exact setLive_spec (by decide) ..
  case pin =>
    obtain ⟨-, hpin, -⟩ := doFioCondition_of_on (ch := ch) hon on
    rw [show exec (.fioCondition .pin ch 0 on) s = _ from congrArg (finish s) hpin, finish_eq]
    exact ⟨_, rfl, by rw [carried_edge, updPin_edge, Tbl.get_set_self]⟩
  case aout =>
    obtain ⟨-, -, haout, -⟩ := doFioCondition_of_on (ch := ch) hon on
    rw [show exec (.fioCondition .aout ch 2 on) s = _ from congrArg (finish s) haout, finish_eq]
    refine ⟨_, rfl, ?_⟩
    rw [carried_edge, updAout_edge, Tbl.get_set_self]
    exact (setLive_spec (by decide) ..).1
  case dout =>
    obtain ⟨-, -, -, hdout, -⟩ := doFioCondition_of_on (ch := ch) hon on
    have hlive : ((updDout ch (Dout.cond s.edge.tick 3 on) s).edge.douts.get ch).live.getLsbD 3 = on := by
      rw [updDout_edge, Tbl.get_set_self]
      exact (setLive_spec (k := 3) (by decide) ..).1
    rw [show exec (.fioCondition .dout ch 3 on) s = _ from congrArg (finish s) hdout, finish_eq]
    exact ⟨_, rfl, hlive, fun h => doutDrives_eq_zero (.inl (hlive.trans h))⟩
  case low =>
    obtain ⟨-, -, -, -, -, hlow, -⟩ := doFioCondition_of_on (ch := ch) hon on
    rw [show exec (.fioCondition .vio ch 0 on) s = finish s (doFioCondition .vio ch 0 on s) from rfl, finish_eq]
    exact ⟨_, rfl, by rw [carried_edge, hlow], by rw [carried_edge, hlow]⟩
  case reversed =>
    obtain ⟨-, -, -, -, -, -, hrev⟩ := doFioCondition_of_on (ch := ch) hon on
    rw [show exec (.fioCondition .vio ch 1 on) s = finish s (doFioCondition .vio ch 1 on s) from rfl, finish_eq]
    exact ⟨_, rfl, by rw [carried_edge, hrev], by rw [carried_edge, hrev]⟩
  case load =>
    have hcond : (s.edge.on && !(s.edge.aouts.get ch).live.getLsbD 2) = true := by rw [hon, hlive]; rfl
    rw [show exec (.aoutLoadTest ch fails) s = _ from congrArg (finish s) (show doLoadTest ch fails s = _ from if_pos hcond), finish_eq]
    exact ⟨_, rfl, by rw [carried_edge, updAout_edge, Tbl.get_set_self]⟩
  case suspended =>
    have hcond : ¬ (s.edge.on && !(s.edge.aouts.get ch).live.getLsbD 2) = true := by rw [hlive, Bool.not_true, Bool.and_false]; decide
    exact congrArg (finish s) (show doLoadTest ch fails s = _ from if_neg hcond)
  case short =>
    obtain ⟨-, -, -, -, hdout, -⟩ := doFioCondition_of_on (ch := ch) hon true
    rw [show exec (.fioCondition .dout ch 2 true) s = _ from congrArg (finish s) hdout, finish_eq]
    have hget : ((carried s (updDout ch (Dout.cond s.edge.tick 2 true) s)).edge.douts.get ch) = Dout.cond s.edge.tick 2 true (s.edge.douts.get ch) := by
      rw [carried_edge, updDout_edge, Tbl.get_set_self]
    refine ⟨_, rfl, doutDrives_eq_zero (.inr ?_), fun hlatch => ?_⟩
    · rw [hget]
      by_cases hlatch : (s.edge.douts.get ch).latchAct = true <;> simp [Dout.cond, hlatch]
    · rw [hget]
      simp [Dout.cond, hlatch]
  case retry =>
    have hdo : doShortRetry ch s = updDout ch (fun a => { a with shortOff := none }) s := by
      unfold doShortRetry
      rw [hoff]
      exact if_pos ⟨hon, hdue⟩
    rw [show exec (.doutShortRetry ch) s = _ from congrArg (finish s) hdo, finish_eq]
    exact ⟨_, rfl, by rw [carried_edge, updDout_edge, Tbl.get_set_self]⟩
  case pwm =>
    have hcond : (s.edge.on && (s.edge.douts.get ch).pwm) = true := by rw [hon, hpwm]; rfl
    rw [show exec (.pwmPeriodStart ch) s = _ from congrArg (finish s) (show doPwm ch s = _ from if_pos hcond), finish_eq]
    exact ⟨_, rfl, by rw [carried_edge, updDout_edge, Tbl.get_set_self]⟩
  case setA =>
    rw [exec_fioSetWrite hready hon, writeSet_of_free hfree, finish_eq]
    refine ⟨_, rfl, ?_⟩
    rw [carried_edge, if_pos rfl, updAout_edge, Tbl.get_set_self]
    exact ⟨rfl, rfl⟩
  case ignoreA =>
    rw [exec_fioSetWrite hready hon, writeSet_of_driven hdriven, finish_eq]
    refine ⟨_, rfl, ?_⟩
    rw [carried_edge, if_pos rfl, updAout_edge, Tbl.get_set_self]
    exact ⟨rfl, rfl⟩
  case setD =>
    rw [exec_fioSetWrite hready hon, writeSet_of_free hfree, finish_eq]
    refine ⟨_, rfl, ?_⟩
    rw [carried_edge, if_neg Bool.false_ne_true, updDout_edge, Tbl.get_set_self]
    exact ⟨rfl, rfl⟩
  case ignoreD =>
    rw [exec_fioSetWrite hready hon, writeSet_of_driven hdriven, finish_eq]
    refine ⟨_, rfl, ?_⟩
    rw [carried_edge, if_neg Bool.false_ne_true, updDout_edge, Tbl.get_set_self]
    exact ⟨rfl, rfl⟩

end Sys2Proof.Machine

namespace Sys2Proof.Machine

/-! The boot timeline, power failure and the nonvolatile store (R288, R304, R441, R450 to R453, R457, R477, R478, R485, R500 to R504). -/

section
variable {s t : State}

theorem pwr_of_device (h : s.device = t.device) : s.pwr = t.pwr := show s.device.pwr = t.device.pwr from congrArg State.pwr h

variable (s)

@[simp] theorem event_pwr (code arg : Nat) (data : List Byte) : (event code arg data s).pwr = s.pwr := pwr_of_device (event_device ..)
@[simp] theorem event_faults (code arg : Nat) (data : List Byte) : (event code arg data s).faults = s.faults := faults_of_device (event_device ..)
@[simp] theorem event_edge (code arg : Nat) (data : List Byte) : (event code arg data s).edge = s.edge := edge_of_device (event_device ..)
@[simp] theorem endAwait_pwr (a : Await) (st : Status) (res : List Byte) : (endAwait a st res s).pwr = s.pwr := pwr_of_device (endAwait_device ..)

@[simp] theorem drawN_pwr (n : Nat) : (drawN n s).2.pwr = s.pwr := by
  induction n generalizing s with
  | zero => rfl
  | succ n ih => exact ih (draw s).2

@[simp] theorem drawN_edge (n : Nat) : (drawN n s).2.edge = s.edge := by
  induction n generalizing s with
  | zero => rfl
  | succ n ih => exact ih (draw s).2

/-! ### Power good and the main die -/

/-- A new challenge changes nothing of the power state but the challenge (R459). -/
theorem newChallenge_pwr : ∃ ch, (newChallenge s).pwr = { s.pwr with challenge := ch } := by
  unfold newChallenge
  split
  · exact ⟨_, rfl⟩
  · exact ⟨_, by rw [modPwr_pwr, drawN_pwr]⟩

/-- A cold start keeps the nonvolatile store (R441, R500). -/
theorem coldStart_nv : (coldStart s).pwr.nv = s.pwr.nv := by
  obtain ⟨ch, hch⟩ := newChallenge_pwr (modPwr (fun w => { w with unlocked := false }) { mainReset s with
    faults := {}, pwr := { ({} : PowerSt) with nv := s.pwr.nv, failRecord := s.pwr.failRecord, lockout := s.pwr.lockout }, edge := edgeOff s.edge })
  rw [coldStart, lockDebug, hch]
  rfl

/-- Whether the main die is powered is a matter of the start-up stage (R519). -/
theorem mainOn_of_stage {s t : State} (h : s.pwr.stage = t.pwr.stage) : mainOn s = mainOn t := by
  unfold mainOn
  rw [h]

/-- The main die is off after its loss (R477, R500). -/
theorem mainOn_of_mainOff {t : State} (h : t.pwr.stage = (mainOff s).pwr.stage) : mainOn t = false := by
  have hstage : (mainOff s).pwr.stage = if mainOn s then .profile else s.pwr.stage := rfl
  by_cases hon : mainOn s = true
  · rw [if_pos hon] at hstage
    unfold mainOn
    rw [h, hstage]
  · rw [if_neg hon] at hstage
    exact (mainOn_of_stage (h.trans hstage)).trans (Bool.eq_false_iff.mpr hon)

/-- The main die as it starts: LT 0, the self-test running, the stored cap and the bank to run (R450, R453, R460). -/
def startedMain (s : State) : State :=
  modPwr (fun w => { w with
    lockoutAt := if s.faults.restart then min w.lockoutAt 40000000 else w.lockoutAt
    since := if s.faults.restart then 40000000 else w.since, stage := .mainOn, power := .idle, selfTesting := true, cap := w.nv.cap.getD 720
    bank := w.nv.boot, fallback := false, wakeCause := if s.faults.restart then 0 else w.wakeCause }) (mainReset s)

/-- Training of the links that were enabled changes the links alone (R358). -/
theorem forAll_trainLink (ls : List (Nat × Link)) : ∃ ks, forAll ls (fun e t => trainLink e.1 t) s = { s with links := ks } := by
  induction ls generalizing s with
  | nil => exact ⟨_, rfl⟩
  | cons l ls ih =>
    obtain ⟨ks, hks⟩ := ih (trainLink l.1 s)
    exact ⟨ks, hks⟩

/-! ### The self-test and READY -/

/-- A unit marked fenced is fenced, and no other unit is let go (R488). -/
theorem fenced_markFenced {k i st why det k' i' : Nat} (hst : st ≠ 0) (h : fenced s k' i' = true ∨ (k', i') = (k, i)) :
    fenced (markFenced k i st why det s) k' i' = true := by
  have hunits : (markFenced k i st why det s).faults.units =
      s.faults.units.mod (unitKey k i) (fun u => { u with state := st, detector := det, fencedAt := s.lt, unresolved := false }) := by
    rw [markFenced, event_faults]
    rfl
  rw [fenced, unit, hunits]
  by_cases hkey : unitKey k' i' = unitKey k i
  · rw [hkey, Tbl.get_mod_self]
    exact bne_iff_ne.mpr hst
  · rw [Tbl.get_mod_of_ne _ hkey]
    obtain h | h := h
    · exact h
    · obtain ⟨rfl, rfl⟩ := Prod.mk.inj h
      exact absurd rfl hkey

/-- Every unit of a list marked fenced after its self-test failed (R478). -/
def fenceFailed (failed : List (Nat × Nat)) (s : State) : State := forAll failed (fun u t => markFenced u.1 u.2 3 2 0 t) s

theorem fenceFailed_pwr (failed : List (Nat × Nat)) : (fenceFailed failed s).pwr = s.pwr :=
  forAll_same State.pwr failed (fun u t => event_pwr (modUnit u.1 u.2 (fun v => { v with state := 3, detector := 0, fencedAt := t.lt, unresolved := false }) t) ..) s

theorem fenced_fenceFailed {failed : List (Nat × Nat)} {u : Nat × Nat} (hu : u ∈ failed) : fenced (fenceFailed failed s) u.1 u.2 = true := by
  have hkeep (v : Nat × Nat) (t : State) (ht : fenced t u.1 u.2 = true) : fenced (markFenced v.1 v.2 3 2 0 t) u.1 u.2 = true :=
    fenced_markFenced t (by decide) (.inl ht)
  have hbring (t : State) : fenced (markFenced u.1 u.2 3 2 0 t) u.1 u.2 = true := fenced_markFenced t (by decide) (.inr rfl)
  exact forAll_brings (P := fun t => fenced t u.1 u.2 = true) hu hkeep hbring s

/-- The state after a boot self-test that the main die passes: the failed units fenced, spares taken (R478, Table 17-4). -/
def bootTested (failed : List (Nat × Nat)) (s : State) : State :=
  let t := fenceFailed failed (modPwr (fun w => { w with stage := .tested, selfTesting := false }) s)
  { t with mem := { t.mem with spares := min 2 (failed.filter (fun u => u.1 == 5)).length } }

theorem bootTested_pwr (failed : List (Nat × Nat)) : (bootTested failed s).pwr = { s.pwr with stage := .tested, selfTesting := false } :=
  fenceFailed_pwr (modPwr (fun w => { w with stage := .tested, selfTesting := false }) s) failed

theorem fenced_bootTested {failed : List (Nat × Nat)} {u : Nat × Nat} (hu : u ∈ failed) : fenced (bootTested failed s) u.1 u.2 = true :=
  (show fenced (bootTested failed s) u.1 u.2 = fenced (fenceFailed failed _) u.1 u.2 from rfl).trans (fenced_fenceFailed _ hu)

/-- The stage of start-up stays while the records that waited are copied (R437). -/
theorem copyRecords_stage : (copyRecords s).pwr.stage = s.pwr.stage := by
  unfold copyRecords
  extract_lets u v w
  have hu : u.pwr = s.pwr := by
    unfold u
    split
    · exact event_pwr ..
    · rfl
  have hv : v.pwr = u.pwr := by
    unfold v
    split
    · exact event_pwr ..
    · rfl
  have hw : w.pwr.stage = v.pwr.stage := by
    unfold w
    split
    · rw [event_pwr]
      rfl
    · rfl
  split
  · rw [event_pwr]
    exact hw.trans (congrArg PowerSt.stage (hv.trans hu))
  · exact hw.trans (congrArg PowerSt.stage (hv.trans hu))

theorem woken_stage : (woken s).pwr.stage = s.pwr.stage := by
  unfold woken
  split
  · rfl
  · rw [event_pwr]
    rfl

/-- READY is set once HBM has trained, outside a wake from SLEEP (R410). -/
theorem doReady_stage (hst : s.pwr.stage = .hbm) (hw : fromSleep s = false) : (doReady s).pwr.stage = .ready := by
  unfold doReady
  rw [if_pos ⟨hst, hw⟩]
  extract_lets u v w
  have hu : u.pwr.stage = .ready := copyRecords_stage ..
  have hv : v.pwr = u.pwr := by
    unfold v
    split
    · exact event_pwr ..
    · rfl
  have hw : w.pwr = v.pwr := by
    unfold w
    split
    · rfl
    · exact event_pwr ..
  rw [woken_stage, hw, hv, hu]

end

/-- Settles O50: each event of the start-up meets its stage and leads to the next. -/
theorem bootAndPowerEvents : Obligations.BootAndPowerEvents := by
  unfold Obligations.BootAndPowerEvents
  intro s
  refine ⟨fun r f hpower => ⟨fun hon => ?cold, fun hon => ?holdUp⟩, fun hst => ⟨?warden, ?failed⟩, fun hst => ?fio,
    fun hst hpower hent hdead => ?main, fun failed part hst => ⟨fun hpart hcore => ?passed, fun hbad => ?lost⟩, fun hst => ?hbm,
    fun hst hw => ?ready, fun hst hsince => ?full⟩
  case cold =>
    have hdo : doPowerGood r f s = modPwr (fun w => { w with power := .idle, ref25 := r && f, wakeCause := 8, everFull := false })
        (modPwr (fun w => { w with stage := .good, since := 0 }) (coldStart s)) := by
      unfold doPowerGood
      rw [if_pos hpower, hon]
      rfl
    rw [show exec (.powerGood r f) s = _ from congrArg (finish s) hdo, finish_eq]
    exact ⟨_, rfl, rfl, rfl, rfl, rfl, rfl, coldStart_nv s⟩
  case holdUp =>
    have hdo : doPowerGood r f s = modPwr (fun w => { w with power := .idle, ref25 := r && f, wakeCause := 8, everFull := false })
        (modPwr (fun w => { w with
            since := 40000000, stage := if w.stage = .down then .profile else w.stage, lockoutAt := min w.lockoutAt 40000000
            refRecord := if (r && f) = w.ref25 then w.refRecord else some (b2n (r && f)) })
          (modFaults (fun f => { f with recovery := false, recoveryCause := 0, mainDead := false }) s)) := by
      unfold doPowerGood
      rw [if_pos hpower, hon]
      rfl
    rw [show exec (.powerGood r f) s = _ from congrArg (finish s) hdo, finish_eq]
    exact ⟨_, rfl, rfl, rfl, rfl, rfl, rfl, rfl, rfl, rfl⟩
  case warden => exact congrArg (finish s) (show doWarden true s = _ from if_pos ⟨hst, rfl⟩)
  case failed => exact congrArg (finish s) (show doWarden false s = _ from if_neg (fun h => nomatch h.2))
  case fio =>
    have hstore : (edgePowerUp s).edge.fioStore = s.edge.fioStore :=
      (show (edgePowerUp s).edge.fioStore = (drawN 16 s).2.edge.fioStore from rfl).trans (congrArg Edge.fioStore (drawN_edge s 16))
    rw [show exec .fioConfigApply s = _ from congrArg (finish s) (show doFioApply s = _ from if_pos hst), finish_eq]
    refine ⟨_, rfl, rfl, rfl, ?_⟩
    rw [← hstore]
    rfl
  case main =>
    have hcond : (s.pwr.stage = .profile ∨ s.faults.restart = true) ∧ s.pwr.power ≠ .unpowered ∧ s.pwr.entering = none ∧ s.faults.mainDead = false :=
      ⟨hst, hpower, hent, hdead⟩
    have hdo : doMainOn s = _ := if_pos hcond
    obtain ⟨ks, hks⟩ := forAll_trainLink (startedMain s) ((startedMain s).links.filter (fun e => e.2.wasEnabled))
    rw [show exec .mainDiePowerOn s = _ from congrArg (finish s) (hdo.trans hks), finish_eq]
    exact ⟨_, rfl, rfl, rfl, rfl, rfl, rfl, rfl, rfl, rfl⟩
  case passed =>
    have hcond : ¬ (part || failed.contains (4, 0)) = true := by simpa [hpart] using hcore
    have hdo : doBootTest failed part s = bootTested failed s := by
      unfold doBootTest
      rw [if_pos hst, if_neg hcond]
      rfl
    rw [show exec (.bootSelfTestComplete failed part) s = _ from congrArg (finish s) hdo, finish_eq]
    refine ⟨_, rfl, ?_, ?_, fun u hu => fenced_bootTested s hu⟩
    · rw [carried_pwr, bootTested_pwr]
    · rw [carried_pwr, bootTested_pwr]
  case lost =>
    have hcond : (part || failed.contains (4, 0)) = true := by simpa using hbad
    have hdo : doBootTest failed part s = modFaults (fun f => { f with mainDead := true }) (mainOff s) := by
      unfold doBootTest
      rw [if_pos hst, if_pos hcond]
    rw [show exec (.bootSelfTestComplete failed part) s = _ from congrArg (finish s) hdo, finish_eq]
    exact ⟨_, rfl, mainOn_of_mainOff s rfl, rfl, rfl⟩
  case hbm => exact congrArg (finish s) (show doHbmTrained s = _ from if_pos hst)
  case ready =>
    rw [show exec .rankoazReady s = finish s (doReady s) from rfl, finish_eq]
    refine ⟨_, rfl, ?_, ?_⟩
    · rw [ready, carried_pwr, doReady_stage s hst hw]
      rfl
    · rw [full, carried_pwr, doReady_stage s hst hw]
      rfl
  case full =>
    rw [show exec .fullService s = _ from congrArg (finish s) (show doFull s = _ from if_pos ⟨hst, hsince⟩), finish_eq]
    refine ⟨_, rfl, rfl, rfl, fun hrec => ?_⟩
    have hrec' : ¬ (s.faults.recovery = true ∧ s.faults.recoveryCause = 2) := fun h => Bool.noConfusion (hrec.symm.trans h.1)
    rw [carried_pwr, modPwr_pwr]
    dsimp only
    rw [if_neg hrec']
    dsimp only
    split
    next => exact Nat.le_refl _
    next hle => exact Nat.not_lt.mp hle

end Sys2Proof.Machine

namespace Sys2Proof.Machine

section
variable (s : State)

/-! ### Fallback, power failure and the nonvolatile store -/

theorem enterRecovery_pwr (cause : Nat) : (enterRecovery cause s).pwr = s.pwr := event_pwr ..

theorem enterRecovery_faults (cause : Nat) :
    (enterRecovery cause s).faults = { s.faults with recovery := true, recoveryCause := cause, staged := false } := event_faults ..

/-- A bank that fails with the other not yet tried gives way to it; where that one does not verify, recovery mode is entered (R453, R485). -/
theorem fallBack_first (why : Nat) (hf : s.pwr.fallback = false) :
    (fallBack why s).pwr = { s.pwr with bank := 1 - s.pwr.bank, fallback := true }
    ∧ (fallBack why s).faults = if bankOk s.pwr.nv (1 - s.pwr.bank) then s.faults
        else { s.faults with recovery := true, recoveryCause := 2, staged := false } := by
  unfold fallBack
  extract_lets u v
  have hu : u.pwr = s.pwr := event_pwr ..
  have hv : v.pwr = { s.pwr with bank := 1 - s.pwr.bank, fallback := true } := by
    rw [← hu]
    rfl
  have hvf : v.faults = s.faults := event_faults ..
  rw [if_neg (by rw [hu, hf]; decide), hv]
  split
  · exact ⟨hv, hvf⟩
  · rw [enterRecovery_pwr, enterRecovery_faults, event_pwr, event_faults, hv, hvf]
    exact ⟨rfl, rfl⟩

/-- A bank that fails after the other had failed leads to recovery mode (R453, R485). -/
theorem fallBack_second (why : Nat) (hf : s.pwr.fallback = true) :
    (fallBack why s).pwr = s.pwr ∧ (fallBack why s).faults = { s.faults with recovery := true, recoveryCause := 2, staged := false } := by
  unfold fallBack
  extract_lets u v
  have hu : u.pwr = s.pwr := event_pwr ..
  have huf : u.faults = s.faults := event_faults ..
  rw [if_pos (by rw [hu, hf]), enterRecovery_pwr, enterRecovery_faults, hu, huf]
  exact ⟨rfl, rfl⟩

/-- READY has not come in time: the bank fails (R453). -/
theorem exec_readyTimeout {s : State} (hon : mainOn s = true) (hready : ready s = false) (hwake : fromSleep s = false)
    (hrec : ¬ (s.faults.recovery = true ∧ s.faults.recoveryCause = 2)) (hsince : (if s.pwr.fallback then 700000000 else 300000000) ≤ s.pwr.since) :
    exec .readyTimeout s = finish s (fallBack 1 s) :=
  congrArg (finish s) (show doReadyTimeout s = _ from if_pos ⟨hon, hready, hwake, hrec, hsince⟩)

/-- What the end of a staging leaves, whatever the warden finds (R452, R457). -/
theorem doFirmwareDone_of_staging {b : Nat} {bs : List Byte} (hst : s.pwr.staging = some (b, bs)) :
    ∃ u st, doFirmwareDone s = endAwait .firmware st [] u ∧ u.pwr.staging = none ∧ (st = stFwAuth ∨ st = stFwRollback ∨ st = stOk)
      ∧ (st ≠ stOk → u.pwr.nv = s.pwr.nv) ∧ (st = stOk → u.pwr.nv.boot = b) := by
  have hd : (modPwr (fun w => { w with staging := none }) (drawN 2 s).2).pwr = { s.pwr with staging := none } := by
    rw [modPwr_pwr, drawN_pwr]
  unfold doFirmwareDone
  rw [hst]
  dsimp only
  split
  · exact ⟨_, _, rfl, by rw [hd], .inl rfl, fun _ => by rw [hd], fun h => absurd h (by decide)⟩
  · split
    · exact ⟨_, _, rfl, by rw [hd], .inr (.inl rfl), fun _ => by rw [hd], fun h => absurd h (by decide)⟩
    · refine ⟨_, _, rfl, ?_, .inr (.inr rfl), fun h => absurd rfl h, fun _ => ?_⟩
      · rw [event_pwr]
        rfl
      · rw [event_pwr]
        rfl

end

/-- Settles O51: each loss, failure or completed write has what it leaves to its stores. -/
theorem powerAndStoreEvents : Obligations.PowerAndStoreEvents := by
  unfold Obligations.PowerAndStoreEvents
  intro s
  refine ⟨fun hon hready hwake hrec => ⟨fun hf hsince => ?first, fun hf hsince => ?second⟩, fun href => ?ref, fun c hpower => ?fail,
    fun hpower hon => ?holdUp, fun x xs hx => ?stored, fun b bs hst => ?staged⟩
  case first =>
    obtain ⟨hpwr, hfaults⟩ := fallBack_first s 1 hf
    rw [exec_readyTimeout hon hready hwake hrec (by rw [hf]; exact hsince), finish_eq]
    refine ⟨_, rfl, ?_, ?_, fun hok => ?_, fun hbad => ?_⟩
    · rw [carried_pwr, hpwr]
    · rw [carried_pwr, hpwr]
    · rw [carried_faults, hfaults, if_pos hok]
    · rw [carried_faults, hfaults, hbad]
      exact ⟨rfl, rfl⟩
  case second =>
    obtain ⟨hpwr, hfaults⟩ := fallBack_second s 1 hf
    rw [exec_readyTimeout hon hready hwake hrec (by rw [hf]; exact hsince), finish_eq]
    refine ⟨_, rfl, ?_⟩
    rw [carried_pwr, carried_faults, hpwr, hfaults]
    exact ⟨rfl, rfl, rfl⟩
  case ref =>
    have hdo : doRefLost s = if mainOn s then event 0x209 0 [] (modPwr (fun w => { w with ref25 := false }) s)
        else modPwr (fun w => { w with refRecord := some 0 }) (modPwr (fun w => { w with ref25 := false }) s) := if_pos href
    rw [show exec .ref25Lost s = _ from congrArg (finish s) hdo, finish_eq]
    refine ⟨_, rfl, ?_⟩
    rw [carried_pwr]
    split
    · rw [event_pwr]
      exact ⟨rfl, rfl⟩
    · exact ⟨rfl, rfl⟩
  case fail =>
    rw [show exec (.powerFail c) s = _ from congrArg (finish s) (show doPowerFail c s = _ from if_neg hpower), finish_eq]
    exact ⟨_, rfl, rfl, mainOn_of_mainOff s rfl, rfl, rfl, rfl, rfl, rfl, rfl, rfl⟩
  case holdUp =>
    rw [show exec .holdUpExhausted s = _ from congrArg (finish s) (show doHoldUp s = _ from if_pos ⟨hpower, hon⟩), finish_eq]
    exact ⟨_, rfl, rfl, rfl, rfl⟩
  case stored =>
    have hdo : doStored s = storeItem x (modPwr (fun w => { w with nv := { w.nv with pendingWrites := xs } }) s) := by
      unfold doStored
      rw [hx]
    exact congrArg (finish s) hdo
  case staged =>
    obtain ⟨u, st, hdo, hrest⟩ := doFirmwareDone_of_staging s hst
    exact ⟨u, st, congrArg (finish s) hdo, hrest⟩

end Sys2Proof.Machine

namespace Sys2Proof.Machine

/-! Domains, the governor and the thermal limit (R445 to R448, R461, R463). -/

section
variable (s : State)

/-- Training that follows the junction changes the training jobs alone (R246). -/
theorem trainFollow_eq (hot : Int) : ∃ b c js, trainFollow hot s = { s with trainHot := b, trainSuspended := c, jobs := js } := by
  unfold trainFollow suspendTraining resumeTraining
  dsimp only
  split
  · split
    · exact ⟨_, _, _, rfl⟩
    · exact ⟨_, _, _, rfl⟩
  · split
    · exact ⟨_, _, _, rfl⟩
    · exact ⟨_, _, _, rfl⟩

theorem trainFollow_pwr (hot : Int) : (trainFollow hot s).pwr = s.pwr := by
  obtain ⟨b, c, js, h⟩ := trainFollow_eq s hot
  rw [h]

theorem pd_refreshPower (d : Nat) : pd (refreshPower s) d = pd s d := rfl

theorem pd_modPd_self (d : Nat) (f : Pd → Pd) : pd (modPd d f s) d = f (pd s d) := Tbl.get_mod_self ..

theorem pd_modPd_of_ne {d k : Nat} (h : k ≠ d) (f : Pd → Pd) : pd (modPd d f s) k = pd s k := Tbl.get_mod_of_ne _ h f

theorem carried_pd (t : State) (d : Nat) : pd (carried s t) d = pd t d := congrArg (fun w => w.pds.get d) (carried_pwr s t)

end

section
variable {s : State} {d c : Nat}

/-- Under AUTO an idle domain that is ON past its HOLD_US waits in KETTLE where a release is near, and goes off otherwise (R448). -/
theorem kettleDecide_auto (hc : pdClass d = some c) (hwork : pdWorks s d = false) (hold : (pd s d).lastUse + (s.pwr.kettle.get c).holdUs * 1000 ≤ s.lt)
    (hwake : (pd s d).waking = false) (hon : (pd s d).state = .on) (hpol : (s.pwr.kettle.get c).policy = 0) :
    kettleDecide d s = if predictedSoon s d ((s.pwr.kettle.get c).holdUs * 1000) then modPd d (fun x => { x with state := .kettle }) s
      else modPd d (fun x => { x with state := .goingOff, waking := false }) s := by
  have hpast : decide (s.lt - (pd s d).lastUse < (s.pwr.kettle.get c).holdUs * 1000) = false := decide_eq_false (by omega)
  unfold kettleDecide
  rw [hc]
  dsimp only
  rw [hwork, hwake, hpol, hpast]
  by_cases hsoon : predictedSoon s d ((s.pwr.kettle.get c).holdUs * 1000) = true
  · rw [hsoon, hon]
    rfl
  · rw [Bool.eq_false_iff.mpr hsoon, goOff, hon]
    rfl

theorem pd_kettleDecide_auto (hc : pdClass d = some c) (hwork : pdWorks s d = false)
    (hold : (pd s d).lastUse + (s.pwr.kettle.get c).holdUs * 1000 ≤ s.lt)
    (hwake : (pd s d).waking = false) (hon : (pd s d).state = .on) (hpol : (s.pwr.kettle.get c).policy = 0) :
    (pd (kettleDecide d s) d).state = (if predictedSoon s d ((s.pwr.kettle.get c).holdUs * 1000) then .kettle else .goingOff)
      ∧ ∀ k, k ≠ d → pd (kettleDecide d s) k = pd s k := by
  rw [kettleDecide_auto hc hwork hold hwake hon hpol]
  split
  · exact ⟨congrArg Pd.state (pd_modPd_self ..), fun k hk => pd_modPd_of_ne s hk _⟩
  · exact ⟨congrArg Pd.state (pd_modPd_self ..), fun k hk => pd_modPd_of_ne s hk _⟩

theorem pd_doDomainOff {d : Fin 64} (h : (pd s d).state = .goingOff) :
    pd (doDomainOff d s) d = { pd s d with state := .off, heldWake := false, waking := (pd s d).heldWake } := by
  unfold doDomainOff
  rw [if_pos h]
  extract_lets t q u
  have hu : pd u d = pd t d := by
    unfold u
    split
    · rfl
    · rfl
  rw [pd_refreshPower, hu]
  exact pd_modPd_self ..

/-- The state after a new 1 ms mean of the board's power (R461). -/
def measured (mean mv : Nat) (s : State) : State :=
  modPwr (fun w => { w with meanMw := mean, peakMw := max w.peakMw mean, voltage := mv / 10 }) s

theorem doGovernor_down {mean mv : Nat} {a : Nat × Nat} (hon : mainOn s = true) (hover : limitMw s < mean) (hstep : nextStep s = some a)
    (hrate : rateOk s.pwr.govAt s.lt 100000 = true) :
    doGovernor mean mv s =
      govDone (govStep s) (modPwr (fun w => moveClocks a false { w with gov := a :: w.gov, govAt := some s.lt }) (measured mean mv s)) := by
  unfold doGovernor
  extract_lets u
  have hon' : mainOn u = true := hon
  have hover' : limitMw u < mean := hover
  have hstep' : nextStep u = some a := hstep
  rw [hon', Bool.not_true, if_neg Bool.false_ne_true, if_pos hover', hstep']
  exact if_pos hrate

theorem doGovernor_up {mean mv : Nat} {a : Nat × Nat} {rest : List (Nat × Nat)} (hon : mainOn s = true) (hunder : 100 * mean < 95 * limitMw s)
    (hgov : s.pwr.gov = a :: rest) (hrate : rateOk s.pwr.govAt s.lt 1000000 = true) :
    doGovernor mean mv s =
      govDone (govStep s) (modPwr (fun w => moveClocks a true { w with gov := rest, govAt := some s.lt }) (measured mean mv s)) := by
  unfold doGovernor
  extract_lets u
  have hon' : mainOn u = true := hon
  have hover' : ¬ limitMw u < mean := show ¬ limitMw s < mean by omega
  have hunder' : 100 * mean < 95 * limitMw u := hunder
  have hgov' : u.pwr.gov = a :: rest := hgov
  rw [hon', Bool.not_true, if_neg Bool.false_ne_true, if_neg hover', if_pos hunder', hgov']
  exact if_pos hrate

theorem doGovernor_between {mean mv : Nat} (hon : mainOn s = true) (hlow : mean ≤ limitMw s) (hhigh : 95 * limitMw s ≤ 100 * mean) :
    doGovernor mean mv s = measured mean mv s := by
  unfold doGovernor
  extract_lets u
  have hon' : mainOn u = true := hon
  have hover' : ¬ limitMw u < mean := Nat.not_lt.mpr hlow
  have hunder' : ¬ 100 * mean < 95 * limitMw u := Nat.not_lt.mpr hhigh
  rw [hon', Bool.not_true, if_neg Bool.false_ne_true, if_neg hover', if_neg hunder']
  rfl

theorem doThermal_down {j : Int} (hon : mainOn s = true) (hhot : 95 ≤ j) (hrate : rateOk s.pwr.thermalAt s.lt 1000000 = true) :
    (doThermal j s).pwr = { s.pwr with
      mainTj := 16 * j, thermal := some (s.pwr.thermal.getD (s.pwr.cap * 1000) - s.pwr.cap * 50), throttling := true, thermalAt := some s.lt } := by
  have hon' : mainOn (modPwr (fun w => { w with mainTj := 16 * j }) s) = true := hon
  unfold doThermal
  dsimp only
  rw [hon', Bool.not_true, if_neg Bool.false_ne_true, trainFollow_pwr, if_pos ⟨hhot, hrate⟩]
  split
  · rfl
  · rw [event_pwr]
    rfl

theorem doThermal_up {j : Int} (hon : mainOn s = true) (hcool : j ≤ 92) (hthr : s.pwr.throttling = true)
    (hrate : rateOk s.pwr.thermalAt s.lt 10000000 = true) :
    (doThermal j s).pwr.mainTj = 16 * j
      ∧ (doThermal j s).pwr.thermal = (if s.pwr.cap * 1000 ≤ s.pwr.thermal.getD (s.pwr.cap * 1000) + s.pwr.cap * 50 then none
        else some (s.pwr.thermal.getD (s.pwr.cap * 1000) + s.pwr.cap * 50)) := by
  have hon' : mainOn (modPwr (fun w => { w with mainTj := 16 * j }) s) = true := hon
  unfold doThermal
  dsimp only
  rw [hon', Bool.not_true, if_neg Bool.false_ne_true, trainFollow_pwr, if_neg (fun h => by omega), if_pos ⟨hcool, hthr, hrate⟩]
  split
  next hfull =>
    rw [event_pwr]
    exact ⟨rfl, (if_pos hfull).symm⟩
  next hpart => exact ⟨rfl, (if_neg hpart).symm⟩

end

/-- Settles O52. -/
theorem domainAndRestEvents : Obligations.DomainAndRestEvents := by
  unfold Obligations.DomainAndRestEvents
  intro d s
  refine ⟨?wake, ?hold, ?off, ?governor, ?thermal⟩
  case wake =>
    intro hon hwake
    exact congrArg (finish s) (if_pos ⟨hon, hwake⟩)
  case hold =>
    intro c hc hon hwork hold
    have hexec : exec (.kettleHoldExpiry d) s = finish s (refreshPower (kettleDecide d s)) := by
      refine congrArg (finish s) ?_
      unfold doHoldExpiry
      rw [hc]
      exact if_pos ⟨hon, hwork, hold⟩
    refine ⟨hexec, fun hwake hst hpol => ?_⟩
    obtain ⟨hself, hother⟩ := pd_kettleDecide_auto hc hwork hold hwake hst hpol
    rw [hexec, finish_eq]
    refine ⟨_, rfl, ?_, fun k hk => ?_⟩
    · rw [carried_pd, pd_refreshPower]
      exact hself
    · rw [carried_pd, pd_refreshPower]
      exact hother k hk
  case off =>
    intro hst
    rw [show exec (.domainOffComplete d) s = finish s (doDomainOff d s) from rfl, finish_eq]
    refine ⟨_, rfl, ?_⟩
    rw [carried_pd, pd_doDomainOff hst]
    exact ⟨rfl, rfl, rfl⟩
  case governor =>
    intro mean mv hon
    exact ⟨fun a hover hstep hrate => congrArg (finish s) (doGovernor_down hon hover hstep hrate),
      fun a rest hunder hgov hrate => congrArg (finish s) (doGovernor_up hon hunder hgov hrate),
      fun hlow hhigh => congrArg (finish s) (doGovernor_between hon hlow hhigh)⟩
  case thermal =>
    intro j hon
    rw [show exec (.thermalLimitStep j) s = finish s (doThermal j s) from rfl, finish_eq]
    refine ⟨fun hhot hrate => ⟨_, rfl, ?_⟩, fun hcool hthr hrate => ⟨_, rfl, ?_⟩⟩
    · rw [carried_pwr, doThermal_down hon hhot hrate]
      exact ⟨rfl, rfl, rfl⟩
    · rw [carried_pwr]
      exact doThermal_up hon hcool hthr hrate

end Sys2Proof.Machine

namespace Sys2Proof.Machine

/-! Sleep, wake, coolant samples and the entry to LIMP (R464 to R467, R480 to R484). -/

/-! ### The stop of every loop -/

section
variable (e : Edge)

theorem askStop_eq (n : Nat) : askStop n e = e.modLoop n (askedStop e.tick) := by
  refine modLoop_congr e ?_
  by_cases hrun : (loopN e n).state = .running
  · simp [askedStop, hrun]
  · simp [askedStop, hrun]

/-- Loop states after a stop was asked of the loops listed: RUNNING becomes STOPPING, and no other state moves (R285, R286). -/
theorem stop_foldl (ns : List Nat) :
    (∃ ls, ns.foldl (fun e n => askStop n e) e = { e with loops := ls })
      ∧ ∀ k, (loopN (ns.foldl (fun e n => askStop n e) e) k).state =
        if k ∈ ns ∧ (loopN e k).state = .running then .stopping else (loopN e k).state := by
  induction ns generalizing e with
  | nil => exact ⟨⟨_, rfl⟩, fun k => (if_neg (fun h => nomatch h.1)).symm⟩
  | cons n ns ih =>
    obtain ⟨⟨ls, hls⟩, hst⟩ := ih (askStop n e)
    refine ⟨⟨ls, hls⟩, fun k => ?_⟩
    rw [List.foldl_cons, hst k, askStop_eq]
    by_cases hk : k = n
    · subst hk
      rw [loopN_modLoop_self]
      by_cases hrun : (loopN e k).state = .running
      · simp [askedStop, hrun]
      · simp [askedStop, hrun]
    · rw [loopN_modLoop_of_ne e hk]
      simp [hk]

theorem stopLoops_running {n : Nat} (hn : n < 32) (hrun : (loopN e n).state = .running) : (loopN (stopLoops e) n).state = .stopping :=
  ((stop_foldl e (List.range 32)).2 n).trans (if_pos ⟨List.mem_range.mpr hn, hrun⟩)

theorem stopLoops_stopped {n : Nat} (hst : (loopN e n).state = .stopped) : (loopN (stopLoops e) n).state = .stopped :=
  ((stop_foldl e (List.range 32)).2 n).trans ((if_neg (fun h => absurd (hst.symm.trans h.2) (by decide))).trans hst)

theorem stopLoops_on : (stopLoops e).on = e.on := by
  obtain ⟨ls, hls⟩ := (stop_foldl e (List.range 32)).1
  rw [stopLoops, hls]

/-- What the edge die keeps without power is the same whether or not its loops were asked to stop (R465). -/
theorem edgeOff_stopLoops : edgeOff (stopLoops e) = edgeOff e := by
  obtain ⟨ls, hls⟩ := (stop_foldl e (List.range 32)).1
  rw [stopLoops, hls]
  rfl

end

section
variable {s : State}

/-! ### The entries -/

theorem wakeHeld_none (h : s.pwr.heldWake = none) : wakeHeld s = s := by rw [wakeHeld, h]

theorem suspendTraining_eq (s : State) : ∃ b js, suspendTraining s = { s with trainSuspended := b, jobs := js } := by
  unfold suspendTraining
  split
  · exact ⟨_, _, rfl⟩
  · exact ⟨_, _, rfl⟩

theorem sleepMain_edge (s : State) : (sleepMain s).edge = s.edge := by
  obtain ⟨b, js, h⟩ := suspendTraining_eq s
  rw [sleepMain, h]

/-- A problem across a sleep keeps its image and its parameters (R464). -/
theorem prob_sleepMain (s : State) (p : Nat) : (prob (sleepMain s) p).im = (prob s p).im ∧ (prob (sleepMain s) p).params = (prob s p).params := by
  unfold prob sleepMain
  dsimp only
  induction s.probs with
  | nil => exact ⟨rfl, rfl⟩
  | cons e l ih =>
    obtain ⟨i, q⟩ := e
    rw [List.map_cons, Tbl.get, Tbl.get]
    split
    · exact ⟨rfl, rfl⟩
    · exact ih

/-- Every loop is STOPPED. -/
def loopsStopped (e : Edge) : Bool := (List.range 32).all (fun n => (loopN e n).state == .stopped)

theorem loopsStopped_iff (e : Edge) : loopsStopped e = true ↔ ∀ n, n < 32 → (loopN e n).state = .stopped := by
  simp [loopsStopped]

/-- The end of the entry to OFF, once every loop has stopped: the edge die goes (R465). -/
def offDone (s : State) : State :=
  modEdge edgeOff (modPwr (fun w => { w with
    power := .off, stage := .down, entering := none, sleepCount := some (0, w.since), unlocked := false }) s)

/-- The entry to OFF ends where the main die is off and every loop has stopped (R465). -/
def offStep (s : State) : State := if !mainOn s && loopsStopped s.edge then wakeHeld (offDone s) else s

theorem doRestDone_off (hent : s.pwr.entering = some 4) :
    doRestDone s = offStep (if mainOn s && restDone s then modEdge stopLoops (mainOff s) else s) := by
  unfold doRestDone
  rw [hent]
  rfl

/-- With the main die on, it goes first and the loops are asked to stop (R465). -/
theorem doRestDone_off_first (hent : s.pwr.entering = some 4) (hon : mainOn s = true) (hrest : restDone s = true) :
    doRestDone s = if loopsStopped (stopLoops (mainOff s).edge) then wakeHeld (offDone (modEdge stopLoops (mainOff s)))
      else modEdge stopLoops (mainOff s) := by
  have hoff : mainOn (modEdge stopLoops (mainOff s)) = false := mainOn_of_mainOff s rfl
  rw [doRestDone_off hent, hon, hrest, Bool.and_self, if_pos rfl, offStep, hoff, Bool.not_false, Bool.true_and, modEdge_edge]

theorem doRestDone_off_last (hent : s.pwr.entering = some 4) (hon : mainOn s = false) (hst : loopsStopped s.edge = true) :
    doRestDone s = wakeHeld (offDone s) := by
  rw [doRestDone_off hent, hon, Bool.false_and, if_neg Bool.false_ne_true, offStep, hon, hst]
  rfl

/-! ### Wakes -/

theorem doWakeEvent_now {c : WakeSource} (hen : wakeEnabled s c = true)
    (htimer : c = .timer → ∃ l t0, s.pwr.sleepCount = some (l, t0) ∧ s.pwr.timerMs * 1000000 ≤ s.pwr.since - t0)
    (hfio : c = .fieldIo → s.pwr.power ≠ .off) :
    doWakeEvent c s = if s.pwr.entering.isSome then
      modPwr (fun w => { w with heldWake := match w.heldWake with | some x => some x | none => some c }) s else wakeNow c s := by
  unfold doWakeEvent
  cases c with
  | wakeIn =>
    dsimp only
    rw [hen]
    rfl
  | timer =>
    obtain ⟨l, t0, hcount, htime⟩ := htimer rfl
    rw [hcount]
    dsimp only
    rw [hen, decide_eq_true htime]
    rfl
  | fieldIo =>
    dsimp only
    rw [hen, bne_iff_ne.mpr (hfio rfl)]
    rfl

theorem wakeSleep_pwr (c : WakeSource) (s : State) :
    (wakeSleep c s).pwr = { s.pwr with power := .idle, stage := .hbm, waking := some (c, false), sleepCount := none, cap := s.pwr.nv.cap.getD 720 } := by
  unfold wakeSleep
  extract_lets t0 ns w w' u v
  have hlinks : (forAll (v.links.filter (fun e => e.2.wasEnabled)) (fun e t => trainLink e.1 t) v).pwr = v.pwr :=
    forAll_same State.pwr (f := fun (e : Nat × Link) t => trainLink e.1 t) _ (fun _ _ => rfl) v
  have hports : v.pwr = u.pwr := forAll_same State.pwr (f := fun (e : Nat × Port) t => startPort e.1 (modPort e.1 (fun q => { q with resume := false }) t)) _
    (fun _ _ => rfl) u
  exact hlinks.trans hports

theorem wakeOff_pwr (c : WakeSource) (s : State) : ∃ ch, (wakeOff c s).pwr = { s.pwr with
    power := .idle, stage := .warden, since := 0, lockoutAt := 0, everFull := false, waking := some (c, true), sleepCount := none
    unlocked := false, challenge := ch } := by
  obtain ⟨ch, hch⟩ := newChallenge_pwr (modPwr (fun w => { w with unlocked := false }) (modPwr (fun w => { w with
    power := .idle, stage := .warden, since := 0, lockoutAt := 0, everFull := false, waking := some (c, true), sleepCount := none }) s))
  exact ⟨ch, hch⟩

/-- A wake that is over has no cause on the way (R466). -/
theorem woken_waking (s : State) : (woken s).pwr.waking = none := by
  unfold woken
  split
  next h => exact h
  next => rw [event_pwr]; rfl

theorem doWakeDone_full (hst : s.pwr.stage = .hbm) (hwake : fromSleep s = true) : full (doWakeDone s) = true ∧ (doWakeDone s).pwr.waking = none := by
  have hfull : (woken (copyRecords (modPwr (fun w => { w with stage := .full, everFull := true }) s))).pwr.stage = .full := by
    rw [woken_stage, copyRecords_stage]
    rfl
  unfold doWakeDone
  rw [if_pos ⟨hst, hwake⟩, full, trainFollow_pwr, hfull, woken_waking]
  exact ⟨rfl, rfl⟩

end

/-- Settles O53. -/
theorem restAndWakeEvents : Obligations.RestAndWakeEvents := by
  unfold Obligations.RestAndWakeEvents
  intro s
  refine ⟨?sleep, ?off, ?wake, ?done, ?coolant, ?limp⟩
  case sleep =>
    intro hent hon hrest
    have hdo : doRestDone s = wakeHeld (sleepMain s) := by
      unfold doRestDone
      rw [hent, hon, hrest]
      rfl
    have hexec : exec .sleepEntryComplete s = finish s (wakeHeld (sleepMain s)) := congrArg (finish s) hdo
    refine ⟨hexec, fun hheld => ?_⟩
    rw [hexec, wakeHeld_none (s := sleepMain s) hheld, finish_eq]
    refine ⟨_, rfl, ?_, ?_, ?_, fun p => ?_⟩
    · rw [carried_pwr]
      rfl
    · rw [mainOn, carried_pwr]
      rfl
    · rw [carried_edge]
      exact sleepMain_edge s
    · rw [carried_prob]
      exact prob_sleepMain s p
  case off =>
    intro hent
    refine ⟨fun hon hrest hloops hheld => ?_, fun hon hrest hrun => ?_, fun hon hloops hheld => ?_⟩
    · have hstopped : loopsStopped (stopLoops (mainOff s).edge) = true :=
        (loopsStopped_iff _).mpr (fun n hn => stopLoops_stopped (mainOff s).edge (hloops n hn).1)
      rw [show exec .sleepEntryComplete s = finish s (offDone (modEdge stopLoops (mainOff s))) from congrArg (finish s)
        ((doRestDone_off_first hent hon hrest).trans ((if_pos hstopped).trans (wakeHeld_none hheld))), finish_eq]
      refine ⟨_, rfl, ?_⟩
      rw [mainOn, carried_pwr, carried_edge]
      exact ⟨rfl, rfl, edgeOff_stopLoops (mainOff s).edge⟩
    · obtain ⟨n, hn, hrunning⟩ := hrun
      have hbusy : ¬ loopsStopped (stopLoops (mainOff s).edge) = true := fun h =>
        absurd ((stopLoops_running (mainOff s).edge hn hrunning).symm.trans ((loopsStopped_iff _).mp h n hn)) (by decide)
      rw [show exec .sleepEntryComplete s = finish s (modEdge stopLoops (mainOff s)) from congrArg (finish s)
        ((doRestDone_off_first hent hon hrest).trans (if_neg hbusy)), finish_eq]
      refine ⟨_, rfl, ?_⟩
      rw [mainOn, carried_pwr, carried_edge]
      exact ⟨mainOn_of_mainOff s (t := modEdge stopLoops (mainOff s)) rfl, hent, stopLoops_on (mainOff s).edge,
        fun k hk hr => stopLoops_running (mainOff s).edge hk hr⟩
    · rw [show exec .sleepEntryComplete s = finish s (offDone s) from congrArg (finish s)
        ((doRestDone_off_last hent hon ((loopsStopped_iff _).mpr hloops)).trans (wakeHeld_none hheld)), finish_eq]
      refine ⟨_, rfl, ?_⟩
      rw [carried_pwr, carried_edge]
      exact ⟨rfl, rfl, rfl⟩
  case wake =>
    intro c hen htimer hfio
    have hdo := doWakeEvent_now hen htimer hfio
    refine ⟨fun hent hpow => ?_, fun hent hpow => ?_, fun hent => ?_⟩
    · rw [hent] at hdo
      have hnow : wakeNow c s = wakeSleep c s := by rw [wakeNow, hpow]
      rw [show exec (.wakeEvent c) s = finish s (wakeSleep c s) from congrArg (finish s) (hdo.trans hnow), finish_eq]
      refine ⟨_, rfl, ?_⟩
      rw [mainOn, carried_pwr, wakeSleep_pwr]
      exact ⟨rfl, rfl, rfl⟩
    · rw [hent] at hdo
      have hnow : wakeNow c s = wakeOff c s := by rw [wakeNow, hpow]
      obtain ⟨ch, hch⟩ := wakeOff_pwr c s
      rw [show exec (.wakeEvent c) s = finish s (wakeOff c s) from congrArg (finish s) (hdo.trans hnow), finish_eq]
      refine ⟨_, rfl, ?_⟩
      rw [carried_pwr, hch]
      exact ⟨rfl, rfl, rfl, rfl⟩
    · exact congrArg (finish s) (hdo.trans (if_pos (Option.isSome_iff_ne_none.mpr hent)))
  case done =>
    intro hst hwake
    rw [show exec .wakeComplete s = finish s (doWakeDone s) from rfl, finish_eq]
    refine ⟨_, rfl, ?_⟩
    rw [full, carried_pwr]
    exact doWakeDone_full hst hwake
  case coolant =>
    intro c hon
    extract_lets cause u
    have hexec : exec (.coolantSample c) s = finish s (if mainOn (limpSample c cause u) then
        trainFollow (max c.junction c.edge) (limpSample c cause u) else limpSample c cause u) := by
      have honu : mainOn u = true := hon
      refine congrArg (finish s) ((?_ : (if !mainOn u then u else _) = _))
      rw [honu]
      rfl
    refine ⟨hexec, fun hlimp hcause => ?_⟩
    have hsame : limpSample c cause u = u := by
      have hlimpu : u.faults.limp = none := hlimp
      unfold limpSample
      rw [hlimpu, hcause]
    have hlost : u.faults.coolantLost = false := congrArg Option.isSome hcause
    rw [hexec, hsame, if_pos (show mainOn u = true from hon), finish_eq]
    obtain ⟨b, b', js, htrain⟩ := trainFollow_eq u (max c.junction c.edge)
    refine ⟨_, rfl, ?_⟩
    rw [carried_faults, carried_pwr, carried_probs, carried_sets, htrain]
    exact ⟨hlost, hlimp, rfl, rfl, rfl, rfl⟩
  case limp =>
    intro hlimp hpow hon hret
    have hall : s.probs.all (fun e => e.2.st != .retiring) = true := by
      rw [List.all_eq_true]
      exact fun e he => bne_iff_ne.mpr (fun h => List.any_eq_false.mp hret e he (beq_iff_eq.mpr h))
    rw [show exec .limpEntryComplete s = finish s _ from congrArg (finish s)
      (show doLimpEntry s = _ from if_pos ⟨Option.isSome_iff_ne_none.mpr hlimp, hpow, hon, hall⟩), finish_eq]
    refine ⟨_, rfl, ?_⟩
    rw [carried_pwr]
    exact ⟨rfl, rfl⟩

end Sys2Proof.Machine

namespace Sys2Proof.Machine

/-! Faults: transient and lasting ones, of the main die, of steeps, memories and lanes; tests and the scrub (R381, R382, R472 to R479). -/

section
variable {s : State} {kind i : Nat}

/-- A detector that fires in a unit in service is heard (R473). -/
theorem heard_of_inService (hon : mainOn s = true) (hex : unitExists kind i = true) (hfen : fenced s kind i = false) :
    ¬ (!mainOn s || !unitExists kind i || (fenced s kind i && !fencePends s (kind, i))) = true := by
  rw [hon, hex, hfen]
  exact Bool.false_ne_true

theorem doFault_worker (det : Fin 7) (retryOk : Bool) (m : MemFaultIn) (hon : mainOn s = true) (hex : unitExists kind i = true)
    (hfen : fenced s kind i = false) (hkind : kind ≤ 3) : doFault kind i det retryOk m s = faultInWorker kind i det retryOk s := by
  have hheard := heard_of_inService hon hex hfen
  obtain rfl | rfl | rfl | rfl : kind = 0 ∨ kind = 1 ∨ kind = 2 ∨ kind = 3 := by omega
  · exact if_neg hheard
  · exact if_neg hheard
  · exact if_neg hheard
  · exact if_neg hheard

theorem doFault_lane {l : Fin 8} {lane : Fin 4} (det : Fin 7) (retryOk : Bool) (m : MemFaultIn) (hon : mainOn s = true)
    (hex : unitExists 7 i = true) (hfen : fenced s 7 i = false) (hi : i = 4 * l + lane) :
    doFault 7 i det retryOk m s = doCrc l (!retryOk) lane s := by
  have hl : (⟨i / 4 % 8, Nat.mod_lt _ (by decide)⟩ : Fin 8) = l := Fin.ext (show i / 4 % 8 = l by omega)
  have hlane : (⟨i % 4, Nat.mod_lt _ (by decide)⟩ : Fin 4) = lane := Fin.ext (show i % 4 = lane by omega)
  rw [← hl, ← hlane]
  exact if_neg (heard_of_inService hon hex hfen)

/-- Of a unit without a steep's work the event says whether the fault lasts (R474). -/
theorem faultInWorker_idle (det : Nat) (retryOk : Bool) (hwork : workOn s kind i = none)
    (hstop : kind = 2 → s.jobs.any (fun j => j.stopping) = false) :
    faultInWorker kind i det retryOk s = if retryOk then countTransient kind i det s else rebalance (loseUnit kind i det s) := by
  have hidle : (kind == 2 && s.jobs.any (fun j => j.stopping)) = false := by
    rw [Bool.and_eq_false_iff]
    by_cases hk : kind = 2
    · exact .inr (hstop hk)
    · exact .inl (beq_false_of_ne hk)
  unfold faultInWorker
  rw [hwork, hidle]
  rfl

theorem faultInWorker_steep (det : Nat) (retryOk : Bool) {p : Nat} {t : Steep} (hwork : workOn s kind i = some p) (hst : (prob s p).steep = some t) :
    faultInWorker kind i det retryOk s = faultInSteep p [(kind, i, det)] t s := by
  unfold faultInWorker
  rw [hwork, Option.bind_some, hst]
  rfl

/-- A lasting fault of a unit fences it and changes no problem and no set (R474). -/
theorem fenceLasting_fences (det : Nat) (s : State) :
    fenced (fenceLasting kind i det s) kind i = true ∧ (fenceLasting kind i det s).probs = s.probs ∧ (fenceLasting kind i det s).sets = s.sets :=
  ⟨fenced_markFenced _ (by decide) (.inr rfl), event_probs .., (sets_of_device (event_device ..)).trans rfl⟩

/-- A patrol scrub counts what it corrects, of HBM outside LIMP alone (R381). -/
theorem doPatrol_eq (pool corrected : Bool) (hon : mainOn s = true) :
    doPatrol pool corrected s = if corrected ∧ (pool = true ∨ s.pwr.power ≠ .limp)
      then { s with mem := { s.mem with counts := bumpAt s.mem.counts (if pool then 5 else 0) 1 } } else s := by
  have hcond : (mainOn s && corrected && (pool || s.pwr.power != .limp)) = true ↔ corrected ∧ (pool = true ∨ s.pwr.power ≠ .limp) := by
    rw [hon, Bool.true_and, Bool.and_eq_true, Bool.or_eq_true, bne_iff_ne]
  rw [doPatrol, memCount]
  simp only [hcond]

end

/-- Settles O54. -/
theorem faultEventsComplete : Obligations.FaultEventsComplete := by
  unfold Obligations.FaultEventsComplete
  intro s m det hon
  refine ⟨?detected, ?unresolved, ?watchdog, ?loss, ?scrub, ?selfTest⟩
  case detected =>
    intro kind i hex hfen
    refine ⟨fun hk => ?core, fun hk hwork hstop => ?idle, fun p t ok hk hwork hst => ?steep, fun ok hk => ?memory, fun l lane ok hk hi => ?lane⟩
    case core =>
      subst hk
      have hdo (ok : Bool) : exec (.faultDetected 4 i det ok m) s = finish s (faultInCore i det ok s) :=
        congrArg (finish s) (if_neg (heard_of_inService hon hex hfen))
      refine ⟨hdo true, fun hi => ?_, fun hi => ?_⟩
      · exact (hdo false).trans (congrArg (finish s) (if_neg hi))
      · exact (hdo false).trans (congrArg (finish s) (if_pos hi))
    case idle =>
      have hdo (ok : Bool) := (doFault_worker det ok m hon hex hfen hk).trans (faultInWorker_idle det ok hwork hstop)
      exact ⟨congrArg (finish s) (hdo true), congrArg (finish s) (hdo false)⟩
    case steep =>
      exact congrArg (finish s) ((doFault_worker det ok m hon hex hfen hk).trans (faultInWorker_steep det ok hwork hst))
    case memory =>
      obtain rfl | rfl := hk
      · exact congrArg (finish s) (if_neg (heard_of_inService hon hex hfen))
      · exact congrArg (finish s) (if_neg (heard_of_inService hon hex hfen))
    case lane =>
      subst hk
      exact congrArg (finish s) (doFault_lane det ok m hon hex hfen hi)
  case unresolved =>
    intro kind i hun
    exact ⟨congrArg (finish s) (if_pos hun), congrArg (finish s) (if_pos hun)⟩
  case watchdog =>
    intro core hready
    refine ⟨fun hcore hfen => ?_, fun ok => ?_⟩
    · have hne : core.val ≠ 0 := fun h => hcore (Fin.ext h)
      have hdo (ok : Bool) : doWatchdog core ok s = faultInCore core 6 ok s := by
        rw [doWatchdog, hready, Bool.not_true, if_neg Bool.false_ne_true, if_neg hne, hfen, if_neg Bool.false_ne_true]
      refine ⟨?_, congrArg (finish s) (hdo true)⟩
      rw [show exec (.watchdogExpiry core false) s = finish s (fenceLasting 4 core 6 s) from congrArg (finish s) ((hdo false).trans (if_neg hne)),
        finish_eq]
      obtain ⟨hfenced, hprobs, hsets⟩ := fenceLasting_fences (kind := 4) (i := core) 6 s
      refine ⟨_, rfl, ?_⟩
      rw [fenced, carried_unit, carried_probs, carried_sets]
      exact ⟨hfenced, hprobs, hsets⟩
    · refine congrArg (finish s) ?_
      rw [doWatchdog, hready]
      rfl
  case loss =>
    intro part
    rw [show exec (.mainDieLoss part det) s = finish s _ from congrArg (finish s) (show doMainLoss part det s = _ from if_pos hon), finish_eq]
    refine ⟨_, rfl, ?_⟩
    rw [carried_faults, mainOn, carried_pwr, carried_probs, carried_leases, carried_edge]
    exact ⟨rfl, rfl, rfl, rfl, rfl, rfl, rfl, rfl⟩
  case scrub =>
    intro pool corrected
    exact congrArg (finish s) (doPatrol_eq pool corrected hon)
  case selfTest =>
    intro r failed hr u pass
    refine ⟨fun hop => congrArg (finish s) ?_, fun hop => congrArg (finish s) ?_⟩
    · unfold doSelfTestDone
      rw [hr]
      exact if_neg hop
    · unfold doSelfTestDone
      rw [hr]
      exact if_pos hop

end Sys2Proof.Machine

namespace Sys2Proof.Machine

/-! Arbiters and the debug port (R376, R394 to R398, R459, R507 to R509). -/

section
variable {s : State}

theorem arb_modArb_self (s : State) (a : Nat) (f : Arb → Arb) : arb (modArb a f s) a = f (arb s a) := Tbl.get_mod_self ..
theorem arb_modArb_of_ne (s : State) {a b : Nat} (h : b ≠ a) (f : Arb → Arb) : arb (modArb a f s) b = arb s b := Tbl.get_mod_of_ne _ h f
theorem carried_arb (s t : State) (a : Nat) : arb (carried s t) a = arb t a := congrArg (fun l => l.get a) (carried_arbs s t)

/-! ### Arbiters -/

/-- Requests that arrive change an arbiter's queue alone (R396). -/
theorem arrive_eq (l : List (Fin 8 × Fin 4)) (x : Arb) : ∃ q, Arb.arrive l x = { x with queue := q } := by
  induction l generalizing x with
  | nil => exact ⟨_, rfl⟩
  | cons r l ih =>
    rw [Arb.arrive, List.foldl_cons]
    split
    · obtain ⟨q, hq⟩ := ih { x with queue := x.queue ++ [(r.1.val, r.2.val + 1)] }
      exact ⟨q, hq⟩
    · exact ih x

theorem arrive_emergencyAt (l : List (Fin 8 × Fin 4)) (x : Arb) : (Arb.arrive l x).emergencyAt = x.emergencyAt := by
  obtain ⟨q, hq⟩ := arrive_eq l x
  rw [hq]

theorem arrive_irqEn (l : List (Fin 8 × Fin 4)) (x : Arb) : (Arb.arrive l x).irqEn = x.irqEn := by
  obtain ⟨q, hq⟩ := arrive_eq l x
  rw [hq]

/-- A grant leaves the interrupt enable as it is (R400). -/
theorem cycle_irqEn (w : Bool) (x : Arb) : (x.cycle w).1.irqEn = x.irqEn := by
  unfold Arb.cycle
  extract_lets y
  split
  · rfl
  next c moved _ =>
    cases moved
    · cases w
      · rfl
      · rfl
    · cases w
      · rfl
      · rfl

theorem emergency_arrive (l : List (Fin 8 × Fin 4)) (a : Nat) : emergency (modArb a (Arb.arrive l) s) a = emergency s a := by
  unfold emergency
  rw [arb_modArb_self, arrive_emergencyAt]
  rfl

/-- The state after one cycle of an arbiter whose resource is free (R395). -/
def granted (a : Nat) (l : List (Fin 8 × Fin 4)) (w : Bool) (s : State) : State :=
  modArb a (fun _ => ((Arb.arrive l (arb s a)).cycle w).1) (modArb a (Arb.arrive l) s)

theorem doGrant_free {a : Fin 202} (l : List (Fin 8 × Fin 4)) (w : Bool) (hres : resourceOn s a = true) (hemg : emergency s a = false)
    (hvc2 : vc2First s a = false) :
    doGrant a l w s = if ((Arb.arrive l (arb s a)).cycle w).2.isEmpty || !(arb s a).irqEn then granted a l w s
      else event 0x031 a [BitVec.ofNat 8 (((Arb.arrive l (arb s a)).cycle w).2.foldl (fun m k => m + 2 ^ k) 0)] (granted a l w s) := by
  have hres' : resourceOn (modArb a (Arb.arrive l) s) a = true := hres
  have hvc2' : vc2First (modArb a (Arb.arrive l) s) a = false := hvc2
  unfold doGrant
  dsimp only
  rw [hres', emergency_arrive, hemg, hvc2', arb_modArb_self, cycle_irqEn, arrive_irqEn]
  rfl

theorem arb_granted (a : Nat) (l : List (Fin 8 × Fin 4)) (w : Bool) (s : State) :
    arb (granted a l w s) a = ((Arb.arrive l (arb s a)).cycle w).1 ∧ ∀ b, b ≠ a → arb (granted a l w s) b = arb s b :=
  ⟨arb_modArb_self .., fun _ hb => (arb_modArb_of_ne _ hb _).trans (arb_modArb_of_ne _ hb _)⟩

/-- An emergency requester that may request takes the resource, at its own arbiter alone (R397). -/
theorem emergency_taken {i : Instr} {a gap : Nat} (hexec : exec i s = finish s (doEmergency a gap s)) (hres : resourceOn s a = true)
    (hreq : hasEmergency s a = true) (hgap : gapOver s a gap = true) :
    ∃ t, exec i s = .next t ∧ arb t a = { arb s a with emergencyAt := some s.lt } ∧ ∀ b, b ≠ a → arb t b = arb s b := by
  have hdo : doEmergency a gap s = modArb a (fun x => { x with emergencyAt := some s.lt }) s := by
    rw [doEmergency, hres, hreq, hgap]
    rfl
  rw [hexec, hdo, finish_eq]
  refine ⟨_, rfl, ?_, fun b hb => ?_⟩
  · rw [carried_arb, arb_modArb_self]
  · rw [carried_arb, arb_modArb_of_ne _ hb]

/-! ### The debug port -/

theorem edgeEvent_pwr (code arg : Nat) (data : List Byte) (s : State) : (edgeEvent code arg data s).pwr = s.pwr := by
  unfold edgeEvent
  split
  · exact event_pwr ..
  · rfl

/-- A challenge is presented unless the warden locks the port out (R459). -/
theorem newChallenge_offered (h : s.pwr.lockout = false) : ∃ ch, (newChallenge s).pwr = { s.pwr with challenge := some ch } := by
  rw [newChallenge, h]
  exact ⟨_, congrArg (fun w : PowerSt => { w with challenge := some (drawN 6 s).1 }) (drawN_pwr s 6)⟩

theorem newChallenge_lockedOut (h : s.pwr.lockout = true) : (newChallenge s).pwr = { s.pwr with challenge := none } := by
  rw [newChallenge, h]
  rfl

theorem doDebugResponse_valid (hpow : s.pwr.power ≠ .unpowered) (hch : s.pwr.challenge ≠ none) :
    (doDebugResponse true s).pwr = { s.pwr with challenge := none, unlocked := true, invalid := 0 } := by
  unfold doDebugResponse
  rw [Option.isNone_eq_false_iff.mpr (Option.isSome_iff_ne_none.mpr hch), beq_false_of_ne hpow]
  exact edgeEvent_pwr ..

/-- The power state before a new challenge after an invalid response: the response counts, and the third locks out (R459). -/
def counted (w : PowerSt) : PowerSt :=
  { w with challenge := none, invalid := w.invalid + 1, lockout := decide (3 ≤ w.invalid + 1), lockoutAt := w.since }

theorem doDebugResponse_invalid (hpow : s.pwr.power ≠ .unpowered) (hch : s.pwr.challenge ≠ none) :
    ∃ ch, (doDebugResponse false s).pwr = { counted s.pwr with challenge := ch } ∧ (ch = none ↔ 3 ≤ s.pwr.invalid + 1) := by
  have hdo : ∃ u, doDebugResponse false s = newChallenge u ∧ u.pwr = counted s.pwr := by
    unfold doDebugResponse
    rw [Option.isNone_eq_false_iff.mpr (Option.isSome_iff_ne_none.mpr hch), beq_false_of_ne hpow]
    refine ⟨_, rfl, ?_⟩
    rw [modPwr_pwr, edgeEvent_pwr]
    rfl
  obtain ⟨u, hdo, hu⟩ := hdo
  rw [hdo, ← hu]
  by_cases hthird : 3 ≤ s.pwr.invalid + 1
  · have hlock : u.pwr.lockout = true := (congrArg PowerSt.lockout hu).trans (decide_eq_true hthird)
    exact ⟨none, newChallenge_lockedOut hlock, iff_of_true rfl hthird⟩
  · have hlock : u.pwr.lockout = false := (congrArg PowerSt.lockout hu).trans (decide_eq_false hthird)
    obtain ⟨ch, hnew⟩ := newChallenge_offered hlock
    exact ⟨some ch, hnew, iff_of_false (Option.some_ne_none _) hthird⟩

theorem doLockoutEnd_offers (hlock : s.pwr.lockout = true) (htime : s.pwr.lockoutAt + 60000000000 ≤ s.pwr.since) :
    ∃ ch, (doLockoutEnd s).pwr = { s.pwr with lockout := false, invalid := 0, challenge := some ch } := by
  obtain ⟨ch, hch⟩ := newChallenge_offered (s := modPwr (fun w => { w with lockout := false, invalid := 0 }) s) rfl
  refine ⟨ch, ?_⟩
  rw [doLockoutEnd, hlock, decide_eq_true htime]
  exact hch

/-! ### The TAPs -/

theorem exec_jtag_main {ir : JtagIr} (tdi : List Bool) (hne : ir ≠ .relock) (hon : mainOn s = true) :
    exec (.jtagInstruction false ⟨ir, tdi⟩) s =
      finish s (shiftDr false tdi (emit (.debug 1) (modPwr (fun w => { w with mainIr := ir }) s))) := by
  have hload : loadIr false ir s = emit (.debug 1) (modPwr (fun w => { w with mainIr := ir }) s) := by
    simp only [loadIr, Bool.false_eq_true, if_false, if_pos hon, if_neg hne]
  refine congrArg (finish s) ?_
  unfold doJtag
  dsimp only
  rw [hload]
  exact if_pos hon

/-- The powered edge-die TAP shifts through the register that the loaded instruction selects (R507). -/
theorem exec_jtag_edge {ir : JtagIr} {u : State} (tdi : List Bool) (hload : loadIr true ir s = u) (hpow : u.pwr.power ≠ .unpowered) :
    exec (.jtagInstruction true ⟨ir, tdi⟩) s = finish s (shiftDr true tdi u) := by
  refine congrArg (finish s) ?_
  unfold doJtag
  dsimp only
  rw [hload, bne_iff_ne.mpr hpow]
  rfl

/-- The relock of an unlocked debug port (R459, R507). -/
theorem loadIr_relock (h : s.pwr.unlocked = true) : (loadIr true .relock s).pwr.unlocked = false ∧ (loadIr true .relock s).pwr.edgeIr = .relock := by
  obtain ⟨ch, hch⟩ := newChallenge_pwr (modPwr (fun w => { w with unlocked := false }) (emit (.debug 1) (modPwr (fun w => { w with edgeIr := .relock }) s)))
  have hload : loadIr true .relock s = edgeEvent 0x205 1 [] (lockDebug (emit (.debug 1) (modPwr (fun w => { w with edgeIr := .relock }) s))) := by
    rw [loadIr, h]
    rfl
  rw [hload, edgeEvent_pwr, lockDebug, hch]
  exact ⟨rfl, rfl⟩

end

/-- Settles O55. -/
theorem arbiterAndDebugEvents : Obligations.ArbiterAndDebugEvents := by
  unfold Obligations.ArbiterAndDebugEvents
  refine ⟨fun a s hres => ⟨?grant, ?emergency, ?refresh⟩, fun s hpow => ⟨?response, ?lockout, ?jtag, ?relock, ?shift⟩⟩
  case grant =>
    intro l w hemg hvc2 r
    have hdo := doGrant_free l w hres hemg hvc2
    refine ⟨fun hquiet => ?_, fun hstarved hirq => ?_⟩
    · have hno : (r.2.isEmpty || !(arb s a).irqEn) = true := by
        rw [Bool.or_eq_true, List.isEmpty_iff, Bool.not_eq_true']
        exact hquiet
      rw [show exec (.arbiterGrant a l w) s = finish s (granted a l w s) from congrArg (finish s) (hdo.trans (if_pos hno)), finish_eq]
      obtain ⟨hself, hother⟩ := arb_granted a l w s
      refine ⟨_, rfl, ?_, fun b hb => ?_⟩
      · rw [carried_arb]
        exact hself
      · rw [carried_arb]
        exact hother b hb
    · have hyes : ¬ (r.2.isEmpty || !(arb s a).irqEn) = true := by
        rw [Bool.or_eq_true, List.isEmpty_iff, hirq]
        exact fun h => h.elim hstarved Bool.false_ne_true
      exact congrArg (finish s) (hdo.trans (if_neg hyes))
  case emergency => exact emergency_taken rfl hres
  case refresh =>
    intro st ch ps hot ha hgap
    have hlow : a.val < 128 := by omega
    have hreq : hasEmergency s a = true := by rw [hasEmergency, decide_eq_true hlow]; rfl
    exact emergency_taken (by rw [ha]; rfl) hres hreq hgap
  case response =>
    intro hch
    refine ⟨?_, ?_⟩
    · rw [show exec (.debugResponse true) s = finish s (doDebugResponse true s) from rfl, finish_eq]
      refine ⟨_, rfl, ?_⟩
      rw [carried_pwr, doDebugResponse_valid hpow hch]
      exact ⟨rfl, rfl, rfl⟩
    · obtain ⟨ch, hpwr, hnone⟩ := doDebugResponse_invalid hpow hch
      rw [show exec (.debugResponse false) s = finish s (doDebugResponse false s) from rfl, finish_eq]
      refine ⟨_, rfl, ?_⟩
      rw [carried_pwr, hpwr]
      exact ⟨rfl, rfl, rfl, hnone⟩
  case lockout =>
    intro hlock htime
    obtain ⟨ch, hpwr⟩ := doLockoutEnd_offers hlock htime
    rw [show exec .debugLockoutExpiry s = finish s (doLockoutEnd s) from rfl, finish_eq]
    refine ⟨_, rfl, ?_⟩
    rw [carried_pwr, hpwr]
    exact ⟨rfl, rfl, Option.some_ne_none _⟩
  case jtag =>
    intro ir tdi hne
    exact ⟨exec_jtag_main tdi hne, fun h => exec_jtag_edge tdi (loadIr_edge_taken hne h) hpow, fun h => exec_jtag_edge tdi (loadIr_edge_refused h) hpow⟩
  case relock =>
    intro hun
    rw [exec_jtagInstruction_nil, finish_eq]
    refine ⟨_, rfl, ?_⟩
    rw [carried_pwr]
    exact loadIr_relock hun
  case shift =>
    intro tdi htdi
    have hbits : tdi.isEmpty = false := List.isEmpty_eq_false_iff.mpr htdi
    refine ⟨?_, ?_, ?_⟩
    · rw [exec_jtag_edge tdi (loadIr_edge_taken (ir := .idcode) (by decide) rfl) hpow, shiftDr, hbits, finish_eq]
      refine ⟨_, rfl, ?_⟩
      rw [carried_out]
      rfl
    · rw [exec_jtag_edge tdi (loadIr_edge_taken (ir := .bypass) (by decide) rfl) hpow, shiftDr, hbits, finish_eq]
      refine ⟨_, rfl, ?_⟩
      rw [carried_out, carried_pwr]
      exact ⟨rfl, rfl⟩
    · rw [exec_jtag_edge tdi (loadIr_edge_taken (ir := .sample) (by decide) rfl) hpow, shiftDr, hbits, finish_eq]
      refine ⟨_, rfl, ?_⟩
      rw [carried_pwr]
      exact ⟨rfl, _, _, rfl, rfl, rfl⟩

end Sys2Proof.Machine
